-- ==== Sys2Proof/Word.lean ====
section
/-! DEFINITION. The word types of the machine (00_scope R6): byte, half, word, double, and the instant. -/

namespace Sys2Proof

/-- A 64-bit value: a general register, an address, a program counter (01_machine R12). -/
abbrev Word := BitVec 64

/-- The smallest addressable unit (00_scope R6). -/
abbrev Byte := BitVec 8

/-- An instruction word (03_formats R54), an FP32 value, a k register. -/
abbrev Half := BitVec 32

/-- An instant or an ordinal (07_instant R145). -/
abbrev Instant := BitVec 48

/-- A vector register (11_vector R240). -/
abbrev Vec := BitVec 512

end Sys2Proof
end

