-- ==== Sys2Proof/Syntax.lean ====
section
/-! DEFINITION. The syntax of Kerermeth (03_formats R54 to R72) and the part's other indivisible steps
(95_what_each_step_holds): one constructor of `Instr` per row of spec/opcode_table.json. A word's fields
stand as its format gives them; register numbers, operation codes and suffixes are types of their own. -/

namespace Sys2Proof

/-- The guard field [31:28] (R55): predicate number in bits [3:1], inversion in bit 0; 1 is never an instruction. -/
abbrev Guard := Fin 16
/-- A 4-bit register number: g0 to g15 or v0 to v15 (R58). -/
abbrev Reg := Fin 16
/-- A predicate number p0 to p7 (R57: bit 3 of its field is 0). -/
abbrev Pred := Fin 8
/-- A loop register k0 to k7 (R273). -/
abbrev KReg := Fin 8
/-- A segment register s0 to s7 (R378). -/
abbrev SReg := Fin 8

/-- Access sizes of the plain access spec (R60). -/
inductive Size | b | h | w | d
  deriving DecidableEq, Repr

/-- Access sizes of the ordered spec, reservations and atomics (R60, R198, R204). -/
inductive DSize | w | d
  deriving DecidableEq, Repr

/-- Ordering scopes (R168). -/
inductive Scope | core | clu | die | dev
  deriving DecidableEq, Repr

/-- Element formats by type code (R62). -/
inductive Elem | f32 | bf16 | e4m3 | e5m2 | i4 | i8 | i16 | i32 | i64
  deriving DecidableEq, Repr

/-- Rounding codes (R62); `dyn` is 111, the mode held in RMODE. -/
inductive Rnd | rne | rtz | rdn | rup | srk | dyn
  deriving DecidableEq, Repr

/-- Conditions of CMP and CMPI (R66). -/
inductive Cond | eq | ne | lt | le | gt | ge | ltu | leu | gtu | geu
  deriving DecidableEq, Repr

/-- Conditions of VCMP (R62). -/
inductive VCond | eq | ne | lt | le | gt | ge
  deriving DecidableEq, Repr

/-- Operations of LAMO (R204). -/
inductive AOp | add | and | or | xor | min | max | swap | cas
  deriving DecidableEq, Repr

/-- Reductions of COLL (R292). -/
inductive Red | sum | max | min
  deriving DecidableEq, Repr

/-- Host AtomicOps (R214). -/
inductive HostAOp | fetchAdd | swap | cas | cas128
  deriving DecidableEq, Repr

/-- The instant source of LDA and STV (R61): rel+n, now+n with n signed, or a register. -/
inductive InstSrc
  | rel (n : BitVec 7)
  | now (n : BitVec 7)
  | reg (gm : Reg)
  deriving DecidableEq, Repr

/-- An instant field of tile commands and engine blocks (R72). -/
inductive InstField
  | dflt
  | rel (n : BitVec 14)
  | now (n : BitVec 14)
  deriving DecidableEq, Repr

/-- An extent code of a tile command (R70): a k register or the constant 1. -/
inductive Ext
  | one
  | k (r : KReg)
  deriving DecidableEq, Repr

/-- One constructor per row of spec/opcode_table.json. -/
inductive Instr
  /-- ADD (R104): Writes the sum of two general registers, modulo 2^64. -/
  | add (g : Guard) (d a b : Reg)
  /-- SUB (R104): Writes the difference of two general registers, modulo 2^64. -/
  | sub (g : Guard) (d a b : Reg)
  /-- AND (R104): Writes the bitwise AND of two registers. -/
  | and (g : Guard) (d a b : Reg)
  /-- OR (R104): Writes the bitwise OR of two registers. -/
  | or (g : Guard) (d a b : Reg)
  /-- XOR (R104): Writes the bitwise XOR of two registers. -/
  | xor (g : Guard) (d a b : Reg)
  /-- ANDN (R104): Writes a AND NOT b. -/
  | andn (g : Guard) (d a b : Reg)
  /-- MIN (R104): Writes the signed minimum of two registers. -/
  | min (g : Guard) (d a b : Reg)
  /-- MAX (R104): Writes the signed maximum of two registers. -/
  | max (g : Guard) (d a b : Reg)
  /-- MINU (R104): Writes the unsigned minimum of two registers. -/
  | minu (g : Guard) (d a b : Reg)
  /-- MAXU (R104): Writes the unsigned maximum of two registers. -/
  | maxu (g : Guard) (d a b : Reg)
  /-- ADDS (R104): Writes the signed saturated sum. -/
  | adds (g : Guard) (d a b : Reg)
  /-- SUBS (R104): Writes the signed saturated difference. -/
  | subs (g : Guard) (d a b : Reg)
  /-- LEA (R105): Writes g[a] plus g[b] scaled by 1, 2, 4 or 8, with no access. -/
  | lea (g : Guard) (d a b : Reg) (s : BitVec 2)
  /-- MUL (R106): Writes the low 64 bits of the product. -/
  | mul (g : Guard) (d a b : Reg)
  /-- MULHI (R106): Writes the high 64 bits of the signed product. -/
  | mulhi (g : Guard) (d a b : Reg)
  /-- MULHU (R106): Writes the high 64 bits of the unsigned product. -/
  | mulhu (g : Guard) (d a b : Reg)
  /-- DIV (R106): Starts a signed division on the core's divider; the thread waits for it. -/
  | div (g : Guard) (d a b : Reg)
  /-- DIVU (R106): Starts an unsigned division on the divider. -/
  | divu (g : Guard) (d a b : Reg)
  /-- REM (R106): Starts a signed remainder on the divider. -/
  | rem (g : Guard) (d a b : Reg)
  /-- REMU (R106): Starts an unsigned remainder on the divider. -/
  | remu (g : Guard) (d a b : Reg)
  /-- DIVIDER_DONE (R99): The divider ends its 16-cycle division, writes the result and returns the thread to the rotation 4 cycles later. -/
  | dividerDone (core : Nat)
  /-- SHL (R108): Shifts left by g[b][5:0]. -/
  | shl (g : Guard) (d a b : Reg)
  /-- SHR (R108): Shifts right logically by g[b][5:0]. -/
  | shr (g : Guard) (d a b : Reg)
  /-- SRA (R108): Shifts right arithmetically by g[b][5:0]. -/
  | sra (g : Guard) (d a b : Reg)
  /-- ROL (R108): Rotates left by g[b][5:0]. -/
  | rol (g : Guard) (d a b : Reg)
  /-- CLZ (R108): Counts leading zero bits. -/
  | clz (g : Guard) (d a : Reg)
  /-- CTZ (R108): Counts trailing zero bits. -/
  | ctz (g : Guard) (d a : Reg)
  /-- POPC (R108): Counts one bits. -/
  | popc (g : Guard) (d a : Reg)
  /-- SEXT (R109): Sign-extends the low byte, half or word. -/
  | sext (g : Guard) (d a : Reg) (s : Size)
  /-- ZEXT (R109): Zero-extends the low byte, half or word. -/
  | zext (g : Guard) (d a : Reg) (s : Size)
  /-- CMP (R113): Sets a predicate from a register comparison under a condition code. -/
  | cmp (g : Guard) (p : Pred) (a b : Reg) (c : Cond)
  /-- SEL (R114): Selects g[a] or g[b] by a predicate. -/
  | sel (g : Guard) (d a b : Reg) (n : Pred)
  /-- PAND (R115): Writes the AND of two predicates. -/
  | pand (g : Guard) (p q r : Pred)
  /-- POR (R115): Writes the OR of two predicates. -/
  | por (g : Guard) (p q r : Pred)
  /-- PXOR (R115): Writes the XOR of two predicates. -/
  | pxor (g : Guard) (p q r : Pred)
  /-- PMOV (R115): Copies a predicate. -/
  | pmov (g : Guard) (p q : Pred)
  /-- ADDI (R110): Adds a signed 13-bit immediate. -/
  | addi (g : Guard) (d a : Reg) (i : BitVec 13)
  /-- ANDI (R110): ANDs with a sign-extended immediate. -/
  | andi (g : Guard) (d a : Reg) (i : BitVec 13)
  /-- ORI (R110): ORs with a sign-extended immediate. -/
  | ori (g : Guard) (d a : Reg) (i : BitVec 13)
  /-- XORI (R110): XORs with a sign-extended immediate. -/
  | xori (g : Guard) (d a : Reg) (i : BitVec 13)
  /-- SHLI (R110): Shifts left by an immediate count. -/
  | shli (g : Guard) (d a : Reg) (n : BitVec 6)
  /-- SHRI (R110): Shifts right logically by an immediate count. -/
  | shri (g : Guard) (d a : Reg) (n : BitVec 6)
  /-- SRAI (R110): Shifts right arithmetically by an immediate count. -/
  | srai (g : Guard) (d a : Reg) (n : BitVec 6)
  /-- MOVI (R110): Loads a sign-extended 13-bit immediate. -/
  | movi (g : Guard) (d : Reg) (i : BitVec 13)
  /-- MOVHI (R111): Shifts g[a] left 13 and ORs in an unsigned immediate. -/
  | movhi (g : Guard) (d a : Reg) (i : BitVec 13)
  /-- ADDPC (R112): Writes PC plus four times a signed immediate. -/
  | addpc (g : Guard) (d : Reg) (i : BitVec 13)
  /-- CMPI (R113): Sets a predicate from comparing a register with an immediate. -/
  | cmpi (g : Guard) (c : Cond) (p : Pred) (a : Reg) (i : BitVec 13)
  /-- BR (R117): Branches PC-relative. -/
  | br (g : Guard) (o : BitVec 21)
  /-- CALL (R122): Calls PC-relative, opening a new register window. -/
  | call (g : Guard) (o : BitVec 21)
  /-- JR (R117): Jumps to g[a]. -/
  | jr (g : Guard) (a : Reg)
  /-- CALLR (R122): Calls g[a], opening a new register window. -/
  | callr (g : Guard) (a : Reg)
  /-- RET (R123): Returns to lk, restoring or reloading the caller's window, or ends the task when lk is 0. -/
  | ret (g : Guard)
  /-- JTAB (R118): Dispatches through a table entry read by request, or falls through. -/
  | jtab (g : Guard) (a b : Reg) (l : BitVec 9)
  /-- JMP (R117): Jumps to g[a] plus a scaled displacement. -/
  | jmp (g : Guard) (a : Reg) (i : BitVec 13)
  /-- LOOP (R126): Opens a hardware loop with a register trip count. -/
  | loop (g : Guard) (c : Reg) (e : BitVec 9)
  /-- LOOPI (R126): Opens a hardware loop with an immediate trip count. -/
  | loopi (g : Guard) (n : BitVec 12) (e : BitVec 9)
  /-- NOP (R130): Uses its turn and makes the end check only. -/
  | nop (g : Guard)
  /-- LEXIT (R129): Pops the active hardware loop. -/
  | lexit (g : Guard)
  /-- LD (R160): Loads an Instant-domain value as of REL, migrating or requesting. -/
  | ld (g : Guard) (d a : Reg) (s : Size) (x : Bool) (o : BitVec 9)
  /-- ST (R161): Makes an Instant-domain store pending at VIS. -/
  | st (g : Guard) (d a : Reg) (s : Size) (o : BitVec 9)
  /-- LDA (R160): Loads an Instant-domain value as of a named instant. -/
  | lda (g : Guard) (d a : Reg) (s : Size) (x : Bool) (i : InstSrc)
  /-- STV (R161): Makes an Instant-domain store pending at a named instant. -/
  | stv (g : Guard) (d a : Reg) (s : Size) (i : InstSrc)
  /-- LDN (R162): Loads a Now-domain value on arrival. -/
  | ldn (g : Guard) (d a : Reg) (s : Size) (x : Bool) (o : BitVec 9)
  /-- STN (R162): Writes a Now-domain value on arrival, trailed or refused while speculative. -/
  | stn (g : Guard) (d a : Reg) (s : Size) (o : BitVec 9)
  /-- SCANCEL (R163): Withdraws the task's pending stores over a byte range. -/
  | scancel (g : Guard) (a : Reg) (s : Size) (o : BitVec 9)
  /-- LKUP (R166): Looks a key up in the core's tag table. -/
  | lkup (g : Guard) (d a : Reg)
  /-- TAGIN (R167): Installs a key in a tag table slot. -/
  | tagin (g : Guard) (a b : Reg)
  /-- TAGOUT (R167): Returns and invalidates a tag table slot. -/
  | tagout (g : Guard) (d a : Reg)
  /-- LDAQ (R173): Acquire load made at the home bank. -/
  | ldaq (g : Guard) (d a : Reg) (c : Scope) (z : DSize) (x : Bool) (o : BitVec 9)
  /-- STRL (R174): Release store: drains at its scope, then writes. -/
  | strl (g : Guard) (d a : Reg) (c : Scope) (z : DSize) (o : BitVec 9)
  /-- FENCE_FULL (R175): Drains at its scope and discards fetched-ahead words. -/
  | fenceFull (g : Guard) (c : Scope)
  /-- FENCE_ACQ (R175): Discards fetched-ahead words. -/
  | fenceAcq (g : Guard) (c : Scope)
  /-- FENCE_REL (R175): Drains at its scope and discards fetched-ahead words. -/
  | fenceRel (g : Guard) (c : Scope)
  /-- STSYNC (R176): Waits for the thread's engine Instant-domain writes to settle, then drains. -/
  | stsync (g : Guard) (c : Scope)
  /-- DRAIN_TOKEN (R172): A drain token arrives at a router behind the home's earlier invalidations. -/
  | drainToken (k : Nat)
  /-- INVALIDATION (R170): An invalidation arrives at a router, drops its entries for the home line and is acknowledged. -/
  | invalidation (k : Nat)
  /-- RSV (R198): Joins a word's reservation queue and waits to receive its value at the head. -/
  | rsv (g : Guard) (d a : Reg) (s : DSize) (o : BitVec 9)
  /-- RLS (R199): Releases a held word with a new value and passes it to the next waiter. -/
  | rls (g : Guard) (d a : Reg) (s : DSize) (o : BitVec 9)
  /-- RLSN (R199): Releases a held word unchanged. -/
  | rlsn (g : Guard) (a : Reg) (s : DSize) (o : BitVec 9)
  /-- RSV_RESEND (R198): A reservation request refused for a full home is resent 16 reference ticks later. -/
  | rsvResend (slot : Nat)
  /-- ABANDON_PACKET (R201): A home receives an abandon packet, removes the holder's entries and posts RSV-ABANDON records. -/
  | abandonPacket (k : Nat)
  /-- LAMO (R204): Performs an atomic read-modify-write on a local-store word within one turn. -/
  | lamo (g : Guard) (d a b : Reg) (o : AOp) (s : DSize)
  /-- MON (R206): Arms a monitor on a line. -/
  | mon (g : Guard) (a : Reg)
  /-- MWAIT (R207): Waits for a fired monitor, a timeout or an interrupt. -/
  | mwait (g : Guard) (d a : Reg)
  /-- MOFF (R208): Disarms a monitor. -/
  | moff (g : Guard) (a : Reg)
  /-- MONITOR_NOTICE (R205): A write notice reaches a router and sets the fired flags of monitors on the line. -/
  | monitorNotice (k : Nat)
  /-- MWAIT_TIMEOUT (R207): An MWAIT's timeout in reference ticks elapses and ends the wait. -/
  | mwaitTimeout (slot : Nat)
  /-- BARI (R210): Registers the thread in a barrier and waits for phase 0 to open. -/
  | bari (g : Guard) (a b : Reg)
  /-- BARA (R211): Drains, then sends an arrival at the current phase. -/
  | bara (g : Guard) (d a : Reg)
  /-- BARD (R211): Drains, arrives at the current phase and leaves the barrier. -/
  | bard (g : Guard) (d a : Reg)
  /-- BARW (R212): Waits until a barrier phase has completed. -/
  | barw (g : Guard) (a b : Reg)
  /-- BARRIER_REGISTRATION (R210): A BARI packet reaches a router, marks its port and, at the root, opens phase 0 when N have registered. -/
  | barrierRegistration (k : Nat)
  /-- BARRIER_ARRIVAL (R211): An arrival or drop packet reaches a router and is forwarded or completes the phase at the root. -/
  | barrierArrival (k : Nat)
  /-- BARRIER_COMPLETION (R211): A phase completion multicast reaches a router and ends matching waits. -/
  | barrierCompletion (k : Nat)
  /-- EXIT (R235): Ends the thread, sending provisional stores, abandoning reservations and freeing the slot. -/
  | exit (g : Guard)
  /-- YIELD (R236): Takes the thread out of the rotation for 16 cycles. -/
  | yield (g : Guard)
  /-- ANCHOR (R236): Makes the thread anchored. -/
  | anchor (g : Guard)
  /-- ROAM (R236): Makes the thread roaming. -/
  | roam (g : Guard)
  /-- MIGR (R236): Moves the thread to the home core of an address without access. -/
  | migr (g : Guard) (a : Reg)
  /-- WHO (R236): Writes the thread's device, partition, core, slot and mode. -/
  | who (g : Guard) (d : Reg)
  /-- SLEEP (R236): Takes the thread out of the rotation for a count of reference ticks. -/
  | sleep (g : Guard) (a : Reg)
  /-- SPAWN (R237): Starts a thread of the same task in a free slot of the core. -/
  | spawn (g : Guard) (d a b : Reg)
  /-- TNEXT (R235): Ends the thread as EXIT does but holds the slot for the next team. -/
  | tnext (g : Guard)
  /-- TWAIT (R238): Waits for and takes a message with a given header key. -/
  | twait (g : Guard) (d a b : Reg)
  /-- SLEEP_EXPIRY (R236): A SLEEP's tick count runs out and the thread becomes runnable. -/
  | sleepExpiry (slot : Nat)
  /-- YIELD_EXPIRY (R236): A YIELD's 16 cycles elapse and the thread becomes runnable. -/
  | yieldExpiry (slot : Nat)
  /-- SEND (R238): Drains and sends a 64-byte message to a core's inbox, setting a predicate on acceptance. -/
  | send (g : Guard) (p : Pred) (a b : Reg) (h : Bool)
  /-- INBOX (R238): Waits for and takes the oldest waiting message, high inbox first. -/
  | inbox (g : Guard) (d a : Reg)
  /-- IPEEK (R238): Returns the header INBOX would take. -/
  | ipeek (g : Guard) (d : Reg)
  /-- LAUNCH (R239): Drains and queues a launch descriptor, parking or refusing when the queue is full. -/
  | launch (g : Guard) (p : Pred) (a : Reg) (z : Bool)
  /-- MESSAGE_DELIVERY (R223): A message reaches an inbox and is accepted or refused by the partition's share. -/
  | messageDelivery (k : Nat)
  /-- MESSAGE_RETRY (R223): An engine or device message refused by a full inbox is retried after 16 reference ticks. -/
  | messageRetry (core : Nat)
  /-- HANDLER_START (R222): A free message slot takes the oldest handler message and starts the handler. -/
  | handlerStart (core : Nat) (part : Fin 8)
  /-- MIGRATION_ARRIVAL (R220): A migration packet reaches its home core and takes a free slot or the arrival queue. -/
  | migrationArrival (k : Nat)
  /-- REMOTE_REQUEST (R15): A remote access request reaches its home and is performed there. -/
  | remoteRequest (k : Nat)
  /-- REPLY_ARRIVAL (R159): A reply or acknowledgement reaches the waiting thread and returns it to the rotation. -/
  | replyArrival (k : Nat)
  /-- WAKE_MESSAGE (R76): A wake record reaches a dropped thread, which reissues its instruction. -/
  | wakeMessage (k : Nat)
  /-- PAGE_FAULT_REISSUE (R142): A page fault refused by a full queue is reissued 64 reference ticks later. -/
  | pageFaultReissue (slot : Nat)
  /-- PAGE_FAULT_RESOLVE (R144): With PAGH 0, a port maps zeroed frames from the frame pool and wakes the waiters, or reports the fault. -/
  | pageFaultResolve (cluster k : Nat)
  /-- LAUNCH_TAKE (R233): A cluster control core takes the next queued launch, checks it and builds the task lists. -/
  | launchTake (part : Fin 8)
  /-- CREW_START (R227): A released crew whose cores have slots starts as a whole in one reference tick. -/
  | crewStart (part : Fin 8) (launch crew : Nat)
  /-- IDLE_SPILL (R121): In an idle turn the core spills the oldest cached register window of a slot. -/
  | idleSpill (core : Nat)
  /-- VADD (R246): Adds vector lanes. -/
  | vadd (g : Guard) (d a b : Reg) (t : Elem) (r : Rnd)
  /-- VSUB (R246): Subtracts vector lanes. -/
  | vsub (g : Guard) (d a b : Reg) (t : Elem) (r : Rnd)
  /-- VMUL (R246): Multiplies vector lanes. -/
  | vmul (g : Guard) (d a b : Reg) (t : Elem) (r : Rnd)
  /-- VFMA (R246): Fused multiply-add of vector lanes. -/
  | vfma (g : Guard) (d a b : Reg) (t : Elem) (r : Rnd)
  /-- VMIN (R246): Lane-wise minimum. -/
  | vmin (g : Guard) (d a b : Reg) (t : Elem) (r : Rnd)
  /-- VMAX (R246): Lane-wise maximum. -/
  | vmax (g : Guard) (d a b : Reg) (t : Elem) (r : Rnd)
  /-- VABS (R247): Lane-wise absolute value. -/
  | vabs (g : Guard) (d a : Reg) (t : Elem)
  /-- VNEG (R247): Lane-wise negation. -/
  | vneg (g : Guard) (d a : Reg) (t : Elem)
  /-- VAND (R248): Bitwise AND of vectors. -/
  | vand (g : Guard) (d a b : Reg) (t : Elem)
  /-- VOR (R248): Bitwise OR of vectors. -/
  | vor (g : Guard) (d a b : Reg) (t : Elem)
  /-- VXOR (R248): Bitwise XOR of vectors. -/
  | vxor (g : Guard) (d a b : Reg) (t : Elem)
  /-- VSHL (R248): Lane-wise shift left. -/
  | vshl (g : Guard) (d a b : Reg) (t : Elem)
  /-- VSHR (R248): Lane-wise logical shift right. -/
  | vshr (g : Guard) (d a b : Reg) (t : Elem)
  /-- VSRA (R248): Lane-wise arithmetic shift right. -/
  | vsra (g : Guard) (d a b : Reg) (t : Elem)
  /-- VCMP (R249): Lane-wise compare producing all-ones or zero lanes. -/
  | vcmp (g : Guard) (d a b : Reg) (t : Elem) (c : VCond)
  /-- VSEL (R249): Selects lanes by the old destination mask. -/
  | vsel (g : Guard) (d a b : Reg) (t : Elem)
  /-- VCVT (R250): Converts lanes between formats. -/
  | vcvt (g : Guard) (d a : Reg) (s t : Elem) (r : Rnd)
  /-- VSCL (R251): Multiplies lanes by an FP32 scalar. -/
  | vscl (g : Guard) (d a b : Reg) (t : Elem) (r : Rnd)
  /-- VREDS (R253): Sums the lanes in a fixed tree into lane 0. -/
  | vreds (g : Guard) (d a : Reg) (t : Elem) (r : Rnd)
  /-- VREDM (R253): Takes the maximum of the lanes in a fixed tree into lane 0. -/
  | vredm (g : Guard) (d a : Reg) (t : Elem)
  /-- VEXP2 (R254): Lane-wise power of two. -/
  | vexp2 (g : Guard) (d a : Reg) (t : Elem) (r : Rnd)
  /-- VLOG2 (R254): Lane-wise base-2 logarithm. -/
  | vlog2 (g : Guard) (d a : Reg) (t : Elem) (r : Rnd)
  /-- VRCP (R254): Lane-wise reciprocal. -/
  | vrcp (g : Guard) (d a : Reg) (t : Elem) (r : Rnd)
  /-- VRSQ (R254): Lane-wise reciprocal square root. -/
  | vrsq (g : Guard) (d a : Reg) (t : Elem) (r : Rnd)
  /-- VDOT (R252): Accumulates lane products into wider lanes. -/
  | vdot (g : Guard) (d a b : Reg) (t : Elem) (r : Rnd)
  /-- VBC (R255): Broadcasts a general register into active lanes. -/
  | vbc (g : Guard) (d a : Reg) (t : Elem)
  /-- VEXT (R255): Extracts a lane into a general register. -/
  | vext (g : Guard) (d a b : Reg) (t : Elem)
  /-- VINS (R255): Inserts a general register into a lane. -/
  | vins (g : Guard) (d a b : Reg) (t : Elem)
  /-- VPERM (R255): Permutes lanes by an index vector. -/
  | vperm (g : Guard) (d a b : Reg) (t : Elem)
  /-- VLD (R257): Loads the active bytes of a 64-aligned line. -/
  | vld (g : Guard) (d a : Reg) (t : Elem)
  /-- VST (R257): Stores the active bytes of a vector as one access. -/
  | vst (g : Guard) (d a : Reg) (t : Elem)
  /-- VLDX (R258): Loads strided lanes. -/
  | vldx (g : Guard) (d a b : Reg) (t : Elem)
  /-- VSTX (R258): Stores strided lanes in ascending order. -/
  | vstx (g : Guard) (d a b : Reg) (t : Elem)
  /-- VLEN (R256): Sets the active vector length. -/
  | vlen (g : Guard) (d a : Reg) (t : Elem)
  /-- VMOV (R256): Copies the active lanes. -/
  | vmov (g : Guard) (d a : Reg) (t : Elem)
  /-- VIOTA (R256): Sets each active lane to its index. -/
  | viota (g : Guard) (d : Reg) (t : Elem)
  /-- KSET (R273): Sets a loop register. -/
  | kset (g : Guard) (k : KReg) (a : Reg)
  /-- TRUN (R282): Waits for the array, decodes a tile list, samples state and runs its commands. -/
  | trun (g : Guard) (a : Reg)
  /-- TSTAT (R285): Reads the slot's TSTATUS. -/
  | tstat (g : Guard) (d : Reg)
  /-- HNEW (R271): Creates a shape handle at the partition's handle table. -/
  | hnew (g : Guard) (d a b : Reg)
  /-- HDEL (R272): Deletes a shape handle and advances its generation. -/
  | hdel (g : Guard) (a : Reg)
  /-- MLDB (R276): Loads and aligns a weight tile into a macro. -/
  | mldb (h : BitVec 32) (mac : Bool) (n k : Ext) (fmt : Elem) (tag : Bool) (scb : BitVec 48) (rdi : InstField)
  /-- MLDA (R277): Loads and aligns activation rows into the row buffer. -/
  | mlda (h : BitVec 32) (m k : Ext) (fmt : Elem) (tag : Bool) (sca : BitVec 48) (rdi : InstField)
  /-- MMA (R278): Runs a matrix burst, promoting slice partials into the accumulators. -/
  | mma (m n : Ext) (macs : BitVec 2)
  /-- MZERO (R278): Zeroes accumulators. -/
  | mzero (m n : Ext)
  /-- MST (R279): Drains accumulators to a tensor with scaling and conversion. -/
  | mst (h : BitVec 32) (m n : Ext) (fmt : Elem) (clr : Bool) (sc : BitVec 48) (vsi : InstField)
  /-- MSCL (R280): Scales accumulators by row and column scales. -/
  | mscl (m n : Ext) (sr sc : BitVec 48)
  /-- MFMT (R283): Changes the A width, SAT and rounding for later commands of the list. -/
  | mfmt (rnd : Option Rnd) (wide : Bool) (sat : Option Bool)
  /-- MREP (R281): Repeats the preceding body of commands. -/
  | mrep (c : Ext) (len : BitVec 32)
  /-- MEND (R282): Ends the tile list and sets TSTATUS DONE. -/
  | mend
  /-- GARNET_TOKEN_HOP (R288): Every 8 cycles a power token moves to the next cluster, refilling at cluster 0. -/
  | garnetTokenHop (die tok : Nat)
  /-- CPY (R294): Checks a copy block and queues it on the cluster's copy engine. -/
  | cpy (g : Guard) (p : Pred) (a : Reg)
  /-- CPYR (R294): Checks a remote copy block and queues it. -/
  | cpyr (g : Guard) (p : Pred) (a : Reg)
  /-- FILL (R294): Checks a fill block and queues it. -/
  | fill (g : Guard) (p : Pred) (a : Reg)
  /-- COLL_REDUCE (R306): Joins a reduce over a communicator. -/
  | collReduce (g : Guard) (p : Pred) (a : Reg) (t : Elem) (r : Red)
  /-- COLL_ALLREDUCE (R306): Joins an all-reduce over a communicator. -/
  | collAllreduce (g : Guard) (p : Pred) (a : Reg) (t : Elem) (r : Red)
  /-- COLL_RSCATTER (R306): Joins a reduce-scatter over a communicator. -/
  | collRscatter (g : Guard) (p : Pred) (a : Reg) (t : Elem) (r : Red)
  /-- COLL_ALLGATHER (R306): Joins an all-gather over a communicator. -/
  | collAllgather (g : Guard) (p : Pred) (a : Reg) (t : Elem)
  /-- CPY_EXECUTE (R298): The copy engine performs a queued CPY element by element and sends its completion. -/
  | cpyExecute (cluster : Nat)
  /-- CPYR_EXECUTE (R299): The copy engine performs a queued CPYR to a virtual address, possibly on another device. -/
  | cpyrExecute (cluster : Nat)
  /-- FILL_EXECUTE (R300): The copy engine writes the fill value across the destination tile. -/
  | fillExecute (cluster : Nat)
  /-- COLL_EXECUTE (R307): The collective engines, with all contributions present, reduce in fixed order and write results. -/
  | collExecute (die : Nat)
  /-- MASK (R319): Queues a grammar walk, or performs it at once under an open choice point. -/
  | mask (g : Guard) (p : Pred) (a : Reg)
  /-- PADV (R323): Advances a grammar configuration by a token. -/
  | padv (g : Guard) (d a b : Reg)
  /-- SAMPLE (R327): Draws a legal token by fixed-point weights under a key and counter. -/
  | sample (g : Guard) (d a : Reg) (p : Pred)
  /-- ARGMX (R329): Returns the lowest legal token with the largest logit. -/
  | argmx (g : Guard) (d a : Reg) (p : Pred)
  /-- MASK_WALK (R320): The Sphinx engine walks the trie against the automaton, writes the mask and sends its completion. -/
  | maskWalk (cluster : Nat)
  /-- TRY (R339): Opens a choice point and runs alternative 0. -/
  | tryPoint (g : Guard) (d a b : Reg)
  /-- FAIL (R340): Undoes the trail to the newest point with an untried alternative and runs it, or ends the thread. -/
  | fail (g : Guard)
  /-- CUT (R342): Prunes choice points to a mark, killing thieves and sending stores when emptied. -/
  | cut (g : Guard) (a : Reg)
  /-- CPD (R342): Reads the choice-stack depth. -/
  | cpd (g : Guard) (d : Reg)
  /-- STEAL (R344): Takes an untried alternative from another slot of the core and binds the thief. -/
  | steal (g : Guard) (p : Pred) (a : Reg)
  /-- COMMIT (R343): Sends the thread's provisional stores while the points stay open. -/
  | commit (g : Guard)
  /-- KILL_MESSAGE (R345): A kill record ends a thread at its next boundary, dropping its provisional entries. -/
  | killMessage (k : Nat)
  /-- THIEF_RELEASE (R345): A release record unbinds a thief, whose entries are then sent at its next boundary. -/
  | thiefRelease (k : Nat)
  /-- ECNT (R354): Posts a token count update for an expert to Monarch. -/
  | ecnt (g : Guard) (a b : Reg)
  /-- RLOOK (R355): Resolves an expert and hash to a replica address as of REL. -/
  | rlook (g : Guard) (d a b : Reg)
  /-- RPUB (R356): Publishes a replica table entry at VIS. -/
  | rpub (g : Guard) (a b : Reg)
  /-- RRET (R357): Retires a replica slot at VIS. -/
  | rret (g : Guard) (a b : Reg)
  /-- RCOPY (R358): Checks and accepts a replica copy to a die's area. -/
  | rcopy (g : Guard) (p : Pred) (a : Reg)
  /-- RMERGE (R361): Queues a gradient merge over an expert's replicas. -/
  | rmerge (g : Guard) (p : Pred) (a : Reg)
  /-- RSTAT (R362): Takes the oldest Monarch record into memory. -/
  | rstat (g : Guard) (d a : Reg)
  /-- ECNT_UPDATE (R351): A posted count update reaches Monarch and adds to the expert's counter. -/
  | ecntUpdate (k : Nat)
  /-- RCOPY_EXECUTE (R359): A copy engine copies the primary's weights and then publishes the entry, or fails and cancels. -/
  | rcopyExecute (k : Nat)
  /-- RMERGE_EXECUTE (R361): Monarch adds replica gradient buffers in die order into the primary's buffer. -/
  | rmergeExecute (k : Nat)
  /-- TRAP (R373): Raises TRAP with a service number. -/
  | trap (g : Guard) (n : BitVec 13)
  /-- BRK (R373): Raises BRK with a tag. -/
  | brk (g : Guard) (n : BitVec 13)
  /-- MFSR (R375): Reads a system register. -/
  | mfsr (g : Guard) (d : Reg) (n : BitVec 13)
  /-- MTSR (R375): Writes a system register after number, privilege and value checks. -/
  | mtsr (g : Guard) (a : Reg) (n : BitVec 13)
  /-- ERET (R374): Returns from a trap handler to EPC or EPC + 4. -/
  | eret (g : Guard)
  /-- SEGLD (R378): Loads a segment register from the partition's segment table. -/
  | segld (g : Guard) (s : SReg) (a : Reg)
  /-- PGINV (R379): Drains, invalidates a 2 MiB region's translations everywhere and wakes its waiters. -/
  | pginv (g : Guard) (a : Reg)
  /-- IDLE (R380): Waits for a message, completion, kill or stop. -/
  | idle (g : Guard)
  /-- CIRC (R381): Queues a TUNE, PARK or WAKE command at a port controller. -/
  | circ (g : Guard) (p : Pred) (a : Reg)
  /-- SLOTSV (R386): Saves another slot's thread to its context save area and frees the slot. -/
  | slotsv (g : Guard) (d a : Reg)
  /-- SLOTLD (R386): Restores a saved thread into a free slot. -/
  | slotld (g : Guard) (d a : Reg)
  /-- STOPAT (R388): Requests a job-wide stop at a reference count from job device 0. -/
  | stopat (g : Guard) (p : Pred) (a : Reg)
  /-- FREQAT (R391): Schedules a frequency change at a reference count. -/
  | freqat (g : Guard) (p : Pred) (a b : Reg)
  /-- STOPAT_REQUEST (R388): Job device 0 takes a stop request, accepts it to every device or answers refused. -/
  | stopatRequest (k : Nat)
  /-- QUARTZ_STEP (R149): In metered mode the counter steps every PER + 1 reference ticks and the ports apply, expire and evict versions. -/
  | quartzStep (part : Fin 8)
  /-- ELASTIC_STEP (R150): In elastic mode the counter steps once all tasks and writes of the instant have settled. -/
  | elasticStep (part : Fin 8)
  /-- STORE_ARRIVAL (R152): An Instant-domain store reaches its home port and joins or takes a pending entry, or has missed. -/
  | storeArrival (k : Nat)
  /-- PARTITION_STOP (R389): At REFCNT equal to the stop count the job's partition pauses, flushes and saves every slot. -/
  | partitionStop (part : Fin 8)
  /-- PARTITION_RESUME (R389): At REFCNT equal to the resume count saved slots and packets are restored and Quartz resumes. -/
  | partitionResume (part : Fin 8)
  /-- FREQUENCY_SWITCH (R391): At the scheduled reference count every region changes to the pending frequency. -/
  | frequencySwitch
  /-- POWER_POOL_REFILL (R392): Each reference tick the power arbiter refills each die's Garnet pool from the budget. -/
  | powerPoolRefill
  /-- FLIT_TRANSMIT (R412): A port assigns the next flit of a peer to the next lane of its stripe set and sends it. -/
  | flitTransmit (port : Fin 64) (peer : Nat)
  /-- PORT_TUNE (R381): A port controller retunes a lane onto a peer's channel. -/
  | portTune (port : Fin 64)
  /-- PORT_PARK (R381): A port controller darkens a lane after its assigned flits. -/
  | portPark (port : Fin 64)
  /-- PORT_WAKE (R381): A port controller relights a dark lane. -/
  | portWake (port : Fin 64)
  /-- LANE_TUNE_DONE (R411): A retune completes and the lane joins the peer's stripe set. -/
  | laneTuneDone (port : Fin 64) (lane : Fin 8)
  /-- LANE_WAKE_DONE (R413): A waking lane is lit and joins its stripe set. -/
  | laneWakeDone (port : Fin 64) (lane : Fin 8)
  /-- LANE_AUTO_PARK (R413): With PRKH 0 a lane idle beyond IDLEP is parked. -/
  | laneAutoPark (port : Fin 64)
  /-- LANE_AUTO_WAKE (R413): With PRKH 0 a PDEPTH above WAKEQ wakes every dark lane as one action. -/
  | laneAutoWake (port : Fin 64)
  /-- HEATER_SERVICE (R416): Every HSPER ticks rings are serviced or latched, with spare switching on code limits. -/
  | heaterService (port : Fin 64)
  /-- KEY_LOAD_DONE (R419): A key load ends loaded or failed and signals vector 6. -/
  | keyLoadDone
  /-- ATTEST_REPORT_READY (R407): The attestation report is complete and vector 0 signals. -/
  | attestReportReady
  /-- FLUSH_TOKEN (R389): A stop's flush token arrives at a receiving router, which places the partition's migration and message packets ahead of it in its save buffer; when every router holds its tokens, STATE becomes 10 and the stop record is written. -/
  | flushToken (k : Nat)
  /-- DIE_UNREACHABLE (R232): Cluster control cores declare a die unreachable when its links stay down after recovery. -/
  | dieUnreachable (die : Fin 8)
  /-- CLOCK_STRETCH (R390): A supply droop suspends a region's clock for one period. -/
  | clockStretch (region : Nat)
  /-- COLD_RESET (R406): Boot checks the record and firmware, applies enabled dies and trains the links. -/
  | coldReset (recordOk firmwareOk trained : Bool)
  /-- REFERENCE_LOCK_LOSS (R408): Losing reference lock for 16 ticks stops traffic on every port. -/
  | referenceLockLoss
  /-- LINK_FAILURE (R299): A lane or die-to-die channel fails, triggering firmware retry or a fabric fault record. -/
  | linkFailure (port : Option (Fin 64)) (lane dieA : Fin 8) (chan : BitVec 8)
  /-- FLIT_RECEIVE (R412): A flit arrives, is authenticated and delivered in sequence or replayed on tag failure. -/
  | flitReceive (port : Fin 64) (lane : Fin 8) (peer : Nat) (part : Fin 8) (seq : Nat) (tagOk : Bool) (k : Nat)
  /-- HOST_MEM_READ (R398): A CXL.mem read through an HDM decoder returns data or all ones. -/
  | hostMemRead (part : Fin 8) (off : BitVec 64)
  /-- HOST_MEM_WRITE (R158): A CXL.mem write is performed as a Now write or an Instant store that loses ties, or refused. -/
  | hostMemWrite (part : Fin 8) (off be : BitVec 64) (data : Vec)
  /-- HOST_ATOMIC (R214): A PCIe AtomicOp is performed at the home bank or refused into HAFLOG. -/
  | hostAtomic (off : BitVec 64) (op : HostAOp) (z : DSize) (y cmp : Word)
  /-- KICK (R402): A host kick write accepts a tail index and copies queued launch entries. -/
  | kick (part : Fin 8) (tail : BitVec 32)
  /-- CQR_WRITE (R403): The host records consumed completions, letting waiting records be written. -/
  | cqrWrite (part : Fin 8) (v : BitVec 32)
  /-- PGINVH (R394): A host write performs PGINV's effect for a partition and address. -/
  | pginvh (v : Word)
  /-- FAULT_RECORD_REMOVE (R395): A write of 1 removes the oldest fault record of a port. -/
  | faultRecordRemove (cluster : Nat) (v : Word)
  /-- MONARCH_RECORD_REMOVE (R395): A write of 1 removes the oldest Monarch record and clears OVF. -/
  | monarchRecordRemove (part : Fin 8) (v : Word)
  /-- FABRIC_FAULT_RETRY (R418): The host's RETRY resends the held transfer on a serving lane or channel. -/
  | fabricFaultRetry
  /-- FABRIC_FAULT_ABANDON (R418): The host's ABANDON ends the held transfer with FABRIC-UNREACHABLE or COPY-FAIL. -/
  | fabricFaultAbandon
  /-- KEY_LOAD (R419): A KGO write starts unwrapping a job key by ECDH, HKDF and RFC 3394. -/
  | keyLoad (v : Word)
  /-- ATTEST_REQUEST (R407): A host write of 1 starts a signed attestation report over the nonce. -/
  | attestRequest (v : Word)
  /-- CONNECTION_COMMIT (R424): Commits the staged connection table or refuses it. -/
  | connectionCommit (v : Word)
  /-- RESUME_REQUEST (R388): A host write of STOPCNT resume state is accepted and copied to every device, or ignored. -/
  | resumeRequest (part : Fin 8) (v : Word)
  /-- FPCNT_ADD (R144): A write of ADD adds frames to the pool count, saturating. -/
  | fpcntAdd (part : Fin 8) (v : Word)
  /-- PARTITION_CREATE (R382): Setting PDEFn.V creates a partition with reset state. -/
  | partitionCreate (n : Fin 8) (v : Word)
  /-- PARTITION_DISSOLVE (R382): Clearing PDEFn.V ends every thread and discards the partition's state and keys. -/
  | partitionDissolve (n : Fin 8) (v : Word)
  /-- REGISTER_WRITE (R394): A W4 write to a register with no row of its own stores or is refused into CFGLOG. -/
  | registerWrite (off : BitVec 32) (v : Word) (be : BitVec 8)
  /-- REPLAY_REQUEST (R420): A receiver's request for a replay reaches the sending lane, which resends the flit from its 64-flit replay buffer. -/
  | replayRequest (port : Fin 64) (lane : Fin 8) (flit : Nat)
  deriving DecidableEq, Repr

end Sys2Proof
end

