-- ==== Sys2Proof/WellFormed.lean ====
section
/-! DEFINITION. Which terms of `Instr` are instructions (R56, R57, and the class chapters' limits on types,
suffixes and forms): the guard 0001 is none (R55), and each check below is one the spec gives. -/

namespace Sys2Proof

/-- The formats f32 and bf16 (R240, class F). -/
def Elem.isF : Elem → Bool
  | .f32 | .bf16 => true
  | .e4m3 | .e5m2 | .i4 | .i8 | .i16 | .i32 | .i64 => false

/-- The formats i8, i16, i32 and i64 (R240, class I). -/
def Elem.isI : Elem → Bool
  | .i8 | .i16 | .i32 | .i64 => true
  | .f32 | .bf16 | .e4m3 | .e5m2 | .i4 => false

/-- The formats a reducing COLL takes (R292). -/
def Elem.collReduces : Elem → Bool
  | .f32 | .bf16 | .i32 | .i64 => true
  | .e4m3 | .e5m2 | .i4 | .i8 | .i16 => false

/-- The formats MLDB takes (R274). -/
def Elem.tileB : Elem → Bool
  | .bf16 | .i4 | .e4m3 | .e5m2 | .i8 => true
  | .f32 | .i16 | .i32 | .i64 => false

/-- The formats MLDA takes (R274). -/
def Elem.tileA : Elem → Bool
  | .bf16 | .e4m3 | .e5m2 | .i8 => true
  | .f32 | .i4 | .i16 | .i32 | .i64 => false

/-- The formats that may carry .tag (R274). -/
def Elem.tagged : Elem → Bool
  | .e4m3 | .e5m2 | .i8 => true
  | .f32 | .bf16 | .i4 | .i16 | .i32 | .i64 => false

/-- The formats MST takes (R274). -/
def Elem.tileOut : Elem → Bool
  | .f32 | .bf16 | .e4m3 | .e5m2 | .i8 | .i32 => true
  | .i4 | .i16 | .i64 => false

/-- A handle field of a tile command (R269): slot 0xFFF only as a k-reference, bits [19:3] all ones. -/
def handleField (h : BitVec 32) : Bool :=
  h.toNat / 1048576 != 4095 || h.toNat / 8 % 131072 == 131071

/-- The terms that are instructions: what R55, R57 and the class chapters allow. -/
def Instr.wf : Instr → Bool
  | .add g _ _ _ => g != 1
  | .sub g _ _ _ => g != 1
  | .and g _ _ _ => g != 1
  | .or g _ _ _ => g != 1
  | .xor g _ _ _ => g != 1
  | .andn g _ _ _ => g != 1
  | .min g _ _ _ => g != 1
  | .max g _ _ _ => g != 1
  | .minu g _ _ _ => g != 1
  | .maxu g _ _ _ => g != 1
  | .adds g _ _ _ => g != 1
  | .subs g _ _ _ => g != 1
  | .lea g _ _ _ _ => g != 1
  | .mul g _ _ _ => g != 1
  | .mulhi g _ _ _ => g != 1
  | .mulhu g _ _ _ => g != 1
  | .div g _ _ _ => g != 1
  | .divu g _ _ _ => g != 1
  | .rem g _ _ _ => g != 1
  | .remu g _ _ _ => g != 1
  | .dividerDone _ => true
  | .shl g _ _ _ => g != 1
  | .shr g _ _ _ => g != 1
  | .sra g _ _ _ => g != 1
  | .rol g _ _ _ => g != 1
  | .clz g _ _ => g != 1
  | .ctz g _ _ => g != 1
  | .popc g _ _ => g != 1
  | .sext g _ _ s => g != 1 && s != .d
  | .zext g _ _ s => g != 1 && s != .d
  | .cmp g _ _ _ _ => g != 1
  | .sel g _ _ _ _ => g != 1
  | .pand g _ _ _ => g != 1
  | .por g _ _ _ => g != 1
  | .pxor g _ _ _ => g != 1
  | .pmov g _ _ => g != 1
  | .addi g _ _ _ => g != 1
  | .andi g _ _ _ => g != 1
  | .ori g _ _ _ => g != 1
  | .xori g _ _ _ => g != 1
  | .shli g _ _ _ => g != 1
  | .shri g _ _ _ => g != 1
  | .srai g _ _ _ => g != 1
  | .movi g _ _ => g != 1
  | .movhi g _ _ _ => g != 1
  | .addpc g _ _ => g != 1
  | .cmpi g _ _ _ _ => g != 1
  | .br g _ => g != 1
  | .call g _ => g != 1
  | .jr g _ => g != 1
  | .callr g _ => g != 1
  | .ret g => g != 1
  | .jtab g _ _ _ => g != 1
  | .jmp g _ _ => g != 1
  | .loop g _ e => g != 1 && e != 0
  | .loopi g _ e => g != 1 && e != 0
  | .nop g => g != 1
  | .lexit g => g != 1
  | .ld g _ _ s x _ => g != 1 && (!x || s != .d)
  | .st g _ _ _ _ => g != 1
  | .lda g _ _ s x _ => g != 1 && (!x || s != .d)
  | .stv g _ _ _ _ => g != 1
  | .ldn g _ _ s x _ => g != 1 && (!x || s != .d)
  | .stn g _ _ _ _ => g != 1
  | .scancel g _ _ _ => g != 1
  | .lkup g _ _ => g != 1
  | .tagin g _ _ => g != 1
  | .tagout g _ _ => g != 1
  | .ldaq g _ _ _ z x _ => g != 1 && (!x || z != .d)
  | .strl g _ _ _ _ _ => g != 1
  | .fenceFull g _ => g != 1
  | .fenceAcq g _ => g != 1
  | .fenceRel g _ => g != 1
  | .stsync g _ => g != 1
  | .drainToken _ => true
  | .invalidation _ => true
  | .rsv g _ _ _ _ => g != 1
  | .rls g _ _ _ _ => g != 1
  | .rlsn g _ _ _ => g != 1
  | .rsvResend _ => true
  | .abandonPacket _ => true
  | .lamo g _ _ _ _ _ => g != 1
  | .mon g _ => g != 1
  | .mwait g _ _ => g != 1
  | .moff g _ => g != 1
  | .monitorNotice _ => true
  | .mwaitTimeout _ => true
  | .bari g _ _ => g != 1
  | .bara g _ _ => g != 1
  | .bard g _ _ => g != 1
  | .barw g _ _ => g != 1
  | .barrierRegistration _ => true
  | .barrierArrival _ => true
  | .barrierCompletion _ => true
  | .exit g => g != 1
  | .yield g => g != 1
  | .anchor g => g != 1
  | .roam g => g != 1
  | .migr g _ => g != 1
  | .who g _ => g != 1
  | .sleep g _ => g != 1
  | .spawn g _ _ _ => g != 1
  | .tnext g => g != 1
  | .twait g _ _ _ => g != 1
  | .sleepExpiry _ => true
  | .yieldExpiry _ => true
  | .send g _ _ _ _ => g != 1
  | .inbox g _ _ => g != 1
  | .ipeek g _ => g != 1
  | .launch g _ _ _ => g != 1
  | .messageDelivery _ => true
  | .messageRetry _ => true
  | .handlerStart _ _ => true
  | .migrationArrival _ => true
  | .remoteRequest _ => true
  | .replyArrival _ => true
  | .wakeMessage _ => true
  | .pageFaultReissue _ => true
  | .pageFaultResolve _ _ => true
  | .launchTake _ => true
  | .crewStart _ _ _ => true
  | .idleSpill _ => true
  | .vadd g _ _ _ t r => g != 1 && (t.isF || t.isI && r == .dyn)
  | .vsub g _ _ _ t r => g != 1 && (t.isF || t.isI && r == .dyn)
  | .vmul g _ _ _ t r => g != 1 && (t.isF || t.isI && r == .dyn)
  | .vfma g _ _ _ t r => g != 1 && (t.isF || t.isI && r == .dyn)
  | .vmin g _ _ _ t _ => g != 1 && (t.isF || t.isI)
  | .vmax g _ _ _ t _ => g != 1 && (t.isF || t.isI)
  | .vabs g _ _ t => g != 1 && (t.isF || t.isI)
  | .vneg g _ _ t => g != 1 && (t.isF || t.isI)
  | .vand g _ _ _ _ => g != 1
  | .vor g _ _ _ _ => g != 1
  | .vxor g _ _ _ _ => g != 1
  | .vshl g _ _ _ t => g != 1 && t.isI
  | .vshr g _ _ _ t => g != 1 && t.isI
  | .vsra g _ _ _ t => g != 1 && t.isI
  | .vcmp g _ _ _ t _ => g != 1 && (t.isF || t.isI)
  | .vsel g _ _ _ _ => g != 1
  | .vcvt g _ _ _ _ _ => g != 1
  | .vscl g _ _ _ t _ => g != 1 && t.isF
  | .vreds g _ _ t r => g != 1 && (t.isF || t == .i32 && r == .dyn)
  | .vredm g _ _ t => g != 1 && (t.isF || t == .i32)
  | .vexp2 g _ _ t _ => g != 1 && t.isF
  | .vlog2 g _ _ t _ => g != 1 && t.isF
  | .vrcp g _ _ t _ => g != 1 && t.isF
  | .vrsq g _ _ t _ => g != 1 && t.isF
  | .vdot g _ _ _ t r => g != 1 && (t == .bf16 || (t == .i8 || t == .i16) && r == .dyn)
  | .vbc g _ _ _ => g != 1
  | .vext g _ _ _ _ => g != 1
  | .vins g _ _ _ _ => g != 1
  | .vperm g _ _ _ _ => g != 1
  | .vld g _ _ _ => g != 1
  | .vst g _ _ _ => g != 1
  | .vldx g _ _ _ t => g != 1 && t != .i4
  | .vstx g _ _ _ t => g != 1 && t != .i4
  | .vlen g _ _ _ => g != 1
  | .vmov g _ _ _ => g != 1
  | .viota g _ t => g != 1 && t.isI
  | .kset g _ _ => g != 1
  | .trun g _ => g != 1
  | .tstat g _ => g != 1
  | .hnew g _ _ _ => g != 1
  | .hdel g _ => g != 1
  | .mldb h _ _ _ fmt tag _ _ => handleField h && fmt.tileB && (!tag || fmt.tagged)
  | .mlda h _ _ fmt tag _ _ => handleField h && fmt.tileA && (!tag || fmt.tagged)
  | .mma _ _ macs => macs != 0
  | .mzero _ _ => true
  | .mst h _ _ fmt _ _ _ => handleField h && fmt.tileOut
  | .mscl _ _ _ _ => true
  | .mfmt rnd _ _ => rnd != some .dyn
  | .mrep _ len => (1 ≤ len.toNat && len.toNat ≤ 4095)
  | .mend => true
  | .garnetTokenHop _ _ => true
  | .cpy g _ _ => g != 1
  | .cpyr g _ _ => g != 1
  | .fill g _ _ => g != 1
  | .collReduce g _ _ t _ => g != 1 && t.collReduces
  | .collAllreduce g _ _ t _ => g != 1 && t.collReduces
  | .collRscatter g _ _ t _ => g != 1 && t.collReduces
  | .collAllgather g _ _ _ => g != 1
  | .cpyExecute _ => true
  | .cpyrExecute _ => true
  | .fillExecute _ => true
  | .collExecute _ => true
  | .mask g _ _ => g != 1
  | .padv g _ _ _ => g != 1
  | .sample g _ _ _ => g != 1
  | .argmx g _ _ _ => g != 1
  | .maskWalk _ => true
  | .tryPoint g _ _ _ => g != 1
  | .fail g => g != 1
  | .cut g _ => g != 1
  | .cpd g _ => g != 1
  | .steal g _ _ => g != 1
  | .commit g => g != 1
  | .killMessage _ => true
  | .thiefRelease _ => true
  | .ecnt g _ _ => g != 1
  | .rlook g _ _ _ => g != 1
  | .rpub g _ _ => g != 1
  | .rret g _ _ => g != 1
  | .rcopy g _ _ => g != 1
  | .rmerge g _ _ => g != 1
  | .rstat g _ _ => g != 1
  | .ecntUpdate _ => true
  | .rcopyExecute _ => true
  | .rmergeExecute _ => true
  | .trap g _ => g != 1
  | .brk g _ => g != 1
  | .mfsr g _ _ => g != 1
  | .mtsr g _ _ => g != 1
  | .eret g => g != 1
  | .segld g _ _ => g != 1
  | .pginv g _ => g != 1
  | .idle g => g != 1
  | .circ g _ _ => g != 1
  | .slotsv g _ _ => g != 1
  | .slotld g _ _ => g != 1
  | .stopat g _ _ => g != 1
  | .freqat g _ _ _ => g != 1
  | .stopatRequest _ => true
  | .quartzStep _ => true
  | .elasticStep _ => true
  | .dieUnreachable _ => true
  | .storeArrival _ => true
  | .partitionStop _ => true
  | .partitionResume _ => true
  | .frequencySwitch => true
  | .powerPoolRefill => true
  | .clockStretch _ => true
  | .coldReset _ _ _ => true
  | .referenceLockLoss => true
  | .linkFailure _ _ _ _ => true
  | .flitTransmit _ _ => true
  | .flitReceive _ _ _ _ _ _ _ => true
  | .portTune _ => true
  | .portPark _ => true
  | .portWake _ => true
  | .laneTuneDone _ _ => true
  | .laneWakeDone _ _ => true
  | .laneAutoPark _ => true
  | .laneAutoWake _ => true
  | .heaterService _ => true
  | .hostMemRead _ _ => true
  | .hostMemWrite _ _ _ _ => true
  | .hostAtomic _ _ _ _ _ => true
  | .kick _ _ => true
  | .cqrWrite _ _ => true
  | .pginvh _ => true
  | .faultRecordRemove _ _ => true
  | .monarchRecordRemove _ _ => true
  | .fabricFaultRetry => true
  | .fabricFaultAbandon => true
  | .keyLoad _ => true
  | .keyLoadDone => true
  | .attestRequest _ => true
  | .attestReportReady => true
  | .connectionCommit _ => true
  | .resumeRequest _ _ => true
  | .fpcntAdd _ _ => true
  | .partitionCreate _ _ => true
  | .partitionDissolve _ _ => true
  | .registerWrite _ _ _ => true
  | .flushToken _ => true
  | .replayRequest _ _ _ => true

end Sys2Proof
end

