-- ==== Sys2Proof/Decode.lean ====
section
/-! DEFINITION. Decode and, after it, the encoder (03_formats R54 to R72). A word is read field by field at the
places of its format; `decode` then asks that the term is well formed and that its own word is the word read,
so a word with a reserved field that is not 0 (R57) is no instruction. -/

namespace Sys2Proof

/-- Size codes of the plain spec (R60) and of SEXT and ZEXT (R65). -/
def Size.code : Size → Nat
  | .b => 0
  | .h => 1
  | .w => 2
  | .d => 3

/-- The inverse of `Size.code`; every other code is unassigned. -/
def Size.ofCode : Nat → Option Size
  | 0 => some .b
  | 1 => some .h
  | 2 => some .w
  | 3 => some .d
  | _ => none

/-- The size bit of the ordered spec (R60), of LAMO (R64) and, above a fixed 1, of the plain spec. -/
def DSize.code : DSize → Nat
  | .w => 0
  | .d => 1

/-- The inverse of `DSize.code`; every other code is unassigned. -/
def DSize.ofCode : Nat → Option DSize
  | 0 => some .w
  | 1 => some .d
  | _ => none

/-- Scope codes (R168). -/
def Scope.code : Scope → Nat
  | .core => 0
  | .clu => 1
  | .die => 2
  | .dev => 3

/-- The inverse of `Scope.code`; every other code is unassigned. -/
def Scope.ofCode : Nat → Option Scope
  | 0 => some .core
  | 1 => some .clu
  | 2 => some .die
  | 3 => some .dev
  | _ => none

/-- Type codes (R62). -/
def Elem.code : Elem → Nat
  | .f32 => 0
  | .bf16 => 1
  | .e4m3 => 2
  | .e5m2 => 3
  | .i4 => 4
  | .i8 => 5
  | .i16 => 6
  | .i32 => 7
  | .i64 => 8

/-- The inverse of `Elem.code`; every other code is unassigned. -/
def Elem.ofCode : Nat → Option Elem
  | 0 => some .f32
  | 1 => some .bf16
  | 2 => some .e4m3
  | 3 => some .e5m2
  | 4 => some .i4
  | 5 => some .i8
  | 6 => some .i16
  | 7 => some .i32
  | 8 => some .i64
  | _ => none

/-- Rounding codes (R62). -/
def Rnd.code : Rnd → Nat
  | .rne => 0
  | .rtz => 1
  | .rdn => 2
  | .rup => 3
  | .srk => 4
  | .dyn => 7

/-- The inverse of `Rnd.code`; every other code is unassigned. -/
def Rnd.ofCode : Nat → Option Rnd
  | 0 => some .rne
  | 1 => some .rtz
  | 2 => some .rdn
  | 3 => some .rup
  | 4 => some .srk
  | 7 => some .dyn
  | _ => none

/-- Condition codes (R66). -/
def Cond.code : Cond → Nat
  | .eq => 0
  | .ne => 1
  | .lt => 2
  | .le => 3
  | .gt => 4
  | .ge => 5
  | .ltu => 6
  | .leu => 7
  | .gtu => 8
  | .geu => 9

/-- The inverse of `Cond.code`; every other code is unassigned. -/
def Cond.ofCode : Nat → Option Cond
  | 0 => some .eq
  | 1 => some .ne
  | 2 => some .lt
  | 3 => some .le
  | 4 => some .gt
  | 5 => some .ge
  | 6 => some .ltu
  | 7 => some .leu
  | 8 => some .gtu
  | 9 => some .geu
  | _ => none

/-- Conditions of VCMP (R62). -/
def VCond.code : VCond → Nat
  | .eq => 0
  | .ne => 1
  | .lt => 2
  | .le => 3
  | .gt => 4
  | .ge => 5

/-- The inverse of `VCond.code`; every other code is unassigned. -/
def VCond.ofCode : Nat → Option VCond
  | 0 => some .eq
  | 1 => some .ne
  | 2 => some .lt
  | 3 => some .le
  | 4 => some .gt
  | 5 => some .ge
  | _ => none

/-- LAMO operations (R64). -/
def AOp.code : AOp → Nat
  | .add => 0
  | .and => 1
  | .or => 2
  | .xor => 3
  | .min => 4
  | .max => 5
  | .swap => 6
  | .cas => 7

/-- The inverse of `AOp.code`; every other code is unassigned. -/
def AOp.ofCode : Nat → Option AOp
  | 0 => some .add
  | 1 => some .and
  | 2 => some .or
  | 3 => some .xor
  | 4 => some .min
  | 5 => some .max
  | 6 => some .swap
  | 7 => some .cas
  | _ => none

/-- Reductions of COLL (R64). -/
def Red.code : Red → Nat
  | .sum => 0
  | .max => 1
  | .min => 2

/-- The inverse of `Red.code`; every other code is unassigned. -/
def Red.ofCode : Nat → Option Red
  | 0 => some .sum
  | 1 => some .max
  | 2 => some .min
  | _ => none

/-- The instant source [8:0] of the MM-I layout (R61). -/
def InstSrc.code : InstSrc → Nat
  | .rel n => n.toNat
  | .now n => 128 + n.toNat
  | .reg gm => 256 + gm.val * 8

/-- The instant source read back; form 11 and a register form with [2:0] other than 0 are none (R61). -/
def InstSrc.ofCode (c : Nat) : Option InstSrc :=
  if c / 128 = 0 then some (.rel (.ofNat 7 c))
  else if c / 128 = 1 then some (.now (.ofNat 7 c))
  else if c / 128 = 2 ∧ c % 8 = 0 then some (.reg (.ofNat 16 (c / 8)))
  else none

/-- Major 0x01 (R64): ADD/SUB/AND/OR/XOR/ANDN/MIN/MAX/MINU/MAXU/ADDS/SUBS/LEA. -/
def decodeMajor01 (w : Nat) : Option Instr :=
  if w % 512 = 0 then some (.add (.ofNat 16 (w / 268435456)) (.ofNat 16 (w / 131072)) (.ofNat 16 (w / 8192)) (.ofNat 16 (w / 512)))
  else if w % 512 = 1 then some (.sub (.ofNat 16 (w / 268435456)) (.ofNat 16 (w / 131072)) (.ofNat 16 (w / 8192)) (.ofNat 16 (w / 512)))
  else if w % 512 = 2 then some (.and (.ofNat 16 (w / 268435456)) (.ofNat 16 (w / 131072)) (.ofNat 16 (w / 8192)) (.ofNat 16 (w / 512)))
  else if w % 512 = 3 then some (.or (.ofNat 16 (w / 268435456)) (.ofNat 16 (w / 131072)) (.ofNat 16 (w / 8192)) (.ofNat 16 (w / 512)))
  else if w % 512 = 4 then some (.xor (.ofNat 16 (w / 268435456)) (.ofNat 16 (w / 131072)) (.ofNat 16 (w / 8192)) (.ofNat 16 (w / 512)))
  else if w % 512 = 5 then some (.andn (.ofNat 16 (w / 268435456)) (.ofNat 16 (w / 131072)) (.ofNat 16 (w / 8192)) (.ofNat 16 (w / 512)))
  else if w % 512 = 6 then some (.min (.ofNat 16 (w / 268435456)) (.ofNat 16 (w / 131072)) (.ofNat 16 (w / 8192)) (.ofNat 16 (w / 512)))
  else if w % 512 = 7 then some (.max (.ofNat 16 (w / 268435456)) (.ofNat 16 (w / 131072)) (.ofNat 16 (w / 8192)) (.ofNat 16 (w / 512)))
  else if w % 512 = 8 then some (.minu (.ofNat 16 (w / 268435456)) (.ofNat 16 (w / 131072)) (.ofNat 16 (w / 8192)) (.ofNat 16 (w / 512)))
  else if w % 512 = 9 then some (.maxu (.ofNat 16 (w / 268435456)) (.ofNat 16 (w / 131072)) (.ofNat 16 (w / 8192)) (.ofNat 16 (w / 512)))
  else if w % 512 = 10 then some (.adds (.ofNat 16 (w / 268435456)) (.ofNat 16 (w / 131072)) (.ofNat 16 (w / 8192)) (.ofNat 16 (w / 512)))
  else if w % 512 = 11 then some (.subs (.ofNat 16 (w / 268435456)) (.ofNat 16 (w / 131072)) (.ofNat 16 (w / 8192)) (.ofNat 16 (w / 512)))
  else if w / 4 % 128 = 16 then some (.lea (.ofNat 16 (w / 268435456)) (.ofNat 16 (w / 131072)) (.ofNat 16 (w / 8192)) (.ofNat 16 (w / 512)) (.ofNat 2 (w)))
  else none

/-- Major 0x02 (R64): MUL/MULHI/MULHU/DIV/DIVU/REM/REMU. -/
def decodeMajor02 (w : Nat) : Option Instr :=
  if w % 512 = 0 then some (.mul (.ofNat 16 (w / 268435456)) (.ofNat 16 (w / 131072)) (.ofNat 16 (w / 8192)) (.ofNat 16 (w / 512)))
  else if w % 512 = 1 then some (.mulhi (.ofNat 16 (w / 268435456)) (.ofNat 16 (w / 131072)) (.ofNat 16 (w / 8192)) (.ofNat 16 (w / 512)))
  else if w % 512 = 2 then some (.mulhu (.ofNat 16 (w / 268435456)) (.ofNat 16 (w / 131072)) (.ofNat 16 (w / 8192)) (.ofNat 16 (w / 512)))
  else if w % 512 = 3 then some (.div (.ofNat 16 (w / 268435456)) (.ofNat 16 (w / 131072)) (.ofNat 16 (w / 8192)) (.ofNat 16 (w / 512)))
  else if w % 512 = 4 then some (.divu (.ofNat 16 (w / 268435456)) (.ofNat 16 (w / 131072)) (.ofNat 16 (w / 8192)) (.ofNat 16 (w / 512)))
  else if w % 512 = 5 then some (.rem (.ofNat 16 (w / 268435456)) (.ofNat 16 (w / 131072)) (.ofNat 16 (w / 8192)) (.ofNat 16 (w / 512)))
  else if w % 512 = 6 then some (.remu (.ofNat 16 (w / 268435456)) (.ofNat 16 (w / 131072)) (.ofNat 16 (w / 8192)) (.ofNat 16 (w / 512)))
  else none

/-- Major 0x03 (R64): SHL/SHR/SRA/ROL/CLZ/CTZ/POPC/SEXT/ZEXT. -/
def decodeMajor03 (w : Nat) : Option Instr :=
  if w % 512 = 0 then some (.shl (.ofNat 16 (w / 268435456)) (.ofNat 16 (w / 131072)) (.ofNat 16 (w / 8192)) (.ofNat 16 (w / 512)))
  else if w % 512 = 1 then some (.shr (.ofNat 16 (w / 268435456)) (.ofNat 16 (w / 131072)) (.ofNat 16 (w / 8192)) (.ofNat 16 (w / 512)))
  else if w % 512 = 2 then some (.sra (.ofNat 16 (w / 268435456)) (.ofNat 16 (w / 131072)) (.ofNat 16 (w / 8192)) (.ofNat 16 (w / 512)))
  else if w % 512 = 3 then some (.rol (.ofNat 16 (w / 268435456)) (.ofNat 16 (w / 131072)) (.ofNat 16 (w / 8192)) (.ofNat 16 (w / 512)))
  else if w % 512 = 4 then some (.clz (.ofNat 16 (w / 268435456)) (.ofNat 16 (w / 131072)) (.ofNat 16 (w / 8192)))
  else if w % 512 = 5 then some (.ctz (.ofNat 16 (w / 268435456)) (.ofNat 16 (w / 131072)) (.ofNat 16 (w / 8192)))
  else if w % 512 = 6 then some (.popc (.ofNat 16 (w / 268435456)) (.ofNat 16 (w / 131072)) (.ofNat 16 (w / 8192)))
  else if w / 4 % 128 = 4 then (Size.ofCode (w % 4)).bind fun s => some (.sext (.ofNat 16 (w / 268435456)) (.ofNat 16 (w / 131072)) (.ofNat 16 (w / 8192)) s)
  else if w / 4 % 128 = 6 then (Size.ofCode (w % 4)).bind fun s => some (.zext (.ofNat 16 (w / 268435456)) (.ofNat 16 (w / 131072)) (.ofNat 16 (w / 8192)) s)
  else none

/-- Major 0x04 (R64): CMP/SEL/PAND/POR/PXOR/PMOV. -/
def decodeMajor04 (w : Nat) : Option Instr :=
  if w / 16 % 32 = 1 then (Cond.ofCode (w % 16)).bind fun c => some (.cmp (.ofNat 16 (w / 268435456)) (.ofNat 8 (w / 131072)) (.ofNat 16 (w / 8192)) (.ofNat 16 (w / 512)) c)
  else if w / 8 % 64 = 4 then some (.sel (.ofNat 16 (w / 268435456)) (.ofNat 16 (w / 131072)) (.ofNat 16 (w / 8192)) (.ofNat 16 (w / 512)) (.ofNat 8 (w)))
  else if w % 512 = 48 then some (.pand (.ofNat 16 (w / 268435456)) (.ofNat 8 (w / 131072)) (.ofNat 8 (w / 8192)) (.ofNat 8 (w / 512)))
  else if w % 512 = 49 then some (.por (.ofNat 16 (w / 268435456)) (.ofNat 8 (w / 131072)) (.ofNat 8 (w / 8192)) (.ofNat 8 (w / 512)))
  else if w % 512 = 50 then some (.pxor (.ofNat 16 (w / 268435456)) (.ofNat 8 (w / 131072)) (.ofNat 8 (w / 8192)) (.ofNat 8 (w / 512)))
  else if w % 512 = 51 then some (.pmov (.ofNat 16 (w / 268435456)) (.ofNat 8 (w / 131072)) (.ofNat 8 (w / 8192)))
  else none

/-- Major 0x05 (R64): ADDI. -/
def decodeMajor05 (w : Nat) : Option Instr :=
  some (.addi (.ofNat 16 (w / 268435456)) (.ofNat 16 (w / 131072)) (.ofNat 16 (w / 8192)) (.ofNat 13 (w)))

/-- Major 0x06 (R64): ANDI. -/
def decodeMajor06 (w : Nat) : Option Instr :=
  some (.andi (.ofNat 16 (w / 268435456)) (.ofNat 16 (w / 131072)) (.ofNat 16 (w / 8192)) (.ofNat 13 (w)))

/-- Major 0x07 (R64): ORI. -/
def decodeMajor07 (w : Nat) : Option Instr :=
  some (.ori (.ofNat 16 (w / 268435456)) (.ofNat 16 (w / 131072)) (.ofNat 16 (w / 8192)) (.ofNat 13 (w)))

/-- Major 0x08 (R64): XORI. -/
def decodeMajor08 (w : Nat) : Option Instr :=
  some (.xori (.ofNat 16 (w / 268435456)) (.ofNat 16 (w / 131072)) (.ofNat 16 (w / 8192)) (.ofNat 13 (w)))

/-- Major 0x09 (R64): SHLI. -/
def decodeMajor09 (w : Nat) : Option Instr :=
  some (.shli (.ofNat 16 (w / 268435456)) (.ofNat 16 (w / 131072)) (.ofNat 16 (w / 8192)) (.ofNat 6 (w)))

/-- Major 0x0A (R64): SHRI. -/
def decodeMajor0A (w : Nat) : Option Instr :=
  some (.shri (.ofNat 16 (w / 268435456)) (.ofNat 16 (w / 131072)) (.ofNat 16 (w / 8192)) (.ofNat 6 (w)))

/-- Major 0x0B (R64): SRAI. -/
def decodeMajor0B (w : Nat) : Option Instr :=
  some (.srai (.ofNat 16 (w / 268435456)) (.ofNat 16 (w / 131072)) (.ofNat 16 (w / 8192)) (.ofNat 6 (w)))

/-- Major 0x0C (R64): MOVI. -/
def decodeMajor0C (w : Nat) : Option Instr :=
  some (.movi (.ofNat 16 (w / 268435456)) (.ofNat 16 (w / 131072)) (.ofNat 13 (w)))

/-- Major 0x0D (R64): MOVHI. -/
def decodeMajor0D (w : Nat) : Option Instr :=
  some (.movhi (.ofNat 16 (w / 268435456)) (.ofNat 16 (w / 131072)) (.ofNat 16 (w / 8192)) (.ofNat 13 (w)))

/-- Major 0x0E (R64): ADDPC. -/
def decodeMajor0E (w : Nat) : Option Instr :=
  some (.addpc (.ofNat 16 (w / 268435456)) (.ofNat 16 (w / 131072)) (.ofNat 13 (w)))

/-- Major 0x10 (R64): CMPI. -/
def decodeMajor10 (w : Nat) : Option Instr :=
  (Cond.ofCode (w / 2097152 % 16)).bind fun c => some (.cmpi (.ofNat 16 (w / 268435456)) c (.ofNat 8 (w / 131072)) (.ofNat 16 (w / 8192)) (.ofNat 13 (w)))

/-- Major 0x30 (R64): BR. -/
def decodeMajor30 (w : Nat) : Option Instr :=
  some (.br (.ofNat 16 (w / 268435456)) (.ofNat 21 (w)))

/-- Major 0x31 (R64): CALL. -/
def decodeMajor31 (w : Nat) : Option Instr :=
  some (.call (.ofNat 16 (w / 268435456)) (.ofNat 21 (w)))

/-- Major 0x32 (R64): JR/CALLR/RET. -/
def decodeMajor32 (w : Nat) : Option Instr :=
  if w % 512 = 0 then some (.jr (.ofNat 16 (w / 268435456)) (.ofNat 16 (w / 8192)))
  else if w % 512 = 1 then some (.callr (.ofNat 16 (w / 268435456)) (.ofNat 16 (w / 8192)))
  else if w % 512 = 2 then some (.ret (.ofNat 16 (w / 268435456)))
  else none

/-- Major 0x33 (R64): JTAB. -/
def decodeMajor33 (w : Nat) : Option Instr :=
  some (.jtab (.ofNat 16 (w / 268435456)) (.ofNat 16 (w / 8192)) (.ofNat 16 (w / 512)) (.ofNat 9 (w)))

/-- Major 0x34 (R64): JMP. -/
def decodeMajor34 (w : Nat) : Option Instr :=
  some (.jmp (.ofNat 16 (w / 268435456)) (.ofNat 16 (w / 8192)) (.ofNat 13 (w)))

/-- Major 0x35 (R64): LOOP. -/
def decodeMajor35 (w : Nat) : Option Instr :=
  some (.loop (.ofNat 16 (w / 268435456)) (.ofNat 16 (w / 131072)) (.ofNat 9 (w)))

/-- Major 0x36 (R64): LOOPI. -/
def decodeMajor36 (w : Nat) : Option Instr :=
  some (.loopi (.ofNat 16 (w / 268435456)) (.ofNat 12 (w / 512)) (.ofNat 9 (w)))

/-- Major 0x37 (R64): NOP/LEXIT. -/
def decodeMajor37 (w : Nat) : Option Instr :=
  if w % 512 = 0 then some (.nop (.ofNat 16 (w / 268435456)))
  else if w % 512 = 1 then some (.lexit (.ofNat 16 (w / 268435456)))
  else none

/-- Major 0x38 (R64): LD. -/
def decodeMajor38 (w : Nat) : Option Instr :=
  (Size.ofCode (w / 2048 % 4)).bind fun s => some (.ld (.ofNat 16 (w / 268435456)) (.ofNat 16 (w / 131072)) (.ofNat 16 (w / 8192)) s (w / 1024 % 2 == 1) (.ofNat 9 (w)))

/-- Major 0x39 (R64): ST. -/
def decodeMajor39 (w : Nat) : Option Instr :=
  (Size.ofCode (w / 2048 % 4)).bind fun s => some (.st (.ofNat 16 (w / 268435456)) (.ofNat 16 (w / 131072)) (.ofNat 16 (w / 8192)) s (.ofNat 9 (w)))

/-- Major 0x3A (R64): LDA. -/
def decodeMajor3A (w : Nat) : Option Instr :=
  (Size.ofCode (w / 2048 % 4)).bind fun s => (InstSrc.ofCode (w % 512)).bind fun i => some (.lda (.ofNat 16 (w / 268435456)) (.ofNat 16 (w / 131072)) (.ofNat 16 (w / 8192)) s (w / 1024 % 2 == 1) i)

/-- Major 0x3B (R64): STV. -/
def decodeMajor3B (w : Nat) : Option Instr :=
  (Size.ofCode (w / 2048 % 4)).bind fun s => (InstSrc.ofCode (w % 512)).bind fun i => some (.stv (.ofNat 16 (w / 268435456)) (.ofNat 16 (w / 131072)) (.ofNat 16 (w / 8192)) s i)

/-- Major 0x3C (R64): LDN. -/
def decodeMajor3C (w : Nat) : Option Instr :=
  (Size.ofCode (w / 2048 % 4)).bind fun s => some (.ldn (.ofNat 16 (w / 268435456)) (.ofNat 16 (w / 131072)) (.ofNat 16 (w / 8192)) s (w / 1024 % 2 == 1) (.ofNat 9 (w)))

/-- Major 0x3D (R64): STN. -/
def decodeMajor3D (w : Nat) : Option Instr :=
  (Size.ofCode (w / 2048 % 4)).bind fun s => some (.stn (.ofNat 16 (w / 268435456)) (.ofNat 16 (w / 131072)) (.ofNat 16 (w / 8192)) s (.ofNat 9 (w)))

/-- Major 0x3E (R64): SCANCEL. -/
def decodeMajor3E (w : Nat) : Option Instr :=
  (Size.ofCode (w / 2048 % 4)).bind fun s => some (.scancel (.ofNat 16 (w / 268435456)) (.ofNat 16 (w / 8192)) s (.ofNat 9 (w)))

/-- Major 0x3F (R64): LKUP/TAGIN/TAGOUT. -/
def decodeMajor3F (w : Nat) : Option Instr :=
  if w % 512 = 0 then some (.lkup (.ofNat 16 (w / 268435456)) (.ofNat 16 (w / 131072)) (.ofNat 16 (w / 8192)))
  else if w % 512 = 1 then some (.tagin (.ofNat 16 (w / 268435456)) (.ofNat 16 (w / 8192)) (.ofNat 16 (w / 512)))
  else if w % 512 = 2 then some (.tagout (.ofNat 16 (w / 268435456)) (.ofNat 16 (w / 131072)) (.ofNat 16 (w / 8192)))
  else none

/-- Major 0x40 (R64): LDAQ. -/
def decodeMajor40 (w : Nat) : Option Instr :=
  (Scope.ofCode (w / 2048 % 4)).bind fun c => (DSize.ofCode (w / 1024 % 2)).bind fun z => some (.ldaq (.ofNat 16 (w / 268435456)) (.ofNat 16 (w / 131072)) (.ofNat 16 (w / 8192)) c z (w / 512 % 2 == 1) (.ofNat 9 (w)))

/-- Major 0x41 (R64): STRL. -/
def decodeMajor41 (w : Nat) : Option Instr :=
  (Scope.ofCode (w / 2048 % 4)).bind fun c => (DSize.ofCode (w / 1024 % 2)).bind fun z => some (.strl (.ofNat 16 (w / 268435456)) (.ofNat 16 (w / 131072)) (.ofNat 16 (w / 8192)) c z (.ofNat 9 (w)))

/-- Major 0x42 (R64): FENCE_FULL/FENCE_ACQ/FENCE_REL. -/
def decodeMajor42 (w : Nat) : Option Instr :=
  if w % 128 = 0 then (Scope.ofCode (w / 128 % 4)).bind fun c => some (.fenceFull (.ofNat 16 (w / 268435456)) c)
  else if w % 128 = 1 then (Scope.ofCode (w / 128 % 4)).bind fun c => some (.fenceAcq (.ofNat 16 (w / 268435456)) c)
  else if w % 128 = 2 then (Scope.ofCode (w / 128 % 4)).bind fun c => some (.fenceRel (.ofNat 16 (w / 268435456)) c)
  else none

/-- Major 0x43 (R64): STSYNC. -/
def decodeMajor43 (w : Nat) : Option Instr :=
  (Scope.ofCode (w / 128 % 4)).bind fun c => some (.stsync (.ofNat 16 (w / 268435456)) c)

/-- Major 0x44 (R64): RSV. -/
def decodeMajor44 (w : Nat) : Option Instr :=
  (DSize.ofCode (w / 2048 % 2)).bind fun s => some (.rsv (.ofNat 16 (w / 268435456)) (.ofNat 16 (w / 131072)) (.ofNat 16 (w / 8192)) s (.ofNat 9 (w)))

/-- Major 0x45 (R64): RLS. -/
def decodeMajor45 (w : Nat) : Option Instr :=
  (DSize.ofCode (w / 2048 % 2)).bind fun s => some (.rls (.ofNat 16 (w / 268435456)) (.ofNat 16 (w / 131072)) (.ofNat 16 (w / 8192)) s (.ofNat 9 (w)))

/-- Major 0x46 (R64): RLSN. -/
def decodeMajor46 (w : Nat) : Option Instr :=
  (DSize.ofCode (w / 2048 % 2)).bind fun s => some (.rlsn (.ofNat 16 (w / 268435456)) (.ofNat 16 (w / 8192)) s (.ofNat 9 (w)))

/-- Major 0x47 (R64): LAMO. -/
def decodeMajor47 (w : Nat) : Option Instr :=
  (AOp.ofCode (w / 64 % 8)).bind fun o => (DSize.ofCode (w / 32 % 2)).bind fun s => some (.lamo (.ofNat 16 (w / 268435456)) (.ofNat 16 (w / 131072)) (.ofNat 16 (w / 8192)) (.ofNat 16 (w / 512)) o s)

/-- Major 0x48 (R64): MON/MWAIT/MOFF. -/
def decodeMajor48 (w : Nat) : Option Instr :=
  if w % 512 = 0 then some (.mon (.ofNat 16 (w / 268435456)) (.ofNat 16 (w / 8192)))
  else if w % 512 = 1 then some (.mwait (.ofNat 16 (w / 268435456)) (.ofNat 16 (w / 131072)) (.ofNat 16 (w / 8192)))
  else if w % 512 = 2 then some (.moff (.ofNat 16 (w / 268435456)) (.ofNat 16 (w / 8192)))
  else none

/-- Major 0x49 (R64): BARI/BARA/BARD/BARW. -/
def decodeMajor49 (w : Nat) : Option Instr :=
  if w % 512 = 0 then some (.bari (.ofNat 16 (w / 268435456)) (.ofNat 16 (w / 8192)) (.ofNat 16 (w / 512)))
  else if w % 512 = 1 then some (.bara (.ofNat 16 (w / 268435456)) (.ofNat 16 (w / 131072)) (.ofNat 16 (w / 8192)))
  else if w % 512 = 2 then some (.bard (.ofNat 16 (w / 268435456)) (.ofNat 16 (w / 131072)) (.ofNat 16 (w / 8192)))
  else if w % 512 = 3 then some (.barw (.ofNat 16 (w / 268435456)) (.ofNat 16 (w / 8192)) (.ofNat 16 (w / 512)))
  else none

/-- Major 0x4C (R64): EXIT/YIELD/ANCHOR/ROAM/MIGR/WHO/SLEEP/SPAWN/TNEXT/TWAIT. -/
def decodeMajor4C (w : Nat) : Option Instr :=
  if w % 512 = 0 then some (.exit (.ofNat 16 (w / 268435456)))
  else if w % 512 = 1 then some (.yield (.ofNat 16 (w / 268435456)))
  else if w % 512 = 2 then some (.anchor (.ofNat 16 (w / 268435456)))
  else if w % 512 = 3 then some (.roam (.ofNat 16 (w / 268435456)))
  else if w % 512 = 4 then some (.migr (.ofNat 16 (w / 268435456)) (.ofNat 16 (w / 8192)))
  else if w % 512 = 5 then some (.who (.ofNat 16 (w / 268435456)) (.ofNat 16 (w / 131072)))
  else if w % 512 = 6 then some (.sleep (.ofNat 16 (w / 268435456)) (.ofNat 16 (w / 8192)))
  else if w % 512 = 7 then some (.spawn (.ofNat 16 (w / 268435456)) (.ofNat 16 (w / 131072)) (.ofNat 16 (w / 8192)) (.ofNat 16 (w / 512)))
  else if w % 512 = 8 then some (.tnext (.ofNat 16 (w / 268435456)))
  else if w % 512 = 9 then some (.twait (.ofNat 16 (w / 268435456)) (.ofNat 16 (w / 131072)) (.ofNat 16 (w / 8192)) (.ofNat 16 (w / 512)))
  else none

/-- Major 0x4D (R64): SEND/INBOX/IPEEK. -/
def decodeMajor4D (w : Nat) : Option Instr :=
  if w % 256 = 0 then some (.send (.ofNat 16 (w / 268435456)) (.ofNat 8 (w / 131072)) (.ofNat 16 (w / 8192)) (.ofNat 16 (w / 512)) (w / 256 % 2 == 1))
  else if w % 512 = 1 then some (.inbox (.ofNat 16 (w / 268435456)) (.ofNat 16 (w / 131072)) (.ofNat 16 (w / 8192)))
  else if w % 512 = 2 then some (.ipeek (.ofNat 16 (w / 268435456)) (.ofNat 16 (w / 131072)))
  else none

/-- Major 0x4E (R64): LAUNCH. -/
def decodeMajor4E (w : Nat) : Option Instr :=
  some (.launch (.ofNat 16 (w / 268435456)) (.ofNat 8 (w / 131072)) (.ofNat 16 (w / 8192)) (w % 2 == 1))

/-- Major 0x54 (R64): VADD. -/
def decodeMajor54 (w : Nat) : Option Instr :=
  (Elem.ofCode (w / 32 % 16)).bind fun t => (Rnd.ofCode (w / 4 % 8)).bind fun r => some (.vadd (.ofNat 16 (w / 268435456)) (.ofNat 16 (w / 131072)) (.ofNat 16 (w / 8192)) (.ofNat 16 (w / 512)) t r)

/-- Major 0x55 (R64): VSUB. -/
def decodeMajor55 (w : Nat) : Option Instr :=
  (Elem.ofCode (w / 32 % 16)).bind fun t => (Rnd.ofCode (w / 4 % 8)).bind fun r => some (.vsub (.ofNat 16 (w / 268435456)) (.ofNat 16 (w / 131072)) (.ofNat 16 (w / 8192)) (.ofNat 16 (w / 512)) t r)

/-- Major 0x56 (R64): VMUL. -/
def decodeMajor56 (w : Nat) : Option Instr :=
  (Elem.ofCode (w / 32 % 16)).bind fun t => (Rnd.ofCode (w / 4 % 8)).bind fun r => some (.vmul (.ofNat 16 (w / 268435456)) (.ofNat 16 (w / 131072)) (.ofNat 16 (w / 8192)) (.ofNat 16 (w / 512)) t r)

/-- Major 0x57 (R64): VFMA. -/
def decodeMajor57 (w : Nat) : Option Instr :=
  (Elem.ofCode (w / 32 % 16)).bind fun t => (Rnd.ofCode (w / 4 % 8)).bind fun r => some (.vfma (.ofNat 16 (w / 268435456)) (.ofNat 16 (w / 131072)) (.ofNat 16 (w / 8192)) (.ofNat 16 (w / 512)) t r)

/-- Major 0x58 (R64): VMIN. -/
def decodeMajor58 (w : Nat) : Option Instr :=
  (Elem.ofCode (w / 32 % 16)).bind fun t => (Rnd.ofCode (w / 4 % 8)).bind fun r => some (.vmin (.ofNat 16 (w / 268435456)) (.ofNat 16 (w / 131072)) (.ofNat 16 (w / 8192)) (.ofNat 16 (w / 512)) t r)

/-- Major 0x59 (R64): VMAX. -/
def decodeMajor59 (w : Nat) : Option Instr :=
  (Elem.ofCode (w / 32 % 16)).bind fun t => (Rnd.ofCode (w / 4 % 8)).bind fun r => some (.vmax (.ofNat 16 (w / 268435456)) (.ofNat 16 (w / 131072)) (.ofNat 16 (w / 8192)) (.ofNat 16 (w / 512)) t r)

/-- Major 0x5A (R64): VABS/VNEG. -/
def decodeMajor5A (w : Nat) : Option Instr :=
  if w % 32 = 0 then (Elem.ofCode (w / 32 % 16)).bind fun t => some (.vabs (.ofNat 16 (w / 268435456)) (.ofNat 16 (w / 131072)) (.ofNat 16 (w / 8192)) t)
  else if w % 32 = 1 then (Elem.ofCode (w / 32 % 16)).bind fun t => some (.vneg (.ofNat 16 (w / 268435456)) (.ofNat 16 (w / 131072)) (.ofNat 16 (w / 8192)) t)
  else none

/-- Major 0x5B (R64): VAND/VOR/VXOR. -/
def decodeMajor5B (w : Nat) : Option Instr :=
  if w % 32 = 0 then (Elem.ofCode (w / 32 % 16)).bind fun t => some (.vand (.ofNat 16 (w / 268435456)) (.ofNat 16 (w / 131072)) (.ofNat 16 (w / 8192)) (.ofNat 16 (w / 512)) t)
  else if w % 32 = 1 then (Elem.ofCode (w / 32 % 16)).bind fun t => some (.vor (.ofNat 16 (w / 268435456)) (.ofNat 16 (w / 131072)) (.ofNat 16 (w / 8192)) (.ofNat 16 (w / 512)) t)
  else if w % 32 = 2 then (Elem.ofCode (w / 32 % 16)).bind fun t => some (.vxor (.ofNat 16 (w / 268435456)) (.ofNat 16 (w / 131072)) (.ofNat 16 (w / 8192)) (.ofNat 16 (w / 512)) t)
  else none

/-- Major 0x5C (R64): VSHL/VSHR/VSRA. -/
def decodeMajor5C (w : Nat) : Option Instr :=
  if w % 32 = 0 then (Elem.ofCode (w / 32 % 16)).bind fun t => some (.vshl (.ofNat 16 (w / 268435456)) (.ofNat 16 (w / 131072)) (.ofNat 16 (w / 8192)) (.ofNat 16 (w / 512)) t)
  else if w % 32 = 1 then (Elem.ofCode (w / 32 % 16)).bind fun t => some (.vshr (.ofNat 16 (w / 268435456)) (.ofNat 16 (w / 131072)) (.ofNat 16 (w / 8192)) (.ofNat 16 (w / 512)) t)
  else if w % 32 = 2 then (Elem.ofCode (w / 32 % 16)).bind fun t => some (.vsra (.ofNat 16 (w / 268435456)) (.ofNat 16 (w / 131072)) (.ofNat 16 (w / 8192)) (.ofNat 16 (w / 512)) t)
  else none

/-- Major 0x5D (R64): VCMP. -/
def decodeMajor5D (w : Nat) : Option Instr :=
  (Elem.ofCode (w / 32 % 16)).bind fun t => (VCond.ofCode (w / 4 % 8)).bind fun c => some (.vcmp (.ofNat 16 (w / 268435456)) (.ofNat 16 (w / 131072)) (.ofNat 16 (w / 8192)) (.ofNat 16 (w / 512)) t c)

/-- Major 0x5E (R64): VSEL. -/
def decodeMajor5E (w : Nat) : Option Instr :=
  (Elem.ofCode (w / 32 % 16)).bind fun t => some (.vsel (.ofNat 16 (w / 268435456)) (.ofNat 16 (w / 131072)) (.ofNat 16 (w / 8192)) (.ofNat 16 (w / 512)) t)

/-- Major 0x5F (R64): VCVT. -/
def decodeMajor5F (w : Nat) : Option Instr :=
  (Elem.ofCode (w / 512 % 16)).bind fun s => (Elem.ofCode (w / 32 % 16)).bind fun t => (Rnd.ofCode (w / 4 % 8)).bind fun r => some (.vcvt (.ofNat 16 (w / 268435456)) (.ofNat 16 (w / 131072)) (.ofNat 16 (w / 8192)) s t r)

/-- Major 0x60 (R64): VSCL. -/
def decodeMajor60 (w : Nat) : Option Instr :=
  (Elem.ofCode (w / 32 % 16)).bind fun t => (Rnd.ofCode (w / 4 % 8)).bind fun r => some (.vscl (.ofNat 16 (w / 268435456)) (.ofNat 16 (w / 131072)) (.ofNat 16 (w / 8192)) (.ofNat 16 (w / 512)) t r)

/-- Major 0x61 (R64): VREDS/VREDM. -/
def decodeMajor61 (w : Nat) : Option Instr :=
  if w % 4 = 0 then (Elem.ofCode (w / 32 % 16)).bind fun t => (Rnd.ofCode (w / 4 % 8)).bind fun r => some (.vreds (.ofNat 16 (w / 268435456)) (.ofNat 16 (w / 131072)) (.ofNat 16 (w / 8192)) t r)
  else if w % 32 = 1 then (Elem.ofCode (w / 32 % 16)).bind fun t => some (.vredm (.ofNat 16 (w / 268435456)) (.ofNat 16 (w / 131072)) (.ofNat 16 (w / 8192)) t)
  else none

/-- Major 0x62 (R64): VEXP2/VLOG2/VRCP/VRSQ. -/
def decodeMajor62 (w : Nat) : Option Instr :=
  if w % 4 = 0 then (Elem.ofCode (w / 32 % 16)).bind fun t => (Rnd.ofCode (w / 4 % 8)).bind fun r => some (.vexp2 (.ofNat 16 (w / 268435456)) (.ofNat 16 (w / 131072)) (.ofNat 16 (w / 8192)) t r)
  else if w % 4 = 1 then (Elem.ofCode (w / 32 % 16)).bind fun t => (Rnd.ofCode (w / 4 % 8)).bind fun r => some (.vlog2 (.ofNat 16 (w / 268435456)) (.ofNat 16 (w / 131072)) (.ofNat 16 (w / 8192)) t r)
  else if w % 4 = 2 then (Elem.ofCode (w / 32 % 16)).bind fun t => (Rnd.ofCode (w / 4 % 8)).bind fun r => some (.vrcp (.ofNat 16 (w / 268435456)) (.ofNat 16 (w / 131072)) (.ofNat 16 (w / 8192)) t r)
  else if w % 4 = 3 then (Elem.ofCode (w / 32 % 16)).bind fun t => (Rnd.ofCode (w / 4 % 8)).bind fun r => some (.vrsq (.ofNat 16 (w / 268435456)) (.ofNat 16 (w / 131072)) (.ofNat 16 (w / 8192)) t r)
  else none

/-- Major 0x63 (R64): VDOT. -/
def decodeMajor63 (w : Nat) : Option Instr :=
  (Elem.ofCode (w / 32 % 16)).bind fun t => (Rnd.ofCode (w / 4 % 8)).bind fun r => some (.vdot (.ofNat 16 (w / 268435456)) (.ofNat 16 (w / 131072)) (.ofNat 16 (w / 8192)) (.ofNat 16 (w / 512)) t r)

/-- Major 0x64 (R64): VBC/VEXT/VINS/VPERM. -/
def decodeMajor64 (w : Nat) : Option Instr :=
  if w % 32 = 0 then (Elem.ofCode (w / 32 % 16)).bind fun t => some (.vbc (.ofNat 16 (w / 268435456)) (.ofNat 16 (w / 131072)) (.ofNat 16 (w / 8192)) t)
  else if w % 32 = 1 then (Elem.ofCode (w / 32 % 16)).bind fun t => some (.vext (.ofNat 16 (w / 268435456)) (.ofNat 16 (w / 131072)) (.ofNat 16 (w / 8192)) (.ofNat 16 (w / 512)) t)
  else if w % 32 = 2 then (Elem.ofCode (w / 32 % 16)).bind fun t => some (.vins (.ofNat 16 (w / 268435456)) (.ofNat 16 (w / 131072)) (.ofNat 16 (w / 8192)) (.ofNat 16 (w / 512)) t)
  else if w % 32 = 3 then (Elem.ofCode (w / 32 % 16)).bind fun t => some (.vperm (.ofNat 16 (w / 268435456)) (.ofNat 16 (w / 131072)) (.ofNat 16 (w / 8192)) (.ofNat 16 (w / 512)) t)
  else none

/-- Major 0x65 (R64): VLD. -/
def decodeMajor65 (w : Nat) : Option Instr :=
  (Elem.ofCode (w / 32 % 16)).bind fun t => some (.vld (.ofNat 16 (w / 268435456)) (.ofNat 16 (w / 131072)) (.ofNat 16 (w / 8192)) t)

/-- Major 0x66 (R64): VST. -/
def decodeMajor66 (w : Nat) : Option Instr :=
  (Elem.ofCode (w / 32 % 16)).bind fun t => some (.vst (.ofNat 16 (w / 268435456)) (.ofNat 16 (w / 131072)) (.ofNat 16 (w / 8192)) t)

/-- Major 0x67 (R64): VLDX. -/
def decodeMajor67 (w : Nat) : Option Instr :=
  (Elem.ofCode (w / 32 % 16)).bind fun t => some (.vldx (.ofNat 16 (w / 268435456)) (.ofNat 16 (w / 131072)) (.ofNat 16 (w / 8192)) (.ofNat 16 (w / 512)) t)

/-- Major 0x68 (R64): VSTX. -/
def decodeMajor68 (w : Nat) : Option Instr :=
  (Elem.ofCode (w / 32 % 16)).bind fun t => some (.vstx (.ofNat 16 (w / 268435456)) (.ofNat 16 (w / 131072)) (.ofNat 16 (w / 8192)) (.ofNat 16 (w / 512)) t)

/-- Major 0x69 (R64): VLEN/VMOV/VIOTA. -/
def decodeMajor69 (w : Nat) : Option Instr :=
  if w % 32 = 0 then (Elem.ofCode (w / 32 % 16)).bind fun t => some (.vlen (.ofNat 16 (w / 268435456)) (.ofNat 16 (w / 131072)) (.ofNat 16 (w / 8192)) t)
  else if w % 32 = 1 then (Elem.ofCode (w / 32 % 16)).bind fun t => some (.vmov (.ofNat 16 (w / 268435456)) (.ofNat 16 (w / 131072)) (.ofNat 16 (w / 8192)) t)
  else if w % 32 = 2 then (Elem.ofCode (w / 32 % 16)).bind fun t => some (.viota (.ofNat 16 (w / 268435456)) (.ofNat 16 (w / 131072)) t)
  else none

/-- Major 0x6C (R64): KSET. -/
def decodeMajor6C (w : Nat) : Option Instr :=
  some (.kset (.ofNat 16 (w / 268435456)) (.ofNat 8 (w / 131072)) (.ofNat 16 (w / 8192)))

/-- Major 0x6D (R64): TRUN/TSTAT. -/
def decodeMajor6D (w : Nat) : Option Instr :=
  if w % 512 = 0 then some (.trun (.ofNat 16 (w / 268435456)) (.ofNat 16 (w / 8192)))
  else if w % 512 = 1 then some (.tstat (.ofNat 16 (w / 268435456)) (.ofNat 16 (w / 131072)))
  else none

/-- Major 0x6E (R64): HNEW/HDEL. -/
def decodeMajor6E (w : Nat) : Option Instr :=
  if w % 512 = 0 then some (.hnew (.ofNat 16 (w / 268435456)) (.ofNat 16 (w / 131072)) (.ofNat 16 (w / 8192)) (.ofNat 16 (w / 512)))
  else if w % 512 = 1 then some (.hdel (.ofNat 16 (w / 268435456)) (.ofNat 16 (w / 8192)))
  else none

/-- Major 0x70 (R64): CPY. -/
def decodeMajor70 (w : Nat) : Option Instr :=
  some (.cpy (.ofNat 16 (w / 268435456)) (.ofNat 8 (w / 131072)) (.ofNat 16 (w / 8192)))

/-- Major 0x71 (R64): CPYR. -/
def decodeMajor71 (w : Nat) : Option Instr :=
  some (.cpyr (.ofNat 16 (w / 268435456)) (.ofNat 8 (w / 131072)) (.ofNat 16 (w / 8192)))

/-- Major 0x72 (R64): FILL. -/
def decodeMajor72 (w : Nat) : Option Instr :=
  some (.fill (.ofNat 16 (w / 268435456)) (.ofNat 8 (w / 131072)) (.ofNat 16 (w / 8192)))

/-- Major 0x73 (R64): COLL_REDUCE/COLL_ALLREDUCE/COLL_RSCATTER/COLL_ALLGATHER. -/
def decodeMajor73 (w : Nat) : Option Instr :=
  if w / 64 % 8 = 0 then (Elem.ofCode (w / 4 % 16)).bind fun t => (Red.ofCode (w % 4)).bind fun r => some (.collReduce (.ofNat 16 (w / 268435456)) (.ofNat 8 (w / 131072)) (.ofNat 16 (w / 8192)) t r)
  else if w / 64 % 8 = 1 then (Elem.ofCode (w / 4 % 16)).bind fun t => (Red.ofCode (w % 4)).bind fun r => some (.collAllreduce (.ofNat 16 (w / 268435456)) (.ofNat 8 (w / 131072)) (.ofNat 16 (w / 8192)) t r)
  else if w / 64 % 8 = 2 then (Elem.ofCode (w / 4 % 16)).bind fun t => (Red.ofCode (w % 4)).bind fun r => some (.collRscatter (.ofNat 16 (w / 268435456)) (.ofNat 8 (w / 131072)) (.ofNat 16 (w / 8192)) t r)
  else if w % 4 = 0 then (Elem.ofCode (w / 4 % 16)).bind fun t => some (.collAllgather (.ofNat 16 (w / 268435456)) (.ofNat 8 (w / 131072)) (.ofNat 16 (w / 8192)) t)
  else none

/-- Major 0x74 (R64): MASK/PADV. -/
def decodeMajor74 (w : Nat) : Option Instr :=
  if w % 512 = 0 then some (.mask (.ofNat 16 (w / 268435456)) (.ofNat 8 (w / 131072)) (.ofNat 16 (w / 8192)))
  else if w % 512 = 1 then some (.padv (.ofNat 16 (w / 268435456)) (.ofNat 16 (w / 131072)) (.ofNat 16 (w / 8192)) (.ofNat 16 (w / 512)))
  else none

/-- Major 0x75 (R64): SAMPLE/ARGMX. -/
def decodeMajor75 (w : Nat) : Option Instr :=
  if w % 512 = 0 then some (.sample (.ofNat 16 (w / 268435456)) (.ofNat 16 (w / 131072)) (.ofNat 16 (w / 8192)) (.ofNat 8 (w / 512)))
  else if w % 512 = 1 then some (.argmx (.ofNat 16 (w / 268435456)) (.ofNat 16 (w / 131072)) (.ofNat 16 (w / 8192)) (.ofNat 8 (w / 512)))
  else none

/-- Major 0x76 (R64): TRY/FAIL/CUT/CPD. -/
def decodeMajor76 (w : Nat) : Option Instr :=
  if w % 512 = 0 then some (.tryPoint (.ofNat 16 (w / 268435456)) (.ofNat 16 (w / 131072)) (.ofNat 16 (w / 8192)) (.ofNat 16 (w / 512)))
  else if w % 512 = 1 then some (.fail (.ofNat 16 (w / 268435456)))
  else if w % 512 = 2 then some (.cut (.ofNat 16 (w / 268435456)) (.ofNat 16 (w / 8192)))
  else if w % 512 = 3 then some (.cpd (.ofNat 16 (w / 268435456)) (.ofNat 16 (w / 131072)))
  else none

/-- Major 0x77 (R64): STEAL/COMMIT. -/
def decodeMajor77 (w : Nat) : Option Instr :=
  if w % 512 = 0 then some (.steal (.ofNat 16 (w / 268435456)) (.ofNat 8 (w / 131072)) (.ofNat 16 (w / 8192)))
  else if w % 512 = 1 then some (.commit (.ofNat 16 (w / 268435456)))
  else none

/-- Major 0x78 (R64): ECNT/RLOOK/RPUB/RRET. -/
def decodeMajor78 (w : Nat) : Option Instr :=
  if w % 512 = 0 then some (.ecnt (.ofNat 16 (w / 268435456)) (.ofNat 16 (w / 8192)) (.ofNat 16 (w / 512)))
  else if w % 512 = 1 then some (.rlook (.ofNat 16 (w / 268435456)) (.ofNat 16 (w / 131072)) (.ofNat 16 (w / 8192)) (.ofNat 16 (w / 512)))
  else if w % 512 = 2 then some (.rpub (.ofNat 16 (w / 268435456)) (.ofNat 16 (w / 8192)) (.ofNat 16 (w / 512)))
  else if w % 512 = 3 then some (.rret (.ofNat 16 (w / 268435456)) (.ofNat 16 (w / 8192)) (.ofNat 16 (w / 512)))
  else none

/-- Major 0x79 (R64): RCOPY/RMERGE/RSTAT. -/
def decodeMajor79 (w : Nat) : Option Instr :=
  if w % 512 = 0 then some (.rcopy (.ofNat 16 (w / 268435456)) (.ofNat 8 (w / 131072)) (.ofNat 16 (w / 8192)))
  else if w % 512 = 1 then some (.rmerge (.ofNat 16 (w / 268435456)) (.ofNat 8 (w / 131072)) (.ofNat 16 (w / 8192)))
  else if w % 512 = 2 then some (.rstat (.ofNat 16 (w / 268435456)) (.ofNat 16 (w / 131072)) (.ofNat 16 (w / 8192)))
  else none

/-- Major 0x7A (R64): TRAP. -/
def decodeMajor7A (w : Nat) : Option Instr :=
  some (.trap (.ofNat 16 (w / 268435456)) (.ofNat 13 (w)))

/-- Major 0x7B (R64): BRK. -/
def decodeMajor7B (w : Nat) : Option Instr :=
  some (.brk (.ofNat 16 (w / 268435456)) (.ofNat 13 (w)))

/-- Major 0x7C (R64): MFSR. -/
def decodeMajor7C (w : Nat) : Option Instr :=
  some (.mfsr (.ofNat 16 (w / 268435456)) (.ofNat 16 (w / 131072)) (.ofNat 13 (w)))

/-- Major 0x7D (R64): MTSR. -/
def decodeMajor7D (w : Nat) : Option Instr :=
  some (.mtsr (.ofNat 16 (w / 268435456)) (.ofNat 16 (w / 8192)) (.ofNat 13 (w)))

/-- Major 0x7E (R64): ERET/SEGLD/PGINV/IDLE/CIRC/SLOTSV/SLOTLD. -/
def decodeMajor7E (w : Nat) : Option Instr :=
  if w % 512 = 0 then some (.eret (.ofNat 16 (w / 268435456)))
  else if w % 512 = 1 then some (.segld (.ofNat 16 (w / 268435456)) (.ofNat 8 (w / 131072)) (.ofNat 16 (w / 8192)))
  else if w % 512 = 2 then some (.pginv (.ofNat 16 (w / 268435456)) (.ofNat 16 (w / 8192)))
  else if w % 512 = 3 then some (.idle (.ofNat 16 (w / 268435456)))
  else if w % 512 = 4 then some (.circ (.ofNat 16 (w / 268435456)) (.ofNat 8 (w / 131072)) (.ofNat 16 (w / 8192)))
  else if w % 512 = 5 then some (.slotsv (.ofNat 16 (w / 268435456)) (.ofNat 16 (w / 131072)) (.ofNat 16 (w / 8192)))
  else if w % 512 = 6 then some (.slotld (.ofNat 16 (w / 268435456)) (.ofNat 16 (w / 131072)) (.ofNat 16 (w / 8192)))
  else none

/-- Major 0x7F (R64): STOPAT/FREQAT. -/
def decodeMajor7F (w : Nat) : Option Instr :=
  if w % 512 = 0 then some (.stopat (.ofNat 16 (w / 268435456)) (.ofNat 8 (w / 131072)) (.ofNat 16 (w / 8192)))
  else if w % 512 = 1 then some (.freqat (.ofNat 16 (w / 268435456)) (.ofNat 8 (w / 131072)) (.ofNat 16 (w / 8192)) (.ofNat 16 (w / 512)))
  else none

/-- Step 1 and 2 of decode (R56, R64), before the check that every reserved field is 0. -/
def decodeRaw (w : Nat) : Option Instr :=
  match w / 2097152 % 128 with
  | 1 => decodeMajor01 w
  | 2 => decodeMajor02 w
  | 3 => decodeMajor03 w
  | 4 => decodeMajor04 w
  | 5 => decodeMajor05 w
  | 6 => decodeMajor06 w
  | 7 => decodeMajor07 w
  | 8 => decodeMajor08 w
  | 9 => decodeMajor09 w
  | 10 => decodeMajor0A w
  | 11 => decodeMajor0B w
  | 12 => decodeMajor0C w
  | 13 => decodeMajor0D w
  | 14 => decodeMajor0E w
  | 16 => decodeMajor10 w
  | 17 => decodeMajor10 w
  | 18 => decodeMajor10 w
  | 19 => decodeMajor10 w
  | 20 => decodeMajor10 w
  | 21 => decodeMajor10 w
  | 22 => decodeMajor10 w
  | 23 => decodeMajor10 w
  | 24 => decodeMajor10 w
  | 25 => decodeMajor10 w
  | 48 => decodeMajor30 w
  | 49 => decodeMajor31 w
  | 50 => decodeMajor32 w
  | 51 => decodeMajor33 w
  | 52 => decodeMajor34 w
  | 53 => decodeMajor35 w
  | 54 => decodeMajor36 w
  | 55 => decodeMajor37 w
  | 56 => decodeMajor38 w
  | 57 => decodeMajor39 w
  | 58 => decodeMajor3A w
  | 59 => decodeMajor3B w
  | 60 => decodeMajor3C w
  | 61 => decodeMajor3D w
  | 62 => decodeMajor3E w
  | 63 => decodeMajor3F w
  | 64 => decodeMajor40 w
  | 65 => decodeMajor41 w
  | 66 => decodeMajor42 w
  | 67 => decodeMajor43 w
  | 68 => decodeMajor44 w
  | 69 => decodeMajor45 w
  | 70 => decodeMajor46 w
  | 71 => decodeMajor47 w
  | 72 => decodeMajor48 w
  | 73 => decodeMajor49 w
  | 76 => decodeMajor4C w
  | 77 => decodeMajor4D w
  | 78 => decodeMajor4E w
  | 84 => decodeMajor54 w
  | 85 => decodeMajor55 w
  | 86 => decodeMajor56 w
  | 87 => decodeMajor57 w
  | 88 => decodeMajor58 w
  | 89 => decodeMajor59 w
  | 90 => decodeMajor5A w
  | 91 => decodeMajor5B w
  | 92 => decodeMajor5C w
  | 93 => decodeMajor5D w
  | 94 => decodeMajor5E w
  | 95 => decodeMajor5F w
  | 96 => decodeMajor60 w
  | 97 => decodeMajor61 w
  | 98 => decodeMajor62 w
  | 99 => decodeMajor63 w
  | 100 => decodeMajor64 w
  | 101 => decodeMajor65 w
  | 102 => decodeMajor66 w
  | 103 => decodeMajor67 w
  | 104 => decodeMajor68 w
  | 105 => decodeMajor69 w
  | 108 => decodeMajor6C w
  | 109 => decodeMajor6D w
  | 110 => decodeMajor6E w
  | 112 => decodeMajor70 w
  | 113 => decodeMajor71 w
  | 114 => decodeMajor72 w
  | 115 => decodeMajor73 w
  | 116 => decodeMajor74 w
  | 117 => decodeMajor75 w
  | 118 => decodeMajor76 w
  | 119 => decodeMajor77 w
  | 120 => decodeMajor78 w
  | 121 => decodeMajor79 w
  | 122 => decodeMajor7A w
  | 123 => decodeMajor7B w
  | 124 => decodeMajor7C w
  | 125 => decodeMajor7D w
  | 126 => decodeMajor7E w
  | 127 => decodeMajor7F w
  | _ => none

/-- The word of an instruction (R54 to R68, R70 for none): the row's fixed bits and its fields in place. -/
def encodeWord : Instr → Option Nat
  | .add g d a b => some (2097152 + g.val * 268435456 + d.val * 131072 + a.val * 8192 + b.val * 512)
  | .sub g d a b => some (2097153 + g.val * 268435456 + d.val * 131072 + a.val * 8192 + b.val * 512)
  | .and g d a b => some (2097154 + g.val * 268435456 + d.val * 131072 + a.val * 8192 + b.val * 512)
  | .or g d a b => some (2097155 + g.val * 268435456 + d.val * 131072 + a.val * 8192 + b.val * 512)
  | .xor g d a b => some (2097156 + g.val * 268435456 + d.val * 131072 + a.val * 8192 + b.val * 512)
  | .andn g d a b => some (2097157 + g.val * 268435456 + d.val * 131072 + a.val * 8192 + b.val * 512)
  | .min g d a b => some (2097158 + g.val * 268435456 + d.val * 131072 + a.val * 8192 + b.val * 512)
  | .max g d a b => some (2097159 + g.val * 268435456 + d.val * 131072 + a.val * 8192 + b.val * 512)
  | .minu g d a b => some (2097160 + g.val * 268435456 + d.val * 131072 + a.val * 8192 + b.val * 512)
  | .maxu g d a b => some (2097161 + g.val * 268435456 + d.val * 131072 + a.val * 8192 + b.val * 512)
  | .adds g d a b => some (2097162 + g.val * 268435456 + d.val * 131072 + a.val * 8192 + b.val * 512)
  | .subs g d a b => some (2097163 + g.val * 268435456 + d.val * 131072 + a.val * 8192 + b.val * 512)
  | .lea g d a b s => some (2097216 + g.val * 268435456 + d.val * 131072 + a.val * 8192 + b.val * 512 + s.toNat)
  | .mul g d a b => some (4194304 + g.val * 268435456 + d.val * 131072 + a.val * 8192 + b.val * 512)
  | .mulhi g d a b => some (4194305 + g.val * 268435456 + d.val * 131072 + a.val * 8192 + b.val * 512)
  | .mulhu g d a b => some (4194306 + g.val * 268435456 + d.val * 131072 + a.val * 8192 + b.val * 512)
  | .div g d a b => some (4194307 + g.val * 268435456 + d.val * 131072 + a.val * 8192 + b.val * 512)
  | .divu g d a b => some (4194308 + g.val * 268435456 + d.val * 131072 + a.val * 8192 + b.val * 512)
  | .rem g d a b => some (4194309 + g.val * 268435456 + d.val * 131072 + a.val * 8192 + b.val * 512)
  | .remu g d a b => some (4194310 + g.val * 268435456 + d.val * 131072 + a.val * 8192 + b.val * 512)
  | .shl g d a b => some (6291456 + g.val * 268435456 + d.val * 131072 + a.val * 8192 + b.val * 512)
  | .shr g d a b => some (6291457 + g.val * 268435456 + d.val * 131072 + a.val * 8192 + b.val * 512)
  | .sra g d a b => some (6291458 + g.val * 268435456 + d.val * 131072 + a.val * 8192 + b.val * 512)
  | .rol g d a b => some (6291459 + g.val * 268435456 + d.val * 131072 + a.val * 8192 + b.val * 512)
  | .clz g d a => some (6291460 + g.val * 268435456 + d.val * 131072 + a.val * 8192)
  | .ctz g d a => some (6291461 + g.val * 268435456 + d.val * 131072 + a.val * 8192)
  | .popc g d a => some (6291462 + g.val * 268435456 + d.val * 131072 + a.val * 8192)
  | .sext g d a s => some (6291472 + g.val * 268435456 + d.val * 131072 + a.val * 8192 + s.code)
  | .zext g d a s => some (6291480 + g.val * 268435456 + d.val * 131072 + a.val * 8192 + s.code)
  | .cmp g p a b c => some (8388624 + g.val * 268435456 + p.val * 131072 + a.val * 8192 + b.val * 512 + c.code)
  | .sel g d a b n => some (8388640 + g.val * 268435456 + d.val * 131072 + a.val * 8192 + b.val * 512 + n.val)
  | .pand g p q r => some (8388656 + g.val * 268435456 + p.val * 131072 + q.val * 8192 + r.val * 512)
  | .por g p q r => some (8388657 + g.val * 268435456 + p.val * 131072 + q.val * 8192 + r.val * 512)
  | .pxor g p q r => some (8388658 + g.val * 268435456 + p.val * 131072 + q.val * 8192 + r.val * 512)
  | .pmov g p q => some (8388659 + g.val * 268435456 + p.val * 131072 + q.val * 8192)
  | .addi g d a i => some (10485760 + g.val * 268435456 + d.val * 131072 + a.val * 8192 + i.toNat)
  | .andi g d a i => some (12582912 + g.val * 268435456 + d.val * 131072 + a.val * 8192 + i.toNat)
  | .ori g d a i => some (14680064 + g.val * 268435456 + d.val * 131072 + a.val * 8192 + i.toNat)
  | .xori g d a i => some (16777216 + g.val * 268435456 + d.val * 131072 + a.val * 8192 + i.toNat)
  | .shli g d a n => some (18874368 + g.val * 268435456 + d.val * 131072 + a.val * 8192 + n.toNat)
  | .shri g d a n => some (20971520 + g.val * 268435456 + d.val * 131072 + a.val * 8192 + n.toNat)
  | .srai g d a n => some (23068672 + g.val * 268435456 + d.val * 131072 + a.val * 8192 + n.toNat)
  | .movi g d i => some (25165824 + g.val * 268435456 + d.val * 131072 + i.toNat)
  | .movhi g d a i => some (27262976 + g.val * 268435456 + d.val * 131072 + a.val * 8192 + i.toNat)
  | .addpc g d i => some (29360128 + g.val * 268435456 + d.val * 131072 + i.toNat)
  | .cmpi g c p a i => some (33554432 + g.val * 268435456 + c.code * 2097152 + p.val * 131072 + a.val * 8192 + i.toNat)
  | .br g o => some (100663296 + g.val * 268435456 + o.toNat)
  | .call g o => some (102760448 + g.val * 268435456 + o.toNat)
  | .jr g a => some (104857600 + g.val * 268435456 + a.val * 8192)
  | .callr g a => some (104857601 + g.val * 268435456 + a.val * 8192)
  | .ret g => some (104857602 + g.val * 268435456)
  | .jtab g a b l => some (106954752 + g.val * 268435456 + a.val * 8192 + b.val * 512 + l.toNat)
  | .jmp g a i => some (109051904 + g.val * 268435456 + a.val * 8192 + i.toNat)
  | .loop g c e => some (111149056 + g.val * 268435456 + c.val * 131072 + e.toNat)
  | .loopi g n e => some (113246208 + g.val * 268435456 + n.toNat * 512 + e.toNat)
  | .nop g => some (115343360 + g.val * 268435456)
  | .lexit g => some (115343361 + g.val * 268435456)
  | .ld g d a s x o => some (117440512 + g.val * 268435456 + d.val * 131072 + a.val * 8192 + s.code * 2048 + x.toNat * 1024 + o.toNat)
  | .st g d a s o => some (119537664 + g.val * 268435456 + d.val * 131072 + a.val * 8192 + s.code * 2048 + o.toNat)
  | .lda g d a s x i => some (121634816 + g.val * 268435456 + d.val * 131072 + a.val * 8192 + s.code * 2048 + x.toNat * 1024 + i.code)
  | .stv g d a s i => some (123731968 + g.val * 268435456 + d.val * 131072 + a.val * 8192 + s.code * 2048 + i.code)
  | .ldn g d a s x o => some (125829120 + g.val * 268435456 + d.val * 131072 + a.val * 8192 + s.code * 2048 + x.toNat * 1024 + o.toNat)
  | .stn g d a s o => some (127926272 + g.val * 268435456 + d.val * 131072 + a.val * 8192 + s.code * 2048 + o.toNat)
  | .scancel g a s o => some (130023424 + g.val * 268435456 + a.val * 8192 + s.code * 2048 + o.toNat)
  | .lkup g d a => some (132120576 + g.val * 268435456 + d.val * 131072 + a.val * 8192)
  | .tagin g a b => some (132120577 + g.val * 268435456 + a.val * 8192 + b.val * 512)
  | .tagout g d a => some (132120578 + g.val * 268435456 + d.val * 131072 + a.val * 8192)
  | .ldaq g d a c z x o => some (134217728 + g.val * 268435456 + d.val * 131072 + a.val * 8192 + c.code * 2048 + z.code * 1024 + x.toNat * 512 + o.toNat)
  | .strl g d a c z o => some (136314880 + g.val * 268435456 + d.val * 131072 + a.val * 8192 + c.code * 2048 + z.code * 1024 + o.toNat)
  | .fenceFull g c => some (138412032 + g.val * 268435456 + c.code * 128)
  | .fenceAcq g c => some (138412033 + g.val * 268435456 + c.code * 128)
  | .fenceRel g c => some (138412034 + g.val * 268435456 + c.code * 128)
  | .stsync g c => some (140509184 + g.val * 268435456 + c.code * 128)
  | .rsv g d a s o => some (142610432 + g.val * 268435456 + d.val * 131072 + a.val * 8192 + s.code * 2048 + o.toNat)
  | .rls g d a s o => some (144707584 + g.val * 268435456 + d.val * 131072 + a.val * 8192 + s.code * 2048 + o.toNat)
  | .rlsn g a s o => some (146804736 + g.val * 268435456 + a.val * 8192 + s.code * 2048 + o.toNat)
  | .lamo g d a b o s => some (148897792 + g.val * 268435456 + d.val * 131072 + a.val * 8192 + b.val * 512 + o.code * 64 + s.code * 32)
  | .mon g a => some (150994944 + g.val * 268435456 + a.val * 8192)
  | .mwait g d a => some (150994945 + g.val * 268435456 + d.val * 131072 + a.val * 8192)
  | .moff g a => some (150994946 + g.val * 268435456 + a.val * 8192)
  | .bari g a b => some (153092096 + g.val * 268435456 + a.val * 8192 + b.val * 512)
  | .bara g d a => some (153092097 + g.val * 268435456 + d.val * 131072 + a.val * 8192)
  | .bard g d a => some (153092098 + g.val * 268435456 + d.val * 131072 + a.val * 8192)
  | .barw g a b => some (153092099 + g.val * 268435456 + a.val * 8192 + b.val * 512)
  | .exit g => some (159383552 + g.val * 268435456)
  | .yield g => some (159383553 + g.val * 268435456)
  | .anchor g => some (159383554 + g.val * 268435456)
  | .roam g => some (159383555 + g.val * 268435456)
  | .migr g a => some (159383556 + g.val * 268435456 + a.val * 8192)
  | .who g d => some (159383557 + g.val * 268435456 + d.val * 131072)
  | .sleep g a => some (159383558 + g.val * 268435456 + a.val * 8192)
  | .spawn g d a b => some (159383559 + g.val * 268435456 + d.val * 131072 + a.val * 8192 + b.val * 512)
  | .tnext g => some (159383560 + g.val * 268435456)
  | .twait g d a b => some (159383561 + g.val * 268435456 + d.val * 131072 + a.val * 8192 + b.val * 512)
  | .send g p a b h => some (161480704 + g.val * 268435456 + p.val * 131072 + a.val * 8192 + b.val * 512 + h.toNat * 256)
  | .inbox g d a => some (161480705 + g.val * 268435456 + d.val * 131072 + a.val * 8192)
  | .ipeek g d => some (161480706 + g.val * 268435456 + d.val * 131072)
  | .launch g p a z => some (163577856 + g.val * 268435456 + p.val * 131072 + a.val * 8192 + z.toNat)
  | .vadd g d a b t r => some (176160768 + g.val * 268435456 + d.val * 131072 + a.val * 8192 + b.val * 512 + t.code * 32 + r.code * 4)
  | .vsub g d a b t r => some (178257920 + g.val * 268435456 + d.val * 131072 + a.val * 8192 + b.val * 512 + t.code * 32 + r.code * 4)
  | .vmul g d a b t r => some (180355072 + g.val * 268435456 + d.val * 131072 + a.val * 8192 + b.val * 512 + t.code * 32 + r.code * 4)
  | .vfma g d a b t r => some (182452224 + g.val * 268435456 + d.val * 131072 + a.val * 8192 + b.val * 512 + t.code * 32 + r.code * 4)
  | .vmin g d a b t r => some (184549376 + g.val * 268435456 + d.val * 131072 + a.val * 8192 + b.val * 512 + t.code * 32 + r.code * 4)
  | .vmax g d a b t r => some (186646528 + g.val * 268435456 + d.val * 131072 + a.val * 8192 + b.val * 512 + t.code * 32 + r.code * 4)
  | .vabs g d a t => some (188743680 + g.val * 268435456 + d.val * 131072 + a.val * 8192 + t.code * 32)
  | .vneg g d a t => some (188743681 + g.val * 268435456 + d.val * 131072 + a.val * 8192 + t.code * 32)
  | .vand g d a b t => some (190840832 + g.val * 268435456 + d.val * 131072 + a.val * 8192 + b.val * 512 + t.code * 32)
  | .vor g d a b t => some (190840833 + g.val * 268435456 + d.val * 131072 + a.val * 8192 + b.val * 512 + t.code * 32)
  | .vxor g d a b t => some (190840834 + g.val * 268435456 + d.val * 131072 + a.val * 8192 + b.val * 512 + t.code * 32)
  | .vshl g d a b t => some (192937984 + g.val * 268435456 + d.val * 131072 + a.val * 8192 + b.val * 512 + t.code * 32)
  | .vshr g d a b t => some (192937985 + g.val * 268435456 + d.val * 131072 + a.val * 8192 + b.val * 512 + t.code * 32)
  | .vsra g d a b t => some (192937986 + g.val * 268435456 + d.val * 131072 + a.val * 8192 + b.val * 512 + t.code * 32)
  | .vcmp g d a b t c => some (195035136 + g.val * 268435456 + d.val * 131072 + a.val * 8192 + b.val * 512 + t.code * 32 + c.code * 4)
  | .vsel g d a b t => some (197132288 + g.val * 268435456 + d.val * 131072 + a.val * 8192 + b.val * 512 + t.code * 32)
  | .vcvt g d a s t r => some (199229440 + g.val * 268435456 + d.val * 131072 + a.val * 8192 + s.code * 512 + t.code * 32 + r.code * 4)
  | .vscl g d a b t r => some (201326592 + g.val * 268435456 + d.val * 131072 + a.val * 8192 + b.val * 512 + t.code * 32 + r.code * 4)
  | .vreds g d a t r => some (203423744 + g.val * 268435456 + d.val * 131072 + a.val * 8192 + t.code * 32 + r.code * 4)
  | .vredm g d a t => some (203423745 + g.val * 268435456 + d.val * 131072 + a.val * 8192 + t.code * 32)
  | .vexp2 g d a t r => some (205520896 + g.val * 268435456 + d.val * 131072 + a.val * 8192 + t.code * 32 + r.code * 4)
  | .vlog2 g d a t r => some (205520897 + g.val * 268435456 + d.val * 131072 + a.val * 8192 + t.code * 32 + r.code * 4)
  | .vrcp g d a t r => some (205520898 + g.val * 268435456 + d.val * 131072 + a.val * 8192 + t.code * 32 + r.code * 4)
  | .vrsq g d a t r => some (205520899 + g.val * 268435456 + d.val * 131072 + a.val * 8192 + t.code * 32 + r.code * 4)
  | .vdot g d a b t r => some (207618048 + g.val * 268435456 + d.val * 131072 + a.val * 8192 + b.val * 512 + t.code * 32 + r.code * 4)
  | .vbc g d a t => some (209715200 + g.val * 268435456 + d.val * 131072 + a.val * 8192 + t.code * 32)
  | .vext g d a b t => some (209715201 + g.val * 268435456 + d.val * 131072 + a.val * 8192 + b.val * 512 + t.code * 32)
  | .vins g d a b t => some (209715202 + g.val * 268435456 + d.val * 131072 + a.val * 8192 + b.val * 512 + t.code * 32)
  | .vperm g d a b t => some (209715203 + g.val * 268435456 + d.val * 131072 + a.val * 8192 + b.val * 512 + t.code * 32)
  | .vld g d a t => some (211812352 + g.val * 268435456 + d.val * 131072 + a.val * 8192 + t.code * 32)
  | .vst g d a t => some (213909504 + g.val * 268435456 + d.val * 131072 + a.val * 8192 + t.code * 32)
  | .vldx g d a b t => some (216006656 + g.val * 268435456 + d.val * 131072 + a.val * 8192 + b.val * 512 + t.code * 32)
  | .vstx g d a b t => some (218103808 + g.val * 268435456 + d.val * 131072 + a.val * 8192 + b.val * 512 + t.code * 32)
  | .vlen g d a t => some (220200960 + g.val * 268435456 + d.val * 131072 + a.val * 8192 + t.code * 32)
  | .vmov g d a t => some (220200961 + g.val * 268435456 + d.val * 131072 + a.val * 8192 + t.code * 32)
  | .viota g d t => some (220200962 + g.val * 268435456 + d.val * 131072 + t.code * 32)
  | .kset g k a => some (226492416 + g.val * 268435456 + k.val * 131072 + a.val * 8192)
  | .trun g a => some (228589568 + g.val * 268435456 + a.val * 8192)
  | .tstat g d => some (228589569 + g.val * 268435456 + d.val * 131072)
  | .hnew g d a b => some (230686720 + g.val * 268435456 + d.val * 131072 + a.val * 8192 + b.val * 512)
  | .hdel g a => some (230686721 + g.val * 268435456 + a.val * 8192)
  | .cpy g p a => some (234881024 + g.val * 268435456 + p.val * 131072 + a.val * 8192)
  | .cpyr g p a => some (236978176 + g.val * 268435456 + p.val * 131072 + a.val * 8192)
  | .fill g p a => some (239075328 + g.val * 268435456 + p.val * 131072 + a.val * 8192)
  | .collReduce g p a t r => some (241172480 + g.val * 268435456 + p.val * 131072 + a.val * 8192 + t.code * 4 + r.code)
  | .collAllreduce g p a t r => some (241172544 + g.val * 268435456 + p.val * 131072 + a.val * 8192 + t.code * 4 + r.code)
  | .collRscatter g p a t r => some (241172608 + g.val * 268435456 + p.val * 131072 + a.val * 8192 + t.code * 4 + r.code)
  | .collAllgather g p a t => some (241172672 + g.val * 268435456 + p.val * 131072 + a.val * 8192 + t.code * 4)
  | .mask g p a => some (243269632 + g.val * 268435456 + p.val * 131072 + a.val * 8192)
  | .padv g d a b => some (243269633 + g.val * 268435456 + d.val * 131072 + a.val * 8192 + b.val * 512)
  | .sample g d a p => some (245366784 + g.val * 268435456 + d.val * 131072 + a.val * 8192 + p.val * 512)
  | .argmx g d a p => some (245366785 + g.val * 268435456 + d.val * 131072 + a.val * 8192 + p.val * 512)
  | .tryPoint g d a b => some (247463936 + g.val * 268435456 + d.val * 131072 + a.val * 8192 + b.val * 512)
  | .fail g => some (247463937 + g.val * 268435456)
  | .cut g a => some (247463938 + g.val * 268435456 + a.val * 8192)
  | .cpd g d => some (247463939 + g.val * 268435456 + d.val * 131072)
  | .steal g p a => some (249561088 + g.val * 268435456 + p.val * 131072 + a.val * 8192)
  | .commit g => some (249561089 + g.val * 268435456)
  | .ecnt g a b => some (251658240 + g.val * 268435456 + a.val * 8192 + b.val * 512)
  | .rlook g d a b => some (251658241 + g.val * 268435456 + d.val * 131072 + a.val * 8192 + b.val * 512)
  | .rpub g a b => some (251658242 + g.val * 268435456 + a.val * 8192 + b.val * 512)
  | .rret g a b => some (251658243 + g.val * 268435456 + a.val * 8192 + b.val * 512)
  | .rcopy g p a => some (253755392 + g.val * 268435456 + p.val * 131072 + a.val * 8192)
  | .rmerge g p a => some (253755393 + g.val * 268435456 + p.val * 131072 + a.val * 8192)
  | .rstat g d a => some (253755394 + g.val * 268435456 + d.val * 131072 + a.val * 8192)
  | .trap g n => some (255852544 + g.val * 268435456 + n.toNat)
  | .brk g n => some (257949696 + g.val * 268435456 + n.toNat)
  | .mfsr g d n => some (260046848 + g.val * 268435456 + d.val * 131072 + n.toNat)
  | .mtsr g a n => some (262144000 + g.val * 268435456 + a.val * 8192 + n.toNat)
  | .eret g => some (264241152 + g.val * 268435456)
  | .segld g s a => some (264241153 + g.val * 268435456 + s.val * 131072 + a.val * 8192)
  | .pginv g a => some (264241154 + g.val * 268435456 + a.val * 8192)
  | .idle g => some (264241155 + g.val * 268435456)
  | .circ g p a => some (264241156 + g.val * 268435456 + p.val * 131072 + a.val * 8192)
  | .slotsv g d a => some (264241157 + g.val * 268435456 + d.val * 131072 + a.val * 8192)
  | .slotld g d a => some (264241158 + g.val * 268435456 + d.val * 131072 + a.val * 8192)
  | .stopat g p a => some (266338304 + g.val * 268435456 + p.val * 131072 + a.val * 8192)
  | .freqat g p a b => some (266338305 + g.val * 268435456 + p.val * 131072 + a.val * 8192 + b.val * 512)
  | .dividerDone _ => none
  | .drainToken _ => none
  | .invalidation _ => none
  | .rsvResend _ => none
  | .abandonPacket _ => none
  | .monitorNotice _ => none
  | .mwaitTimeout _ => none
  | .barrierRegistration _ => none
  | .barrierArrival _ => none
  | .barrierCompletion _ => none
  | .sleepExpiry _ => none
  | .yieldExpiry _ => none
  | .messageDelivery _ => none
  | .messageRetry _ => none
  | .handlerStart _ _ => none
  | .migrationArrival _ => none
  | .remoteRequest _ => none
  | .replyArrival _ => none
  | .wakeMessage _ => none
  | .pageFaultReissue _ => none
  | .pageFaultResolve _ _ => none
  | .launchTake _ => none
  | .crewStart _ _ _ => none
  | .idleSpill _ => none
  | .mldb _ _ _ _ _ _ _ _ => none
  | .mlda _ _ _ _ _ _ _ => none
  | .mma _ _ _ => none
  | .mzero _ _ => none
  | .mst _ _ _ _ _ _ _ => none
  | .mscl _ _ _ _ => none
  | .mfmt _ _ _ => none
  | .mrep _ _ => none
  | .mend => none
  | .garnetTokenHop _ _ => none
  | .cpyExecute _ => none
  | .cpyrExecute _ => none
  | .fillExecute _ => none
  | .collExecute _ => none
  | .maskWalk _ => none
  | .killMessage _ => none
  | .thiefRelease _ => none
  | .ecntUpdate _ => none
  | .rcopyExecute _ => none
  | .rmergeExecute _ => none
  | .stopatRequest _ => none
  | .quartzStep _ => none
  | .elasticStep _ => none
  | .dieUnreachable _ => none
  | .storeArrival _ => none
  | .partitionStop _ => none
  | .partitionResume _ => none
  | .frequencySwitch => none
  | .powerPoolRefill => none
  | .clockStretch _ => none
  | .coldReset _ _ _ => none
  | .referenceLockLoss => none
  | .linkFailure _ _ _ _ => none
  | .flitTransmit _ _ => none
  | .flitReceive _ _ _ _ _ _ _ => none
  | .portTune _ => none
  | .portPark _ => none
  | .portWake _ => none
  | .laneTuneDone _ _ => none
  | .laneWakeDone _ _ => none
  | .laneAutoPark _ => none
  | .laneAutoWake _ => none
  | .heaterService _ => none
  | .hostMemRead _ _ => none
  | .hostMemWrite _ _ _ _ => none
  | .hostAtomic _ _ _ _ _ => none
  | .kick _ _ => none
  | .cqrWrite _ _ => none
  | .pginvh _ => none
  | .faultRecordRemove _ _ => none
  | .monarchRecordRemove _ _ => none
  | .fabricFaultRetry => none
  | .fabricFaultAbandon => none
  | .keyLoad _ => none
  | .keyLoadDone => none
  | .attestRequest _ => none
  | .attestReportReady => none
  | .connectionCommit _ => none
  | .resumeRequest _ _ => none
  | .fpcntAdd _ _ => none
  | .partitionCreate _ _ => none
  | .partitionDissolve _ _ => none
  | .registerWrite _ _ _ => none
  | .flushToken _ => none
  | .replayRequest _ _ _ => none

/-- Steps 1 and 2 of decode (R56): the instruction a 32-bit word is, or none (ILLEGAL-OP). -/
def decode (w : Nat) : Option Instr :=
  (decodeRaw w).filter fun i => i.wf && encodeWord i == some w

/-- An extent code (R70). -/
def Ext.code : Ext → Nat
  | .one => 8
  | .k r => r.val

/-- An extent code read back; codes above 1000 are reserved (R70). -/
def Ext.ofCode (c : Nat) : Option Ext :=
  if c < 8 then some (.k (.ofNat 8 c)) else if c = 8 then some .one else none

/-- An instant field (R72). -/
def InstField.code : InstField → Nat
  | .dflt => 0
  | .rel n => 16384 + n.toNat
  | .now n => 32768 + n.toNat

/-- An instant field read back; form 11 is reserved and the default form holds 0 (R72). -/
def InstField.ofCode (c : Nat) : Option InstField :=
  if c = 0 then some .dflt
  else if c / 16384 = 1 then some (.rel (.ofNat 14 c))
  else if c / 16384 = 2 then some (.now (.ofNat 14 c))
  else none

/-- MFMT's fmt field (R274): a rounding code, or 1111 where none is written. -/
def mfmtCode : Option Rnd → Nat
  | none => 15
  | some r => r.code

/-- MFMT's fmt field read back: 0101 to 1110 name nothing (R274). -/
def mfmtOfCode (c : Nat) : Option (Option Rnd) :=
  if c = 15 then some none else if c < 5 then (Rnd.ofCode c).map some else none

/-- MFMT's flags [2:1] (R274): sat given, and its value. -/
def satCode : Option Bool → Nat
  | none => 0
  | some b => 2 + b.toNat

/-- MFMT's flags [2:1] read back. -/
def satOfCode (c : Nat) : Option (Option Bool) :=
  if c = 0 then some none else if c = 2 then some (some false) else if c = 3 then some (some true) else none

/-- The tile command word with its fields in place (R70); h1 and h2 are 0 in every command (R274). -/
def tileWord (topc flags h0 km kn kk fmt sca scb rdi vsi : Nat) : Nat :=
  topc * 2 ^ 248 + flags * 2 ^ 240 + h0 * 2 ^ 208 + km * 2 ^ 140 + kn * 2 ^ 136 + kk * 2 ^ 132 + fmt * 2 ^ 128
    + sca * 2 ^ 80 + scb * 2 ^ 32 + rdi * 2 ^ 16 + vsi

/-- Field [lo + len - 1 : lo] of a word. -/
def field (w lo len : Nat) : Nat := w / 2 ^ lo % 2 ^ len

/-- A tile command word's command, before the check that nothing else is set (R71, R274). -/
def decodeTileRaw (w : Nat) : Option Instr :=
  let flags := field w 240 4
  let h0 := BitVec.ofNat 32 (field w 208 32)
  let sca := BitVec.ofNat 48 (field w 80 48)
  let scb := BitVec.ofNat 48 (field w 32 48)
  match field w 248 8 with
  | 1 =>
    (Ext.ofCode (field w 136 4)).bind fun n => (Ext.ofCode (field w 132 4)).bind fun k =>
    (Elem.ofCode (field w 128 4)).bind fun fmt => (InstField.ofCode (field w 16 16)).bind fun rdi =>
    some (.mldb h0 (flags % 2 == 1) n k fmt (flags / 2 % 2 == 1) scb rdi)
  | 2 =>
    (Ext.ofCode (field w 140 4)).bind fun m => (Ext.ofCode (field w 132 4)).bind fun k =>
    (Elem.ofCode (field w 128 4)).bind fun fmt => (InstField.ofCode (field w 16 16)).bind fun rdi =>
    some (.mlda h0 m k fmt (flags / 2 % 2 == 1) sca rdi)
  | 3 =>
    (Ext.ofCode (field w 140 4)).bind fun m => (Ext.ofCode (field w 136 4)).bind fun n =>
    some (.mma m n (.ofNat 2 flags))
  | 4 =>
    (Ext.ofCode (field w 140 4)).bind fun m => (Ext.ofCode (field w 136 4)).bind fun n => some (.mzero m n)
  | 5 =>
    (Ext.ofCode (field w 140 4)).bind fun m => (Ext.ofCode (field w 136 4)).bind fun n =>
    (Elem.ofCode (field w 128 4)).bind fun fmt => (InstField.ofCode (field w 0 16)).bind fun vsi =>
    some (.mst h0 m n fmt (flags % 2 == 1) sca vsi)
  | 6 =>
    (Ext.ofCode (field w 140 4)).bind fun m => (Ext.ofCode (field w 136 4)).bind fun n => some (.mscl m n sca scb)
  | 7 =>
    (mfmtOfCode (field w 128 4)).bind fun rnd => (satOfCode (flags / 2 % 4)).bind fun sat =>
    some (.mfmt rnd (flags % 2 == 1) sat)
  | 8 => (Ext.ofCode (field w 140 4)).bind fun c => some (.mrep c h0)
  | 9 => some .mend
  | _ => none

/-- The 256-bit word of a tile command (R70, R274). -/
def encodeTile : Instr → Option Nat
  | .mldb h mac n k fmt tag scb rdi =>
    some (tileWord 1 (mac.toNat + 2 * tag.toNat) h.toNat 8 n.code k.code fmt.code 0 scb.toNat rdi.code 0)
  | .mlda h m k fmt tag sca rdi =>
    some (tileWord 2 (2 * tag.toNat) h.toNat m.code 8 k.code fmt.code sca.toNat 0 rdi.code 0)
  | .mma m n macs => some (tileWord 3 macs.toNat 0 m.code n.code 8 0 0 0 0 0)
  | .mzero m n => some (tileWord 4 0 0 m.code n.code 8 0 0 0 0 0)
  | .mst h m n fmt clr sc vsi =>
    some (tileWord 5 clr.toNat h.toNat m.code n.code 8 fmt.code sc.toNat 0 0 vsi.code)
  | .mscl m n sr sc => some (tileWord 6 0 0 m.code n.code 8 0 sr.toNat sc.toNat 0 0)
  | .mfmt rnd wide sat => some (tileWord 7 (wide.toNat + 2 * satCode sat) 0 8 8 8 (mfmtCode rnd) 0 0 0 0)
  | .mrep c len => some (tileWord 8 0 len.toNat c.code 8 8 0 0 0 0 0)
  | .mend => some (tileWord 9 0 0 0 0 0 0 0 0 0 0)
  | _ => none

/-- The tile command a 256-bit word is, or none (R71: ILLEGAL-OP). -/
def decodeTile (w : Nat) : Option Instr :=
  (decodeTileRaw w).filter fun i => i.wf && encodeTile i == some w

/-- The instruction the decoder reads from `nbits` bits numbered as spec/opcode_table.json numbers them: a
32-bit word of R54 or a 256-bit tile command word of R70, each little-endian. -/
def decodeTableWord (nbits w : Nat) : Option Instr :=
  if nbits ≤ 32 then decode w else decodeTile w

/-- The words of an instruction: its bits and their number; none for a step that has no words. -/
def encode (i : Instr) : Option (Nat × Nat) :=
  match encodeWord i with
  | some w => some (32, w)
  | none => (encodeTile i).map fun w => (256, w)

end Sys2Proof
end

