-- ==== Sys2Proof/Machine/Table.lean ====
section
/-! DEFINITION. Sparse data by key: a list of (key, value) pairs with keys strictly rising. A key that is not listed
reads as the default of its table. `Table` holds units and slots, `Mem` the bytes of memory: a byte written
with what an unlisted address reads as is not listed, so equal memories are equal lists. -/

namespace Sys2Proof.Machine

/-- Units by number: listed once they have been written. -/
abbrev Table (α : Type) := List (Nat × α)

/-- What a key reads as: `d` when it is not listed. -/
def Table.get {α : Type} (d : α) : Table α → Nat → α
  | [], _ => d
  | (k, v) :: r, n => if n < k then d else if n = k then v else Table.get d r n

/-- Writes a key. -/
def Table.set {α : Type} : Table α → Nat → α → Table α
  | [], n, x => [(n, x)]
  | (k, v) :: r, n, x =>
    if n < k then (n, x) :: (k, v) :: r
    else if n = k then (n, x) :: r
    else (k, v) :: Table.set r n x

/-- Removes a key. -/
def Table.drop {α : Type} (t : Table α) (n : Nat) : Table α := t.filter fun e => e.1 != n

/-- Physical memory (log entry 3): the bytes that are not `unlisted`. -/
abbrev Mem := List Host.Cell

/-- What a byte that nothing has written reads as (DESIGN CHOICE, log entry 3). -/
def unlisted : Byte := 0

/-- One byte of memory. -/
def Mem.byte : Mem → Nat → Byte
  | [], _ => unlisted
  | (k, v) :: r, n => if n < k then unlisted else if n = k then v else Mem.byte r n

/-- The list without its leading entries at keys up to `n`. -/
def Mem.above (n : Nat) : Mem → Mem
  | [] => []
  | (k, v) :: r => if k ≤ n then Mem.above n r else (k, v) :: r

/-- Writes one byte, keeping the canonical form. -/
def Mem.put : Mem → Nat → Byte → Mem
  | [], n, x => if x = unlisted then [] else [(n, x)]
  | (k, v) :: r, n, x =>
    if n < k then (if x = unlisted then (k, v) :: r else (n, x) :: (k, v) :: r)
    else if n = k then (if x = unlisted then Mem.above n r else (n, x) :: r)
    else (k, v) :: Mem.put r n x

/-- The canonical form: keys strictly rising and no entry equal to what an unlisted address reads as. -/
def Mem.wf : Mem → Bool
  | [] => true
  | [(_, v)] => v != unlisted
  | (k, v) :: (k', v') :: r => v != unlisted && decide (k < k') && Mem.wf ((k', v') :: r)

/-- The `n` bytes from address `a`, little-endian (R6): the byte at the lowest address holds bits [7:0]. -/
def Mem.read (m : Mem) (a : Nat) : Nat → Nat
  | 0 => 0
  | n + 1 => (m.byte a).toNat + 256 * Mem.read m (a + 1) n

/-- Writes the low `n` bytes of `x` from address `a`, little-endian (R6). -/
def Mem.write (m : Mem) (a : Nat) : Nat → Nat → Mem
  | 0, _ => m
  | n + 1, x => Mem.write (m.put a (.ofNat 8 x)) (a + 1) n (x / 256)

/-- Zeroes `n` bytes from address `a`. -/
def Mem.clear (m : Mem) (a n : Nat) : Mem := m.filter fun c => decide (c.1 < a) || decide (a + n ≤ c.1)

/-- Writes those of the `n` bytes of `x` whose bit of `mask` is 1. -/
def Mem.writeMasked (m : Mem) (a : Nat) : Nat → Nat → Nat → Mem
  | 0, _, _ => m
  | n + 1, mask, x =>
    Mem.writeMasked (if mask % 2 = 1 then m.put a (.ofNat 8 x) else m) (a + 1) n (mask / 2) (x / 256)

end Sys2Proof.Machine
end

