-- ==== Sys2Proof/Machine/State.lean ====
section
/-! DEFINITION. Everything the spec gives one device of a pod, as plain data (INVENTORY.md, State). Slots are keyed
by core × 16 + slot, cores by global core index (R10), ports and routers by cluster 0 to 127, dies by 0 to 7.
A physical byte address is core × 2^19 + offset in a local store, 2^40 + die × 2^29 + offset in an SRAM die,
2^41 + die × 2^36 + offset in a DRAM stack. -/

namespace Sys2Proof.Machine

/-! ## The thread context and the slot -/

/-- A segment register (R134). A LIMIT of 0 marks an empty register. -/
structure Seg where
  base : Word := 0
  limit : BitVec 48 := 0
  rights : BitVec 7 := 0
  deriving DecidableEq, Repr

/-- A register window g8 to g15 (R120). -/
abbrev Window := Vector Word 8

/-- The hardware loop stack (R125): four entries of C, L and E. -/
abbrev Loops := Vector Half 4

/-- The context of a thread, which migrates with it (R12). -/
structure Ctx where
  g : Vector Word 16 := .replicate 16 0
  p : Byte := 0
  mode : Byte := 0
  pc : Word := 0
  rel : Instant := 0
  vis : Instant := 0
  ord : Instant := 0
  sel : Vector Byte 8 := .replicate 8 0
  wsp : Word := 0
  loops : Loops := .replicate 4 0
  deriving DecidableEq, Repr

/-- Where a trail entry undoes to (R75, R333). -/
inductive TrailAt
  | greg (n : Reg)
  | pred (n : Pred)
  | arena (va : Word) (z : Size)
  deriving DecidableEq, Repr

/-- A trail entry: the place and the value before the write (R75); for g8 to g15 the frame address of the window that was written
(R124, R341). -/
structure TrailEnt where
  at_ : TrailAt
  old : Word
  wf : Option Word := none
  deriving DecidableEq, Repr

/-- A choice point (R334). -/
structure Point where
  tab : Word
  thf : BitVec 16
  next : Nat
  naltm : Nat
  dreg : Reg
  prov : Nat
  wf : Word
  loops : Loops
  trl : Nat
  deriving DecidableEq, Repr

/-- An armed monitor (R205): the line as the thread names it, its line at the home, and the fired flag. -/
structure Monitor where
  line : Word
  home : Nat
  fired : Bool
  deriving DecidableEq, Repr

/-- What a waiting instruction does with its reply (R159): the rest of its effect. -/
inductive Finish
  /-- LD, LDA, LDN, LDAQ: the value to g[d], extended. -/
  | load (d : Reg) (z : Size) (x : Bool)
  /-- STN, STRL, SCANCEL, VST to the Now domain: nothing more. -/
  | done
  /-- ST, STV, VST to the Instant domain (R161): ORD[15:0] + 1, and the slipped flag. -/
  | accepted
  /-- RLOOK (R355): the expert and the hash. -/
  | rlook (d : Reg) (e h : Word)
  /-- JTAB (R118). -/
  | jtab
  /-- RET that reloads a window (R123). -/
  | reload
  /-- A spill to another device (R121): the instruction goes on once the window has left the cache. -/
  | spilled
  /-- RSV (R198). -/
  | rsv (d : Reg)
  /-- RLS, RLSN (R199). -/
  | rls
  /-- MON (R206). -/
  | mon (line : Word)
  /-- VLD (R257): n bytes. -/
  | vld (d : Reg) (n : Nat)
  /-- A lane of VLDX or VSTX (R258), of z bytes: the instruction goes on with the next one. -/
  | lane (z : Nat)
  /-- SEND (R238): the answer to p[d]. -/
  | send (d : Pred)
  /-- STOPAT (R388): the answer to p[d]. -/
  | stopat (d : Pred)
  /-- A doubleword of RSTAT's record (R362), which goes back to the queue if its write fails. -/
  | record (r : Nat)
  /-- INBOX and TWAIT (R238): the message's header to g[d], once the message is written and taken. -/
  | took (d : Reg) (m : Vec)
  /-- A block read by request: the instruction goes on with it (R294). -/
  | block
  /-- A segment table entry read by request (R378): every failure but a page fault is SEG-BOUND with its address. -/
  | entry (va : Word)
  /-- A fetch made by request: the word becomes the word in progress (R54). -/
  | fetch
  /-- An entry read for a segment register of a thread that has just come, from a table on another device (R378). -/
  | segs
  /-- A line of a tile list read by request, from the list's word `idx` on (R71): its failures stand in TSTATUS. -/
  | line (idx : Nat)
  /-- What another device's translating port answers before a thread migrates there (R139): whether the page is strongly
  ordered (R141). -/
  | route
  deriving DecidableEq, Repr

/-- Why a slot is out of the rotation (R217). -/
inductive Wait
  /-- A reply or acknowledgement (R159). -/
  | reply
  /-- version_at, TRUN or an engine block held for an instant (R74). -/
  | instant (i : Instant)
  /-- Drain tokens still missing (R172). -/
  | drain (n : Nat)
  /-- Invalidations not acknowledged (R171). -/
  | settle
  /-- The divider (R99). -/
  | divider
  /-- SLEEP, to a reference count (R236). -/
  | sleep (t : Nat)
  /-- YIELD, to a cycle (R236). -/
  | yield (c : Nat)
  /-- A reservation request to be sent again (R198). -/
  | resend (t : Nat)
  /-- MWAIT, with its timeout (R207). -/
  | monitor (t : Option Nat)
  /-- INBOX (R238). -/
  | inbox
  /-- TWAIT for a header key (R238). -/
  | key (k : BitVec 61)
  /-- BARI (R210). -/
  | opening (ctx : Nat)
  /-- BARW (R212). -/
  | phase (ctx : Nat) (q : BitVec 16)
  /-- TRUN while its list runs (R282). -/
  | list
  /-- TRUN while another list runs (R262). -/
  | array
  /-- IDLE (R380). -/
  | idle
  /-- A full provisional buffer (R336). -/
  | provisional
  /-- Provisional entries on their way (R337). -/
  | sending
  /-- A bound thief in EXIT (R345). -/
  | bound
  /-- STSYNC (R176). -/
  | stsync
  /-- A MASK, PADV or other unit's answer (R319). -/
  | unit
  deriving DecidableEq, Repr

/-- The states of a slot (R217). A dropped thread waits for its wake; with a reference count it reissues by itself
then (R142, a refused fault). -/
inductive Run
  | free
  | runnable
  | waiting (w : Wait)
  | dropped (retry : Option Nat)
  | held
  deriving DecidableEq, Repr

/-- How far the instruction in progress has come. -/
structure Prog where
  /-- The word in progress: the next issue of the slot performs it, with no fetch. -/
  word : Option Nat := none
  /-- The word at its PC, which a request has read: the next issue decodes it (R56, R69). -/
  fetched : Option Nat := none
  /-- Its drain has ended (R172). -/
  drained : Bool := false
  /-- The instant it named (R160). -/
  inst : Option Instant := none
  /-- What it does with its reply. -/
  fin : Option Finish := none
  /-- The blocks it has read, in order (R238, R294). -/
  got : List Vec := []
  /-- The victim and its point that a STEAL in progress holds (R344). -/
  theft : Option (Nat × Nat) := none
  /-- The cycle at which a provisional store or a STEAL that waits was issued (R336, R346). -/
  since : Option Nat := none
  /-- MSK.TRAP as SAMPLE or ARGMX has sampled it (R326). -/
  msk : Option Bool := none
  /-- Lanes of VLDX or VSTX that have been made, and what VLDX has read (R258). -/
  lanes : Nat := 0
  read : Nat := 0
  /-- MWAIT's deadline, and an interrupt that ended it (R207). -/
  deadline : Option Nat := none
  int : Bool := false
  /-- Discards of the provisional entries it sent: the first one's cause and address (R337). -/
  lost : Option (Byte × Word) := none
  /-- What the word raises in place of its effect: its transfer came back (R372, R418). -/
  fault : Option (Byte × Word) := none
  /-- What another device's translating port has answered: the page is strongly ordered (R139, R141). -/
  route : Option Bool := none
  deriving DecidableEq, Repr

/-- A slot (R216, R217): the thread it holds and the state that never migrates. -/
structure Slot where
  ctx : Ctx := {}
  seg : Vector Seg 8 := .replicate 8 {}
  v : Vector Vec 16 := .replicate 16 0
  vl : Byte := 128
  k : Vector Half 8 := .replicate 8 0
  /-- Older windows cached, newest first, at most four (R120). -/
  windows : List Window := []
  /-- The loop stack a trap set aside (R132). -/
  aside : Loops := .replicate 4 0
  tstatus : Word := 0
  status : Word := 0
  cause : Byte := 0
  epc : Word := 0
  tval : Word := 0
  sscr0 : Word := 0
  sscr1 : Word := 0
  monitors : Vector (Option Monitor) 4 := .replicate 4 none
  /-- Invalidations its writes caused and that are not acknowledged (R171). -/
  unacked : Nat := 0
  /-- The choice stack, newest first (R331). -/
  points : List Point := []
  /-- The hardware trail, newest first (R331). -/
  trail : List TrailEnt := []
  /-- Entries in the trail tail, newest first (R333): the window that each one wrote. -/
  tail : List (Option Word) := []
  /-- A bound thief's victim slot and point (R345). -/
  bind : Option (Nat × Nat) := none
  run : Run := .free
  part : Fin 8 := 0
  /-- The launch and the task index of the thread's task (R230); none in the message slot. -/
  task : Option (Nat × Nat) := none
  spawned : Bool := false
  /-- It runs a message handler (R222), with its issues counted (R224). -/
  handler : Bool := false
  hcount : Nat := 0
  /-- The engine commands it has issued, by their stamps (R176). -/
  cmds : List Nat := []
  /-- The first cycle of its region in which it may issue (R18). -/
  ready : Nat := 0
  /-- Threads of the slot that ended while another device owed them an answer (R345). -/
  gen : Nat := 0
  /-- Words fetched ahead (R69, R175): lines of code by address, as they were when they were fetched. -/
  ahead : List (Word × Vec) := []
  /-- Its segment registers are still to be loaded (R378). -/
  unloaded : Bool := false
  prog : Prog := {}
  deriving DecidableEq, Repr

/-! ## Packets in flight (R219) -/

/-- Where an access is performed: a physical address and its home core. -/
structure Place where
  phys : Nat
  home : Nat
  /-- Strongly ordered (R141). -/
  so : Bool
  deriving DecidableEq, Repr

/-- How a read takes part in the router's remote-line buffer (R169): not at all, by filling it, or by replacing an
entry (LDAQ). -/
inductive ReadMode | plain | fill | replace
  deriving DecidableEq, Repr

/-- What a reply does to the remote-line buffer of the router it passes (R169, R170, log entry 10). -/
inductive LineNote
  | none
  /-- Nothing, but it keeps its place among the replies and invalidations of a line. -/
  | plain (line : Nat)
  /-- Nothing: it comes from a core. -/
  | core (c : Nat)
  | fill (vline : Word) (line : Nat) (data : Vec)
  | replace (vline : Word) (line : Nat) (data : Vec)
  | purge (line : Nat)
  deriving DecidableEq, Repr

/-- A shape descriptor (R270) with its base: extents, pitches and format. -/
structure Shape where
  fmt : Elem
  e0 : Nat
  e1 : Nat
  e2 : Nat
  p1 : Word
  p2 : Word
  base : Word
  deriving DecidableEq, Repr

/-- A request made at a home (R15). -/
inductive Req
  /-- mem_read (R74). -/
  | read (va : Word) (pl : Place) (n : Nat) (mode : ReadMode)
  /-- version_at (R74). -/
  | version (va : Word) (pl : Place) (n : Nat) (i : Instant)
  /-- mem_write (R74). -/
  | write (va : Word) (pl : Place) (n : Nat) (x : Vec)
  /-- SCANCEL (R163). -/
  | cancel (va : Word) (pl : Place) (n : Nat) (task : Half)
  /-- A device register of W4 (R138). -/
  | w4read (va : Word) (n : Nat)
  | w4write (va : Word) (n : Nat) (x : Vec)
  /-- RSV, RLS and RLSN (R198, R199). -/
  | rsv (va : Word) (pl : Place) (z : DSize) (key : Half)
  | rls (va : Word) (pl : Place) (z : DSize) (key : Half) (x : Option Word)
  /-- MON (R206). -/
  | mon (va : Word) (pl : Place)
  /-- A translating port's answer for an access of another device's thread (R139): its bytes, KIND and domain. -/
  | ask (va : Word) (n kind : Nat) (inst : Bool)
  /-- HNEW at the partition's handle table (R271). -/
  | handle (sh : Shape)
  deriving DecidableEq, Repr

/-- The answer to a request. -/
inductive Reply
  | ok (x : Vec)
  | fail (cause : Byte) (tval : Word)
  /-- An Instant-domain store slipped at its port (R153). -/
  | slipped
  deriving DecidableEq, Repr

/-- What sends a message or makes a store: a slot's thread, or a unit of the device. -/
inductive Origin
  | slot (n : Nat)
  | unit (core : Nat)
  /-- The completion of a command, by its stamp, from where a core is (R301). -/
  | completed (core stamp : Nat)
  /-- A provisional entry of a slot's thread (R337). -/
  | entry (n : Nat)
  /-- An engine command, by its stamp (R296). -/
  | cmd (stamp : Nat)
  /-- A publication of an expert's entry, made for a slot's thread or by a review (R351, R356). -/
  | publish (slot : Option Nat) (expert : Nat)
  /-- A slot of another device, by its index. -/
  | peer (dev slot : Nat)
  /-- A command of another device, by its stamp there. -/
  | peerCmd (dev stamp : Nat)
  /-- A unit of another device whose completion goes to a core there if it is refused here, or to its host (R230). -/
  | peerUnit (dev : Nat) (core : Option Nat)
  | host
  deriving DecidableEq, Repr

/-- An Instant-domain store on its way to its port (R74): one line or less. -/
structure Store where
  va : Word
  pl : Place
  n : Nat
  x : Vec
  mask : BitVec 64
  v : Instant
  ord : Instant
  slip : Bool
  deriving DecidableEq, Repr

/-- A thread that travels (R12, R219): its context and what a launch and a task hold about it. -/
structure Thread where
  ctx : Ctx
  part : Fin 8
  task : Option (Nat × Nat)
  spawned : Bool
  cmds : List Nat := []
  /-- The word it performs as its first act (R15); none for a thread whose MIGR is done. -/
  word : Option Nat
  /-- The instant that word named at its issue (R61), and whether its drain has ended (R172). -/
  inst : Option Instant
  drained : Bool
  /-- A parked parent's vector state (R233), none otherwise. -/
  vec : Option (Vector Vec 16 × Byte × Vector Half 8)
  /-- The core it left, the address it travels to, and the PC and loop stack of a MIGR that has been counted as done, for a
  transfer that the host abandons (R418). -/
  core : Nat := 0
  va : Word := 0
  undo : Option (Word × Loops) := none
  /-- What it raises as it returns (R372, R418). -/
  fault : Option (Byte × Word) := none
  deriving DecidableEq, Repr

/-- Operations of COLL (R292). -/
inductive CollOp | reduce | allreduce | rscatter | allgather
  deriving DecidableEq, Repr

/-- What the contributions of a collective agree on (R306). -/
structure CollDesc where
  op : CollOp
  t : Elem
  red : Red
  count : Nat
  root : Nat
  deriving DecidableEq, Repr

/-- A contribution (R306): its collective and rank, and its input, or the cause and address of a read that failed. -/
structure CollPart where
  cid : Word
  num : Half
  rank : Nat
  desc : CollDesc
  data : Nat
  fail : Option (Byte × Word)
  deriving DecidableEq, Repr

/-- A packet's content. -/
inductive Body
  | migration (core : Nat) (t : Thread)
  /-- A migration to the home core of an address on another device (R16). -/
  | migrationTo (va : Word) (t : Thread)
  | request (slot : Nat) (r : Req)
  /-- A request of another device's thread, with its privilege, or of a command of another device. -/
  | peerRequest (dev slot priv : Nat) (r : Req)
  | peerCmd (dev stamp : Nat) (r : Req)
  /-- A request of a unit's work to another device, by its stamp, and the answer. -/
  | unitRequest (stamp : Nat) (r : Req)
  | unitReply (stamp : Nat) (r : Reply)
  /-- A contribution to a collective, from another of its devices (R306). -/
  | collPart (c : CollPart)
  | reply (slot : Nat) (r : Reply) (note : LineNote)
  | store (o : Origin) (st : Store)
  /-- A transfer of another device, with the cluster whose router terminates the fibre port at which it came (R139). -/
  | via (cluster : Nat) (b : Body)
  /-- A flit of this transfer that does not deliver it: one of those before its last (R412), or its last once it is undone. -/
  | part (b : Body)
  /-- A store of another device, to be translated here (R139). -/
  | storeTo (o : Origin) (st : Store)
  | message (va : Word) (core : Nat) (hi : Bool) (m : Vec) (o : Origin)
  /-- A message to the home core of an address on another device (R238). -/
  | messageTo (va : Word) (hi : Bool) (m : Vec) (o : Origin)
  /-- An invalidation of a home line for a router, to be acknowledged to a slot's thread (R170). -/
  | inval (line : Nat) (router : Nat) (writer : Option Nat)
  /-- A drain token of a slot's drain for a router (R172). -/
  | token (slot router : Nat)
  /-- A write notice for a router (R205). -/
  | notice (line : Nat) (router : Nat)
  /-- Barrier packets toward a router (R210, R211). -/
  | barReg (router slot ctx : Nat) (config : Word)
  | barArr (router ctx port arrivals drops : Nat)
  | barDone (router ctx : Nat) (phase : BitVec 16) (opening : Bool)
  /-- Records that act in hardware (R222). -/
  | wake (slot : Nat)
  | kill (slot : Nat)
  | release (slot : Nat)
  /-- An abandon packet with its holder key (R201), for the slot whose thread ends. -/
  | abandon (slot : Nat) (key : Half)
  /-- A posted count update to Monarch (R351). -/
  | ecnt (expert : Nat) (n : Half)
  /-- A stop request to job device 0 (R388), and the STOPCNT that it gives every device of the job. -/
  | stopReq (o : Origin) (count : BitVec 56)
  | stopcnt (v : Word)
  /-- A transfer that its destination refuses for want of a job key (R421). -/
  | refused (b : Body)
  /-- A flush token of a stop for a router (R389). -/
  | flush (router : Nat)
  deriving DecidableEq, Repr

/-- A packet in flight: its partition and content. -/
structure Packet where
  part : Fin 8
  body : Body
  deriving DecidableEq, Repr

/-! ## The core's units -/

/-- Operations of the divider (R99). -/
inductive DivOp | div | divu | rem | remu
  deriving DecidableEq, Repr

/-- A division: the slot that waits, its destination and operands, and the cycle in which it ends (R99). -/
structure Division where
  slot : Nat
  op : DivOp
  d : Reg
  a : Word
  b : Word
  ends : Nat
  deriving DecidableEq, Repr

/-- A waiting message (R222, R223). -/
structure Message where
  part : Fin 8
  m : Vec
  /-- The command whose completion it is, by its stamp (R207). -/
  cmd : Option Nat := none
  /-- The message slot runs it, and its entry is freed at the handler's end (R222); or a thread takes it, and its write to
  another place has not been answered (R238). -/
  running : Bool := false
  deriving DecidableEq, Repr

/-- An entry of the provisional buffer (R336), with the slot whose thread placed it. -/
structure ProvEnt where
  slot : Nat
  part : Fin 8
  st : Store
  /-- It has been sent, and is freed with the thread's other entries (R337). -/
  sent : Bool := false
  deriving DecidableEq, Repr

/-- A core's shared units (R10). -/
structure CoreUnit where
  high : List Message := []
  low : List Message := []
  /-- Messages of the device refused by a full share, with the inbox and the count at which they are retried (R223). -/
  retry : List (Bool × Message × Nat) := []
  /-- The arrival queue (R220). -/
  arrivals : List Thread := []
  divider : List Division := []
  /-- Tag tables, keyed by partition × 1,024 + slot; the key it holds (R165). -/
  tags : Table Word := []
  /-- The provisional buffer in placing order (R336). -/
  prov : List ProvEnt := []
  deriving DecidableEq, Repr

/-! ## The cluster's port and router -/

/-- A pending-store entry (R152): a line, one V and one task index, and per byte its sequence and value; `host` marks
a host write, which loses every tie (R158). -/
structure Pending where
  part : Fin 8
  line : Nat
  v : Instant
  task : Half
  host : Bool
  bytes : List (Nat × BitVec 16 × Byte)
  deriving DecidableEq, Repr

/-- A history version (R151): the value a line held until the instant `sup`. -/
structure Version where
  part : Fin 8
  line : Nat
  sup : Instant
  old : Vec
  deriving DecidableEq, Repr

/-- What waits on a page: a slot's thread, an engine command or an array by its stamp, or a completion. -/
inductive Waiter
  | slot (n : Nat)
  | unit (stamp : Nat)
  deriving DecidableEq, Repr

/-- An entry of the fault queue (R142, R143). -/
structure FaultEnt where
  part : Fin 8
  va : Word
  kind : Nat
  waiters : List Waiter
  reported : Bool
  /-- The host has removed its record (R395); its waiters still wait. -/
  removed : Bool := false
  /-- Its waiters have gone on; only the record is left (R395). -/
  ended : Bool := false
  /-- HAMODE.PAGH as the fault arose (R23): the host resolves it. -/
  toHost : Bool := false
  deriving DecidableEq, Repr

/-- An entry of a remote-line buffer (R169). -/
structure RemoteLine where
  part : Fin 8
  vline : Word
  line : Nat
  data : Vec
  deriving DecidableEq, Repr

/-- A reservation entry (R197): a holder or waiter of a word. -/
structure Reservation where
  part : Fin 8
  va : Word
  pl : Place
  z : DSize
  key : Half
  slot : Nat
  deriving DecidableEq, Repr

/-- A marked port of a barrier context (R210): a core, or 2,048 + a cluster router below the root; its participants, its
arrivals in the open phase, and its drops from the next phase on (R211). -/
structure BarPort where
  port : Nat
  members : Nat
  arrived : Nat
  drops : Nat
  deriving DecidableEq, Repr

/-- A barrier context of a router (R209, R210): the configuration word, the launch that configured it, the marked ports,
the registrations, the last completed phase, whether phase 0 has opened, and whether the router has reported upward. -/
structure Barrier where
  config : Word
  launch : Option Nat
  ports : List BarPort
  registered : Nat
  phase : BitVec 16
  opened : Bool
  reported : Bool
  deriving DecidableEq, Repr

/-- A cluster's memory port and router (R11). -/
structure Port where
  pending : List Pending := []
  /-- Stores that wait for a pending-store entry (R152), oldest first. -/
  stalled : List (Fin 8 × Origin × Store) := []
  history : List Version := []
  /-- The superseding instant of the newest version evicted, by partition and line (R156). -/
  floors : List (Fin 8 × Nat × Instant) := []
  faults : List FaultEnt := []
  /-- The remote-line buffer, oldest first (R169). -/
  remote : List RemoteLine := []
  barriers : Table Barrier := []
  /-- The save buffer (R389). -/
  saved : List Packet := []
  /-- Clock stretches of the region (R390), and the suspension of the coming period. -/
  stretch : Nat := 0
  /-- The cycle of the last burst that each partition started (R289). -/
  bursts : List (Fin 8 × Nat) := []
  suspended : Bool := false
  deriving DecidableEq, Repr

/-! ## Launches and partitions -/

/-- A task that runs (R230): its live threads, and what its completion record counts (R231). -/
structure TaskRec where
  threads : Nat := 0
  failed : Bool := false
  slip : Bool := false
  abandon : Nat := 0
  slips : Nat := 0
  deriving DecidableEq, Repr

/-- A launch that the cluster control cores have taken (R225 to R233). -/
structure Launch where
  id : Nat
  desc : Vec
  host : Bool
  core : Nat
  entry : Word
  anch : Bool
  /-- The heavy energy class (R290), and the count at which each held crew was first ready. -/
  heavy : Bool
  waits : List (Nat × Nat)
  /-- Crews started. -/
  started : List Nat
  live : Table TaskRec
  retired : Nat
  failed : Bool
  slip : Bool
  abandon : Nat
  lost : Nat
  slips : Nat
  deriving DecidableEq, Repr

/-- Partition registers whose writes take effect at a step (R375, R376), and those that change at once. -/
structure PartRegs where
  tvec : Word := 0
  segtb : Word := 0
  ctxb : Word := 0
  fmt : Word := 0
  rmode : Word := 0
  srkey : Word := 0
  msk : Word := 0
  slips : Word := 0
  qcfg : Word := 127
  retwin : Word := 16
  tagcfg : Word := 0
  ptw2 : Word := 0
  ptw3 : Word := 0
  stkb : Word := 0
  stksz : Word := 4096
  reccfg : Word := 0
  recptr : Word := 0
  fpbase : Word := 0
  fpcnt : Word := 0
  mntab : Word := 0
  mncfg : Word := 0xFFFF0000
  mnarea : Word := 0
  mngeo : Word := 0x100010004
  qepoch : Word := 0
  stopcnt : Word := 0
  deriving DecidableEq, Repr

/-! ## The matrix array (R261) -/

/-- A slot of a handle table (R269). -/
structure HandleSlot where
  gen : Nat := 1
  shape : Option Shape := none
  deriving DecidableEq, Repr

/-- The class of a macro or row (R261). -/
inductive CellClass | none | wide | narrow
  deriving DecidableEq, Repr

/-- An aligned group of 32 elements (R263, R264): the shared exponent, the integers and the special flag. -/
structure Group where
  x : Int := 0
  q : List Int := []
  special : Bool := false
  deriving DecidableEq, Repr

/-- A slice's scale and tag (R261, R262). -/
structure Slice where
  scale : Half := 0x3F800000
  tag : Fin 4 := 3
  deriving DecidableEq, Repr

/-- A macro (R261): groups keyed by column × 8 + group, and its slices. -/
structure Macro where
  cls : CellClass := .none
  groups : Table Group := []
  slices : Vector Slice 2 := .replicate 2 {}
  deriving DecidableEq, Repr

/-- A row of the row buffer (R261): its groups by number. -/
structure ARow where
  cls : CellClass := .none
  width : Nat := 12
  groups : Table Group := []
  slices : Vector Slice 4 := .replicate 4 {}
  deriving DecidableEq, Repr

/-- A tile list in progress (R282, R283). -/
structure ListRun where
  slot : Nat
  stamp : Nat
  /-- The commands and, for each, the shape its handle named. -/
  cmds : List Instr
  shapes : List (Option Shape)
  /-- The command being run, and its repetition (R281). -/
  idx : Nat
  rep : Nat
  /-- Sampled at acceptance (R95, R282). -/
  k : Vector Half 8
  rel : Instant
  vis : Instant
  now : Instant
  sat : Bool
  mode : Word
  key : Word
  wide : Bool
  /-- The list's rounding code, once MFMT has set it (R283). -/
  rnd : Option Rnd
  /-- Lines the command has read, by address, and the pieces it has written. -/
  lines : List (Word × Vec)
  written : List Nat
  /-- The instant above NOW that a read of the command waits for (R282). -/
  hold : Option Instant
  /-- The ordinal of an MST that has begun (R279). -/
  ord : Option Instant
  /-- Pieces not yet accepted, slipped or discarded, and a line awaited from another device. -/
  out : Nat
  awaits : Option Word
  /-- Missed pieces, and the address of the first one discarded (R279). -/
  miss : Nat
  lost : Option Word
  /-- Roundings made of each accumulator, and of each drained value by address and instant (R88). -/
  accs : Table Nat
  drained : List (Word × Instant × Nat)
  /-- The first cycle in which the next command may start (R287). -/
  ready : Nat
  deriving DecidableEq, Repr

/-- A core's matrix array (R261, R262). -/
structure MatArray where
  macros : Vector Macro 2 := .replicate 2 {}
  rows : Table ARow := []
  /-- Accumulators keyed by row × 128 + column. -/
  acc : Table Half := []
  owner : Option (Fin 8) := none
  run : Option ListRun := none
  /-- Slots whose TRUN waits for the array, in order of issue. -/
  queue : List Nat := []
  deriving DecidableEq, Repr

/-- A Garnet token (R288): its cluster, credit, last hop and the bursts its cluster has started with it in a row. -/
structure Token where
  at_ : Nat := 0
  credit : Nat := 0
  hop : Nat := 0
  kept : Nat := 0
  deriving DecidableEq, Repr

/-- A die's GARNET register and ring (R288, R291). -/
structure DieUnit where
  pool : Nat := 0
  cap : BitVec 16 := 0x400
  thr : BitVec 16 := 0x800
  tokens : List Token := .replicate 4 {}
  deriving DecidableEq, Repr

/-! ## Engine commands (R294 to R309, R319 to R322, R358 to R361) -/

/-- A tile as an engine walks it (R297, R299): element (0, 0, 0), the pitches and the format. -/
structure View where
  fmt : Elem
  base : Word
  p1 : Word
  p2 : Word
  deriving DecidableEq, Repr

/-- What a command does. -/
inductive Work
  /-- CPY and CPYR with a source, FILL without one; the extents and the fill value. -/
  | copy (src : Option View) (dst : View) (x0 x1 x2 : Nat) (fill : Word)
  /-- COLL: the input's address and bytes, the output's address, the ranks, and the devices and dies that contribute. -/
  | coll (src : Word) (bytes : Nat) (dst : Word) (part : CollPart) (ranks : Nat) (devs : List Nat) (dies : Nat)
  /-- MASK: the grammar block and the image's header. -/
  | mask (blk hdr : Vec)
  /-- RCOPY: the expert, the entry's slot, the area, its address and the source's; the publication follows the lines. -/
  | rcopy (expert slot die : Nat) (held : Option Nat) (dst src : Word) (size : Nat)
  /-- RMERGE: the expert and the elements. -/
  | rmerge (expert count : Nat)
  deriving DecidableEq, Repr

/-- How far a command has come: not begun, reading, waiting for the other contributions, writing, or with every piece
made. -/
inductive Stage | begin_ | read | join | write | ended
  deriving DecidableEq, Repr

/-- An accepted command (R294, R301). -/
structure Cmd where
  stamp : Nat
  /-- dw2's unit code and ENG. -/
  unit : Nat
  eng : Nat
  part : Fin 8
  /-- The issuing core, and the task that its slips are counted for. -/
  core : Nat
  task : Option (Nat × Nat)
  /-- The issuing thread's segments; none for an access at device privilege (R349). -/
  seg : Option (Vector Seg 8)
  ord : Instant
  slip : Bool
  /-- Sampled at acceptance (R95). -/
  rel : Instant
  rdi : Instant
  vsi : Instant
  mode : Word
  sat : Bool
  key : Word
  hnd : Word
  tag : Word
  cid : Word
  work : Work
  /-- Some of its destination is in the Instant domain. -/
  inst : Bool
  /-- A copy that a review started (R360), with the review's count and live slots. -/
  review : Option (Nat × Nat) := none
  stage : Stage := .begin_
  /-- Elements or bytes done, and bytes of the element at hand that are written. -/
  pos : Nat := 0
  sub : Nat := 0
  /-- The element read and converted, and not yet written. -/
  elem : Option Nat := none
  /-- The piece being gathered: its line, the bytes it has and their values (R296). -/
  piece : Option (Word × BitVec 64 × Vec) := none
  /-- Bytes read, or to be written. -/
  data : Nat := 0
  size : Nat := 0
  /-- What it has read so far, by address and bytes. -/
  cache : List (Word × Nat × Nat) := []
  /-- An access on another device that has not been answered, whether it writes, and an answer to one that read. -/
  flight : Option (Word × Nat × Bool) := none
  got : Option (Word × Reply) := none
  /-- The instant that a read waits for. -/
  hold : Option Instant := none
  /-- Pieces not yet accepted, slipped or discarded. -/
  out : Nat := 0
  miss : Nat := 0
  slipped : Bool := false
  bytes : Nat := 0
  /-- MASK's count of bits set, which dw5 holds in place of the bytes (R322). -/
  count : Option Nat := none
  status : Byte := 0
  tval : Word := 0
  /-- The first piece discarded. -/
  lost : Option Word := none
  /-- For Monarch's copies and merges, sampled at acceptance (R95): the address of the expert's entry, and MNGEO.WSZ; for a collective
  that its record on another device has not numbered yet, the address of CALLS (R306). -/
  entry : Word := 0
  wsz : Nat := 0
  /-- A copy's publication has been sent (R359). -/
  published : Bool := false
  deriving DecidableEq, Repr

/-- The contributions of one collective (R306), by rank, and the ranks here that have taken the result. -/
structure CollGroup where
  part : Fin 8
  cid : Word
  num : Half
  parts : Table CollPart
  taken : Nat
  deriving DecidableEq, Repr

/-- A cluster's Sphinx engine (R310): its queue, and the slots that wait for the command in progress. -/
structure Sphinx where
  queue : List Cmd := []
  asks : List Nat := []
  deriving DecidableEq, Repr

/-! ## Monarch (R347 to R364) -/

/-- A pending mark of an expert (R350): the instant of its publication, whether its port has it, the image whose pool areas it takes
(R356) and the retired slot's address (R357), which are told from the areas of the step that applies it, and the record that a
hardware-mode action posts then (R363). -/
structure Mark where
  expert : Nat
  v : Instant
  accepted : Bool := false
  image : Option Vec := none
  retired : Option Nat := none
  record : Option Nat := none
  /-- Where the publication is pending: its line and its ordinal. -/
  at_ : Option (Nat × Instant) := none
  deriving DecidableEq, Repr

/-- A review in progress (R351): its instant, the snapshot of the counters, the registers and the mode bit of its step (R23, R151),
the stamp under which it waits for a page (R349), the experts whose entries are still to be read, the entries read, and those still to
be decided on once all are read. -/
structure Review where
  inst : Instant
  counts : Table Half
  regs : PartRegs
  plch : Bool
  stamp : Nat
  left : List Nat
  ents : List (Nat × Vec) := []
  todo : Option (List (Nat × Vec)) := none
  deriving DecidableEq, Repr

/-- Monarch for a partition. -/
structure Monarch where
  counts : Table Half := []
  marks : List Mark := []
  /-- Areas by die and index that are not free, and those that become free: from a step on, and whether only once every task
  released before the instant has retired (R357, R359). -/
  taken : List (Nat × Nat) := []
  freeing : List (Nat × Nat × Instant × Bool) := []
  /-- The record queue, oldest first, 16 bytes each (R362). -/
  records : List Nat := []
  ovf : Bool := false
  pubs : Nat := 0
  /-- Reviews in progress, oldest first. -/
  reviews : List Review := []
  deriving DecidableEq, Repr

/-- What a saved slot holds beside its save area (R385, log entry 14): the thread's task, its kind, its trail tail, the
instant its load had named (R160), its binding, the loop stack a trap set aside, and the thieves of its points, by point and slot, that
have ended since (R345). -/
structure Kept where
  task : Option (Nat × Nat) := none
  spawned : Bool := false
  handler : Bool := false
  hcount : Nat := 0
  cmds : List Nat := []
  /-- The windows of the trail's and of the tail's entries (R341). -/
  trailWf : List (Option Word) := []
  tail : List (Option Word) := []
  inst : Option Instant := none
  bind : Option (Nat × Nat) := none
  ended : List (Nat × Nat) := []
  aside : Loops := .replicate 4 0
  /-- An RSV that waits at its home goes on waiting (R201). -/
  rsv : Option Prog := none
  /-- A BARI whose registration stands at its routers goes on waiting for its context (R386). -/
  opening : Option (Nat × Prog) := none
  /-- Invalidations its writes caused and that are not acknowledged (R171). -/
  unacked : Nat := 0
  deriving DecidableEq, Repr

/-- A record of the record mode's log (R393): KIND, the instant, dw2, dw3 and the payload. -/
structure LogRec where
  kind : Nat
  inst : Instant
  w2 : Word
  w3 : Word
  payload : Nat
  deriving DecidableEq, Repr

/-- A completion that waits for CDST's page (R230): its destination, the core that it leaves, the core that issued the launch, whether
that was the host's, and the message. -/
structure Completion where
  stamp : Nat
  cdst : Word
  src : Nat
  core : Nat
  host : Bool
  m : Vec
  deriving DecidableEq, Repr

/-- A partition (R382), its counter (R147) and the units that serve it. -/
structure Part where
  regs : PartRegs := {}
  /-- Register writes of the instant (R94): register number, the writer's rank (its core index, 2,048 for the host) and
  value, in the order in which they were made. -/
  writes : List (Nat × Nat × Word) := []
  /-- For each of those writes, how many launches of the device queue and of the host queue were there before it and have not
  been taken (R94). -/
  ahead : List (Nat × Nat) := []
  /-- Records of events that take effect at a later instant, in order of arrival (R393). -/
  logq : List LogRec := []
  /-- Records that wait for a page of the ring, oldest first (R142, R393). -/
  logw : List LogRec := []
  now : Instant := 0
  /-- REFCNT at creation, at the last step, and the ticks that stops have shifted the steps by (R148, R389). -/
  born : Nat := 0
  stepped : Nat := 0
  shift : Nat := 0
  /-- The device launch queue with the issuing cores (R233), oldest first. -/
  queue : List (Vec × Nat) := []
  /-- The host queue's block (R401): HEAD, the last accepted kick, and the completion records held (R403). Entries copied
  and not yet taken stand in `hostQueue`, oldest first; none is an entry that could not be read (R402). -/
  qbase : Word := 0
  qlen : Nat := 0
  head : Half := 0
  kicked : Half := 0
  cqbase : Word := 0
  cqlen : Nat := 0
  cqw : Half := 0
  cqr : Half := 0
  qerr : BitVec 2 := 0
  records : List Vec := []
  hostQueue : List (Option Vec) := []
  /-- The threads of LAUNCH.w that are parked (R233), oldest first, with the cores on which they parked. -/
  parked : List (Nat × Thread) := []
  launches : List Launch := []
  /-- Completions that wait for CDST's page (R230). -/
  completions : List Completion := []
  /-- The handle table (R269). -/
  handles : Table HandleSlot := []
  monarch : Monarch := {}
  /-- Saved slots (R385). -/
  kept : Table Kept := []
  /-- A stop is in progress (R389), and the routers whose flush tokens are on their way. -/
  stopping : Bool := false
  flushed : Bool := false
  tokens : Nat := 0
  /-- The count of the last stop. -/
  stoppedAt : Nat := 0
  /-- The job key (R419). -/
  key : Option (BitVec 256) := none
  deriving DecidableEq, Repr

/-! ## Opal ports and the host edge (R397 to R424) -/

/-- A flit that has been given to a lane (R412, R420): the peer, the per-peer sequence, the transfer, the times that the receiver
has refused it, and the reach entry under which it was queued (R410). -/
structure Sent where
  peer : Nat
  seq : Nat
  packet : Packet
  tries : Nat := 0
  entry : Half := 0
  deriving DecidableEq, Repr

/-- The states of a lane (R415). -/
inductive LaneState | dark | waking | lit | retuning | failed
  deriving DecidableEq, Repr

/-- A ring's heater code and latched monitor reading (R415). -/
structure Ring where
  mon : BitVec 12 := 0
  hcode : BitVec 12 := 0x800
  deriving DecidableEq, Repr

/-- A lane of a port (R408, R415): its ring pair, the channel recorded, and the one it retunes to. -/
structure Lane where
  pair : Nat
  state : LaneState := .dark
  chan : BitVec 7 := 0
  next : BitVec 7 := 0
  modulator : Ring := {}
  filter : Ring := {}
  flits : BitVec 48 := 0
  /-- The count at which its last flit was sent (R411, R413). -/
  last : Nat := 0
  replay : List Sent := []
  deriving DecidableEq, Repr

/-- What a port controller does (R381, R413); a wake of every dark lane is one action. -/
inductive PortOp
  | tune (lane : Fin 8) (chan : BitVec 7)
  | park (lane : Fin 8)
  | wake (lane : Fin 8)
  | wakeAll
  deriving DecidableEq, Repr

/-- A queued command: whose CIRC it is (partition, core and ordinal), if it is one, with its stamp and its command word (R437), and
the count at which it was begun. -/
structure PortCmd where
  op : PortOp
  word : Word := 0
  owner : Option (Fin 8 × Nat × Instant) := none
  stamp : Nat := 0
  begun : Option Nat := none
  deriving DecidableEq, Repr

/-- A fibre port (R408, R414). -/
structure OptPort where
  lanes : Vector Lane 8 := Vector.ofFn fun k => { pair := k.val }
  queue : List PortCmd := []
  idlep : BitVec 16 := 1024
  minlit : BitVec 3 := 0
  wakeq : BitVec 32 := 256
  hsper : BitVec 16 := 4096
  mtgt : BitVec 12 := 0x800
  hband : BitVec 12 := 16
  fail : Byte := 0
  spare : Byte := 0
  hsvc : BitVec 16 := 0
  /-- Free spare ring pairs, and the count of the last heater service and the last automatic park. -/
  spares : List Nat := [8, 9]
  served : Nat := 0
  parkedAt : Nat := 0
  deriving DecidableEq, Repr

/-- A transfer that has come before its turn (R412): its peer and sequence, the cluster whose router took it (R139), whether its
partition had a job key then (R421), and the transfer. -/
structure Early where
  peer : Nat
  seq : Nat
  cluster : Nat
  keyed : Bool
  packet : Packet
  deriving DecidableEq, Repr

/-- A fabric fault record with the transfer it holds (R418): the peer, or the die and its channels. -/
structure FabFault where
  packet : Packet
  pkg : Bool
  peer : Nat
  die : Nat
  port : Nat
  lane : Nat
  /-- The sequence of a flit that a lane had been given. -/
  seq : Option Nat := none
  deriving DecidableEq, Repr

/-! ## The device -/

/-- The device's own registers and units. -/
structure Dev where
  /-- Enabled dies (R2), and those of the configuration record (R3). -/
  dies : Byte := 255
  record : Byte := 255
  hamode : BitVec 5 := 0
  log2p : BitVec 2 := 3
  /-- JOBIDX (R409): V and INDEX. -/
  jobV : Bool := false
  jobIdx : BitVec 13 := 0
  /-- FREQSEL (R391) and the scheduled reference count. -/
  freqCur : BitVec 3 := 0
  freqPend : BitVec 3 := 0
  freqPv : Bool := false
  freqAt : Nat := 0
  /-- PWRCFG (R392). -/
  meas : Half := 0
  budget : Half := 2400
  pdef : Vector Word 8 := .replicate 8 0
  unreachable : Byte := 0
  /-- The reach table's entries that have been written (R410). -/
  reach : Table Half := []
  /-- Egress queues (R411): packets for a peer in the order queued, each with the reach entry of then (R410). -/
  egress : Table (List (Half × Packet)) := []
  /-- Flits that are sent again, before those queued; the next sequence to send to a peer, and the lane + 1 that took its last flit
  (R412). -/
  resend : Table (List Sent) := []
  sent : Table Nat := []
  stripe : Table Nat := []
  /-- The sequence expected from a peer, and flits that have come before it (R412). -/
  expect : Table Nat := []
  early : List Early := []
  /-- What other devices have sent and this one has not yet received (log entry 17), and replays asked of them: port, lane,
  peer and sequence. -/
  inbound : List (Nat × Packet) := []
  replays : List (Nat × Nat × Nat × Nat) := []
  optics : Table OptPort := []
  /-- The last count at which every MON followed its monitor (R416): HAMODE.HTRH became 1 at it. -/
  followed : Nat := 0
  /-- Reference lock is lost (R408). -/
  unlocked : Bool := false
  /-- On-package channels that have failed, by die and channel; bytes of the connection table that differ from reset, the
  staging copy's, and the refused-commit flag (R423, R424). -/
  deadChans : List (Nat × Nat) := []
  conn : Table Byte := []
  staged : Table Byte := []
  connErr : Bool := false
  /-- Fabric fault records, oldest first, those beyond 64 not yet posted (R418). -/
  fabric : List FabFault := []
  /-- Transfers that could not be delivered while FLTH was 0, which go on waiting (R23). -/
  waiting0 : List Packet := []
  /-- HAFLOG, HMLOG and CFGLOG (R215, R396, R399). -/
  haflog : Word := 0
  hmlog : Word := 0
  cfglog : Word := 0
  /-- BOOTST (R406): the step and the failure code. -/
  boot : BitVec 4 := 4
  bootErr : BitVec 4 := 0
  /-- The attestation block (R407): the nonce's bytes, whether a report is being made, and the last report. -/
  nonce : Mem := []
  attesting : Bool := false
  report : Mem := []
  /-- The key block (R419): its bytes, and KSTAT. -/
  keyBlock : Mem := []
  kstat : BitVec 2 := 0
  /-- The answer to the last host read or atomic (log entry 17): none for an Unsupported Request. -/
  answer : Option Nat := none
  /-- Transfers of other devices that wait for a page of this one (R139), by stamp. -/
  held : List (Nat × Packet) := []
  /-- MSI-X vectors signalled (R404), newest first. -/
  msix : List Nat := []
  deriving DecidableEq, Repr

/-- The machine. -/
structure State where
  mem : Mem := []
  slots : Table Slot := []
  cores : Table CoreUnit := []
  ports : Table Port := []
  /-- Homes' records (R170, R205): by home line, the routers that hold an entry and those that watch it. -/
  sharers : Table (List Nat) := []
  watchers : Table (List Nat) := []
  /-- Reservation entries of the homes, in the order in which they were entered (R197). -/
  reservations : List Reservation := []
  /-- Matrix arrays by core, and the dies' units. -/
  arrays : Table MatArray := []
  dies : Table DieUnit := []
  /-- Queues of the copy engines by cluster, of the collective engines by die (R295), the contributions present, the Sphinx
  engines, and Monarch's copies and merges (R359, R361). -/
  copiers : Table (List Cmd) := []
  collectors : Table (List Cmd) := []
  groups : List CollGroup := []
  sphinxes : Table Sphinx := []
  copies : List Cmd := []
  merges : List Cmd := []
  parts : Vector Part 8 := .replicate 8 {}
  dev : Dev := {}
  /-- Physical lines whose data fails its check (R4; log entry 6). -/
  bad : List Nat := []
  /-- Packets in flight, oldest first (R219). -/
  net : List Packet := []
  /-- REFCNT (R390), the cycle, and cycles of the present reference tick (R391). -/
  refcnt : Nat := 0
  cyc : Nat := 0
  sub : Nat := 0
  /-- The model's own (log entry 4): due events, events from outside by the reference count at which they come, choices, the
  acting slot, the turn and the serial number. -/
  agenda : List (Nat × Instr) := []
  inputs : List (Nat × Instr) := []
  choices : List Nat := []
  cur : Nat := 0
  turn : Nat := 0
  stamp : Nat := 0
  deriving DecidableEq, Repr

/-- Why the machine stops: nothing stops it, since the spec gives each thing that it calls wrong a trap, a completion status, a
refused access or, after a failed boot, threads that do not run (R406). -/
inductive Fault
  deriving DecidableEq, Repr

/-- What has no meaning in the model. -/
inductive Refusal
  /-- An instruction that is not modelled, by its mnemonic; safe, since nothing is claimed of it. -/
  | notModelled (mnemonic : String)
  deriving DecidableEq, Repr

/-- The machine right after reset (R7, R382; INVENTORY.md, State). -/
def State.reset : State := {}

end Sys2Proof.Machine
end

