-- ==== Sys2Proof/Machine/Ops.lean ====
section
/-! DEFINITION. The named operations over the state: causes (R372), slots and units, register writes with their
trail (R75, R102), the end check (R127), taking an exception (R368, R369), the return from one (R374), and the
issue of a word (R56). -/

namespace Sys2Proof.Machine

/-- The causes of R372. -/
inductive Cause
  | illegalOp | priv | segBound | segRights | align | windowStraddle | page | instantMiss | instantExpired
  | handleStale | loopDepth | tileShape | rsvMisuse | pdaFormat | trailFull | choiceDepth | choiceEscape
  | noLegalToken | pdaStack | replicaStale | copyFail | eccUncorrectable | fabricUnreachable | keyInvalid
  | launchNodie | handlerLong | monitorFull | barrierMisuse | rsvAbandon | stop | trap | brk
  deriving DecidableEq, Repr

/-- The code of a cause (R372). -/
def Cause.code : Cause → Byte
  | .illegalOp => 0x01
  | .priv => 0x02
  | .segBound => 0x03
  | .segRights => 0x04
  | .align => 0x05
  | .windowStraddle => 0x06
  | .page => 0x07
  | .instantMiss => 0x08
  | .instantExpired => 0x09
  | .handleStale => 0x0A
  | .loopDepth => 0x0B
  | .tileShape => 0x0C
  | .rsvMisuse => 0x0D
  | .pdaFormat => 0x0E
  | .trailFull => 0x10
  | .choiceDepth => 0x11
  | .choiceEscape => 0x12
  | .noLegalToken => 0x13
  | .pdaStack => 0x14
  | .replicaStale => 0x15
  | .copyFail => 0x16
  | .eccUncorrectable => 0x17
  | .fabricUnreachable => 0x18
  | .keyInvalid => 0x19
  | .launchNodie => 0x1A
  | .handlerLong => 0x1B
  | .monitorFull => 0x1C
  | .barrierMisuse => 0x1D
  | .rsvAbandon => 0x1E
  | .stop => 0x1F
  | .trap => 0x20
  | .brk => 0x21

/-- How an instruction or an access ends without its effect (R76): a trap by its cause's code and TVAL, or a page
fault with its address and KIND (R143). -/
inductive Stop
  | trap (cause : Byte) (tval : Word)
  | page (va : Word) (kind : Nat)
  deriving DecidableEq, Repr

/-- What an instruction's body answers. -/
inductive Out
  /-- It has completed: PC + 4 and the end check. -/
  | seq (s : State)
  /-- It is a taken transfer (R116). -/
  | jump (s : State) (pc : Word)
  /-- The thread is out of the rotation, elsewhere or at an end. -/
  | stay (s : State)
  /-- It raises (R76); the state before it stands. -/
  | stop (e : Stop)

/-- `raise` of a named cause. -/
def Stop.of (c : Cause) (v : Word) : Stop := .trap c.code v

/-! ## Slots and units -/

def State.slotAt (s : State) (n : Nat) : Slot := Table.get {} s.slots n

def State.setSlotAt (s : State) (n : Nat) (x : Slot) : State := { s with slots := Table.set s.slots n x }

/-- The name under which packets and reservations of a slot's saved thread go (R201, R386): its slot's, 2^20 higher, so that
they are not taken for those of a thread that the slot holds meanwhile. -/
def savedKey (n : Nat) : Nat := n + 2 ^ 20

/-- The slot that a packet names. -/
def slotKey (n : Nat) : Nat := n % 2 ^ 20

/-- The name by which another device answers a slot's thread: the slot's, and its generation. -/
def State.peerKey (s : State) (n : Nat) : Nat := n + 2 ^ 22 * ((s.slotAt n).gen + 1)

/-- The slot that acts. -/
def State.slot (s : State) : Slot := s.slotAt s.cur

def State.setSlot (s : State) (x : Slot) : State := s.setSlotAt s.cur x

def State.ctx (s : State) : Ctx := s.slot.ctx

def State.setCtx (s : State) (c : Ctx) : State := s.setSlot { s.slot with ctx := c }

/-- The global core index of the slot that acts (R10). -/
def State.coreIdx (s : State) : Nat := s.cur / 16

/-- Its cluster, 0 to 127. -/
def State.cluster (s : State) : Nat := s.cur / 256

def State.coreAt (s : State) (c : Nat) : CoreUnit := Table.get {} s.cores c

def State.setCoreAt (s : State) (c : Nat) (x : CoreUnit) : State := { s with cores := Table.set s.cores c x }

def State.portAt (s : State) (c : Nat) : Port := Table.get {} s.ports c

def State.setPortAt (s : State) (c : Nat) (x : Port) : State := { s with ports := Table.set s.ports c x }

def State.partAt (s : State) (n : Fin 8) : Part := s.parts[n]

def State.setPartAt (s : State) (n : Fin 8) (x : Part) : State := { s with parts := s.parts.set n x }

/-- The partition of the slot that acts. -/
def State.part (s : State) : Part := s.partAt s.slot.part

/-- Puts a packet in flight, behind those already there. -/
def State.send (s : State) (p : Fin 8) (b : Body) : State := { s with net := s.net ++ [⟨p, b⟩] }

/-- A fresh serial number: `s.stamp`, advanced. -/
def State.bump (s : State) : State := { s with stamp := s.stamp + 1 }

/-! ## The mode byte and STATUS (R367, R371) -/

def Ctx.priv (c : Ctx) : Nat := c.mode.toNat % 4
def Ctx.anch (c : Ctx) : Bool := c.mode.getLsbD 2
def Ctx.pol (c : Ctx) : Bool := c.mode.getLsbD 3
def Ctx.slip (c : Ctx) : Bool := c.mode.getLsbD 4
def Ctx.rsvn (c : Ctx) : Nat := c.mode.toNat / 32

/-- The mode byte from its fields. -/
def modeByte (rsvn : Nat) (slip pol anch : Bool) (priv : Nat) : Byte :=
  .ofNat 8 (32 * rsvn + 16 * slip.toNat + 8 * pol.toNat + 4 * anch.toNat + priv)

def Ctx.setAnch (c : Ctx) (b : Bool) : Ctx := { c with mode := modeByte c.rsvn c.slip c.pol b c.priv }
def Ctx.setPol (c : Ctx) (b : Bool) : Ctx := { c with mode := modeByte c.rsvn c.slip b c.anch c.priv }
def Ctx.setSlip (c : Ctx) (b : Bool) : Ctx := { c with mode := modeByte c.rsvn b c.pol c.anch c.priv }
def Ctx.setRsvn (c : Ctx) (n : Nat) : Ctx := { c with mode := modeByte n c.slip c.pol c.anch c.priv }

/-- STATUS.INH (R371). -/
def Slot.inh (x : Slot) : Bool := x.status.getLsbD 1
/-- STATUS.SKIP. -/
def Slot.skip (x : Slot) : Bool := x.status.getLsbD 2
/-- STATUS.PMODE. -/
def Slot.pmode (x : Slot) : Byte := x.status.extractLsb' 8 8

/-- STATUS from its fields. -/
def statusWord (pmode : Byte) (skip inh : Bool) : Word :=
  .ofNat 64 (256 * pmode.toNat + 4 * skip.toNat + 2 * inh.toNat)

/-- ORD[47:16], the task index (R145). -/
def Ctx.taskIdx (c : Ctx) : Half := c.ord.extractLsb' 16 32
/-- ORD[15:0], the store sequence. -/
def Ctx.seqNo (c : Ctx) : BitVec 16 := c.ord.extractLsb' 0 16
/-- ORD with its sequence advanced by one (R146). -/
def Ctx.nextOrd (c : Ctx) : Ctx := { c with ord := c.ord + 1 }

/-- The thread is speculative (R331). -/
def Slot.speculative (x : Slot) : Bool := !x.points.isEmpty || x.bind.isSome

/-- The rules for an open choice point apply: not in a supervisor handler (R331, R368). -/
def Slot.open_ (x : Slot) : Bool := x.speculative && !x.inh

/-- The thread makes its accesses by migration: roaming, not speculative (R335), not in a handler (R370). -/
def Slot.roams (x : Slot) : Bool := !x.ctx.anch && !x.speculative && !x.inh

/-- WF(current) (R120). -/
def Slot.wf (x : Slot) : Word := x.ctx.wsp - 64 * (BitVec.ofNat 64 x.windows.length + 1)

/-! ## Segments (R134, R135) -/

def Seg.holds (g : Seg) (va : Word) : Bool :=
  g.limit != 0 && decide (g.base.toNat ≤ va.toNat) && decide (va.toNat < g.base.toNat + g.limit.toNat)

def Seg.r (g : Seg) : Bool := g.rights.getLsbD 0
def Seg.w (g : Seg) : Bool := g.rights.getLsbD 1
def Seg.x (g : Seg) : Bool := g.rights.getLsbD 2
def Seg.i (g : Seg) : Bool := g.rights.getLsbD 3
def Seg.n (g : Seg) : Bool := g.rights.getLsbD 4
def Seg.h (g : Seg) : Bool := g.rights.getLsbD 5
def Seg.t (g : Seg) : Bool := g.rights.getLsbD 6

/-- The segment that applies to a data access (R135). -/
def Slot.dataSeg (x : Slot) (va : Word) : Option Seg := x.seg.toList.find? fun g => g.holds va

/-- The thread's arena segment (R332): the lowest-numbered that grants T. -/
def Slot.arena (x : Slot) : Option Seg := x.seg.toList.find? fun g => g.limit != 0 && g.t

/-- What R332 asks of an arena segment. -/
def Seg.arenaOk (g : Seg) : Bool :=
  decide (g.base.toNat / 2 ^ 48 = 0x1FFF) && decide (g.base.toNat % 32 = 0) && decide (g.limit.toNat % 32 = 0)
    && decide (g.limit.toNat ≤ 4096)

/-- The address lies in the trail arena, the arena segment's lower half (R332). -/
def Slot.inArena (x : Slot) (va : Word) (n : Nat) : Bool :=
  match x.arena with
  | none => false
  | some g => decide (g.base.toNat ≤ va.toNat) && decide (va.toNat + n ≤ g.base.toNat + g.limit.toNat / 2)

/-! ## Memory writes of the Now domain (R162, R170, R205) -/

/-- Every Now-domain write performed at a home: the bytes, then an invalidation to each router recorded for the line
except the one the write passed through, counted for the writing slot, and a notice to each router that watches it. -/
def State.tell (s : State) (p : Fin 8) (line : Nat) (writer : Option Nat) (through : Option Nat) : State :=
  let inv := (Table.get [] s.sharers line).filter fun r => some r != through
  let wat := Table.get [] s.watchers line
  let s := { s with
    net := s.net ++ inv.map (fun r => ⟨p, .inval line r writer⟩) ++ wat.map (fun r => ⟨p, .notice line r⟩),
    sharers := if inv.isEmpty then s.sharers else Table.set s.sharers line [] }
  match writer with
  | none => s
  | some n => if inv.isEmpty then s
    else s.setSlotAt n { s.slotAt n with unacked := (s.slotAt n).unacked + inv.length }

/-- A Now-domain write of `n` bytes at a physical address. -/
def State.nowWrite (s : State) (p : Fin 8) (phys n x : Nat) (writer through : Option Nat) : State :=
  ({ s with mem := s.mem.write phys n x }).tell p (phys / 64) writer through

/-! ## The trail (R75, R102, R124, R333) -/

/-- The physical address of a local-store address of W0 or W1 (R16, R17), seen from a core. -/
def localPhys (core : Nat) (va : Word) : Nat :=
  let la := va.toNat % 2 ^ 48
  if la < 2 ^ 32 then core * 2 ^ 19 + la % 2 ^ 19 else la % 2 ^ 30

/-- A trail entry's 16-byte image in the tail (R333): WHERE and KIND in the upper word, OLD in the lower. -/
def TrailEnt.image (e : TrailEnt) : Nat :=
  e.old.toNat + 2 ^ 64 * (match e.at_ with
    | .greg n => n.val
    | .pred n => 2 ^ 62 + n.val
    | .arena va z => 2 ^ 63 + z.code * 2 ^ 60 + va.toNat % 2 ^ 48)

/-- The register number or address that a TRAIL-FULL names (R75). -/
def TrailAt.where_ : TrailAt → Word
  | .greg n => .ofNat 64 n.val
  | .pred n => .ofNat 64 n.val
  | .arena va _ => va

/-- A line fails its check at the home (check 8, R4). -/
def State.badAt (s : State) (phys : Nat) : Bool := s.bad.contains (phys / 64)

/-- trail_push (R75), its tail write with check 8 (R73): nothing while the thread's own stack is empty (R331) or in a supervisor handler (R368). -/
def trailPush (e : TrailEnt) (s : State) : Except Stop State :=
  let x := s.slot
  if x.points.isEmpty || x.inh then .ok s
  else if x.trail.length < 256 then .ok (s.setSlot { x with trail := e :: x.trail })
  else match x.arena, x.trail.getLast? with
    | some g, some old =>
      if 16 * (x.tail.length + 1) ≤ g.limit.toNat / 2 then
        let va := g.base + .ofNat 64 (g.limit.toNat - 16 * (x.tail.length + 1))
        let s := s.setSlot { x with trail := e :: x.trail.dropLast, tail := old.wf :: x.tail }
        if s.badAt (localPhys s.coreIdx va) then .error (.of .eccUncorrectable va)
        else .ok (s.nowWrite x.part (localPhys s.coreIdx va) 16 old.image (some s.cur) none)
      else .error (.of .trailFull e.at_.where_)
    | _, _ => .error (.of .trailFull e.at_.where_)

/-- The value of a general register of the thread that acts. -/
def State.g (s : State) (n : Reg) : Word := s.ctx.g[n]

/-- The value of a predicate: p0 reads 1 (R12). -/
def State.p (s : State) (n : Pred) : Bool := n = 0 || s.ctx.p.getLsbD n.val

/-- A write that g8 to g15 trails only in the newest choice point's window (R124). -/
def Slot.trails (x : Slot) (n : Reg) : Bool :=
  decide (n.val < 8) || (match x.points with
    | [] => false
    | q :: _ => x.wf == q.wf)

/-- The window of a general register (R124): that of g8 to g15. -/
def Slot.frame (x : Slot) (n : Reg) : Option Word := if n.val < 8 then none else some x.wf

/-- g[n] := x without a trail entry. -/
def State.putG (s : State) (n : Reg) (v : Word) : State :=
  s.setCtx { s.ctx with g := s.ctx.g.set n v }

/-- p[n] := b without a trail entry; p0 discards writes (R12). -/
def State.putP (s : State) (n : Pred) (b : Bool) : State :=
  if n = 0 then s
  else s.setCtx { s.ctx with p := if b then s.ctx.p ||| (1#8 <<< n.val) else s.ctx.p &&& ~~~ (1#8 <<< n.val) }

/-- g[n] := x (R102). -/
def setG (n : Reg) (v : Word) (s : State) : Except Stop State :=
  if s.slot.trails n then (trailPush ⟨.greg n, s.g n, s.slot.frame n⟩ s).map fun s => s.putG n v
  else .ok (s.putG n v)

/-- p[n] := b (R102): no entry is pushed for p0. -/
def setP (n : Pred) (b : Bool) (s : State) : Except Stop State :=
  if n = 0 then .ok s
  else (trailPush ⟨.pred n, if s.p n then 1 else 0, none⟩ s).map fun s => s.putP n b

/-- An effect that may raise, as the end of a body. -/
def Out.ofRes : Except Stop State → Out
  | .ok s => .seq s
  | .error e => .stop e

/-- The body that ends with g[d] := v. -/
def Out.setG (d : Reg) (v : Word) (s : State) : Out := .ofRes (Machine.setG d v s)

/-- The body that ends with p[d] := b. -/
def Out.setP (d : Pred) (b : Bool) (s : State) : Out := .ofRes (Machine.setP d b s)

/-- The last step of a body that may raise. -/
def Out.bind {α : Type} (r : Except Stop α) (f : α → Out) : Out :=
  match r with
  | .ok a => f a
  | .error e => .stop e

/-- The check at the head of a body: raise when it holds. -/
def Out.unless (c : Bool) (e : Stop) (o : Out) : Out := if c then .stop e else o

/-! ## Hardware loops (R125 to R127) -/

/-- The fields of a loop entry (R125). -/
def loopC (e : Half) : Nat := e.toNat / 2 ^ 20
def loopL (e : Half) : Nat := e.toNat / 2 ^ 11 % 512
def loopE (e : Half) : Nat := e.toNat % 2 ^ 11

/-- A loop entry from its fields. -/
def loopEntry (c l e : Nat) : Half := .ofNat 32 (c * 2 ^ 20 + l * 2 ^ 11 + e)

/-- Entries that are not empty, from byte 0 up (R125). -/
def loopsUsed (l : Loops) : List Half := l.toList.filter fun e => loopL e != 0

/-- A loop stack that holds these entries, from byte 0 up. -/
def loopsOf (es : List Half) : Loops :=
  #v[es.getD 0 0, es.getD 1 0, es.getD 2 0, es.getD 3 0]

/-- The end check's work on the entries, newest first (R127): what is left, newest first, and the loop-back target. -/
def endCheckFrom (a : Word) : List Half → List Half × Option Word
  | [] => ([], none)
  | e :: r =>
    if a.toNat / 4 % 2 ^ 11 = loopE e then
      if 0 < loopC e then
        (loopEntry (loopC e - 1) (loopL e) (loopE e) :: r, some (a - 4 * (BitVec.ofNat 64 (loopL e) - 1)))
      else endCheckFrom a r
    else (e :: r, none)

/-- The end check of the word at `a`, not a taken transfer (R127): PC becomes a + 4 or the loop's first word. -/
def Ctx.endCheck (c : Ctx) (a : Word) : Ctx :=
  match endCheckFrom a (loopsUsed c.loops).reverse with
  | (es, t) => { c with loops := loopsOf es.reverse, pc := t.getD (a + 4) }

/-! ## Page faults and exceptions -/

/-- The slot leaves the rotation for a page fault (R76), its word to be reissued. -/
def State.dropSlot (s : State) (n : Nat) (retry : Option Nat) : State :=
  s.setSlotAt n { s.slotAt n with run := .dropped retry, prog := {} }

/-- Two addresses of one 64 KiB page of a partition (R142). -/
def samePage (a b : Word) : Bool := a.toNat % 2 ^ 48 / 65536 == b.toNat % 2 ^ 48 / 65536

/-- Joins or makes a fault entry at a port (R142), which keeps who resolves it (R23); none when the port refuses it. -/
def Port.addFault (q : Port) (p : Fin 8) (va : Word) (kind : Nat) (w : Waiter) (toHost : Bool) : Option Port :=
  match q.faults.find? fun e => e.part == p && e.kind != 7 && !e.ended && samePage e.va va with
  | some e =>
    if e.waiters.length < 64 then
      some { q with faults := q.faults.map fun f => if f = e then { f with waiters := f.waiters ++ [w] } else f }
    else none
  | none =>
    if (q.faults.filter fun e => !e.ended).length < 1024 then
      some { q with faults := q.faults ++
        [{ part := p, va := va, kind := kind, waiters := [w], reported := false, toHost := toHost }] }
    else none

/-- A page fault is queued at a cluster's port (R142) under the HAMODE.PAGH of now (R23). -/
def State.addFault (s : State) (cluster : Nat) (p : Fin 8) (va : Word) (kind : Nat) (w : Waiter) : Option State :=
  ((s.portAt cluster).addFault p va kind w (s.dev.hamode.getLsbD 0)).map (s.setPortAt cluster)

/-- A page that an access of the device itself needs is queued as a fault once (R142): the access is made again later. -/
def State.needPage (s : State) (cluster : Nat) (p : Fin 8) (va : Word) (kind : Nat) : State :=
  if (s.portAt cluster).faults.any fun e => e.part == p && e.kind != 7 && !e.ended && samePage e.va va then s
  else ((s.addFault cluster p va kind (.unit s.stamp)).getD s).bump

/-- raise(PAGE) of a slot's thread (R76, R142): dropped, and queued or joined at its cluster's port, or refused and
reissued 64 reference ticks later. -/
def State.pageFault (s : State) (n : Nat) (va : Word) (kind : Nat) : State :=
  match s.addFault (n / 256) (s.slotAt n).part va kind (.slot n) with
  | some t => t.dropSlot n none
  | none => s.dropSlot n (some (s.refcnt + 64))

/-- MSI-X vector n is signalled (R404). -/
def State.signal (s : State) (n : Nat) : State := { s with dev := { s.dev with msix := n :: s.dev.msix } }

/-- A double trap (R369): the thread is dropped and its port reports a KIND 7 record. -/
def State.doubleTrap (s : State) : State :=
  let q := s.portAt s.cluster
  let s := s.signal 7
  let e : FaultEnt := { part := s.slot.part, va := s.ctx.pc, kind := 7, waiters := [.slot s.cur], reported := true }
  (s.setPortAt s.cluster { q with faults := q.faults ++ [e] }).dropSlot s.cur none

/-- Taking an exception (R368, R369, R377): the shared operation of every trap of the thread that acts. -/
def State.trap (s : State) (cause : Byte) (tval : Word) : State :=
  let x := s.slot
  if x.inh then s.doubleTrap
  else
    let x := { x with cause := cause, epc := x.ctx.pc, tval := tval, prog := {} }
    if s.part.regs.tvec = 0 then (s.setSlot x).doubleTrap
    else
      let c := x.ctx
      s.setSlot { x with
        status := statusWord c.mode (cause == Cause.trap.code || cause == Cause.brk.code) true
        aside := c.loops
        ctx := { c with
          mode := modeByte c.rsvn c.slip c.pol true (if c.priv = 2 then 2 else 1)
          loops := .replicate 4 0
          pc := s.part.regs.tvec } }

/-- The return from an exception (R374). -/
def State.eret (s : State) : State :=
  let x := s.slot
  let m : Ctx := { mode := x.pmode }
  let c := { x.ctx with
    mode := modeByte x.ctx.rsvn (x.ctx.slip || m.slip) m.pol m.anch m.priv
    loops := x.aside
    pc := x.epc }
  s.setSlot { x with
    ctx := if x.skip then c.endCheck x.epc else c
    status := statusWord x.pmode false false
    aside := .replicate 4 0
    prog := {} }

/-- What an instruction's end does: R76 for a raise, the end check of R127 for a completion. -/
def settle (s0 : State) (o : Out) : State :=
  match o with
  | .seq s => s.setSlot { s.slot with ctx := s.ctx.endCheck s0.ctx.pc, prog := {} }
  | .jump s t => s.setSlot { s.slot with ctx := { s.ctx with pc := t }, prog := {} }
  | .stay s => s
  | .stop (.trap c v) => s0.trap c v
  | .stop (.page va k) => s0.pageFault s0.cur va k

/-! ## Issue (R56) -/

/-- The guard holds (R55): bits [3:1] name the predicate, bit 0 inverts the test. -/
def guardHolds (g : Guard) (s : State) : Bool :=
  if g.val = 0 then true
  else if g.val % 2 = 0 then s.p (.ofNat 8 (g.val / 2)) else !s.p (.ofNat 8 (g.val / 2))

/-- The word of an instruction, zero-extended, as TVAL shows it (R57). -/
def wordOf (i : Instr) : Word := .ofNat 64 ((encodeWord i).getD 0)

/-- The issue of a word counts in a message handler (R224). -/
def State.counted (s : State) : State :=
  if s.slot.handler && !s.slot.inh then s.setSlot { s.slot with hcount := s.slot.hcount + 1 } else s

/-- A word's issue: privilege, the handler's limits (R224), the guard, then its body. A word in progress goes on with
its body. -/
def issue (i : Instr) (g : Guard) (min : Nat) (barred : Bool) (body : State → Out) (s : State) :
    Host.Outcome State Fault Refusal :=
  if s.slot.prog.word.isSome then .next (settle s (body s))
  else if s.ctx.priv < min then .next (settle s (.stop (.of .priv (wordOf i))))
  else if s.slot.handler && !s.slot.inh && (barred || decide (256 ≤ s.slot.hcount)) then
    .next (settle s (.stop (.of .handlerLong s.ctx.pc)))
  else
    let s := s.counted
    if guardHolds g s then .next (settle s (body s)) else .next (settle s (.seq s))

/-- Drops the words that the acting thread has fetched ahead (R69, R175). -/
def State.dropAhead (s : State) : State := s.setSlot { s.slot with ahead := [] }

/-- The instruction goes on waiting: the slot leaves the rotation with the word in progress. -/
def State.await (s : State) (i : Instr) (w : Wait) (fin : Option Finish := none) : State :=
  s.setSlot { s.slot with run := .waiting w, prog := { s.slot.prog with word := encodeWord i, fin := fin } }

/-- A slot whose wait has ended is runnable again; it performs its word in progress next (log entry 8). -/
def State.resumeSlot (s : State) (n : Nat) : State := s.setSlotAt n { s.slotAt n with run := .runnable }

/-- A slot's wait ends its instruction: it is complete, and the slot runnable. -/
def State.endWait (s : State) (n : Nat) : State :=
  let t := { s.resumeSlot n with cur := n }
  { settle t (.seq t) with cur := s.cur }

/-- The slot's word in progress is an MWAIT. -/
def Slot.inMwait (x : Slot) : Bool :=
  match x.prog.word.bind decode with
  | some (.mwait ..) => true
  | _ => false

/-- An interrupt ends a slot's MWAIT (R207): it is reported too where another cause has ended the wait and the MWAIT has not
yet returned. -/
def State.interrupt (s : State) (n : Nat) : State :=
  let x := s.slotAt n
  match x.run with
  | .waiting (.monitor _) => s.setSlotAt n { x with run := .runnable, prog := { x.prog with int := true } }
  | .runnable => if x.inMwait then s.setSlotAt n { x with prog := { x.prog with int := true } } else s
  | _ => s

/-- The cycles of the slot's region (R390): the cycles of the device less the region's stretches. -/
def State.cycles (s : State) (cluster : Nat) : Nat := s.cyc - (s.portAt cluster).stretch

end Sys2Proof.Machine
end

