-- ==== Sys2Proof/Machine/Operands.lean ====
section
/-! DEFINITION. Operand forms and addresses: immediates (R59), effective addresses, instants (R61), the access checks
of R73, windows (R17), homes (R16), translation (R139 to R141), and the fetch of a word (R54, R135). -/

namespace Sys2Proof.Machine

/-- An RI immediate (R59). -/
def imm (i : BitVec 13) : Word := i.signExtend 64

/-- A BR offset in bytes (R59). -/
def off21 (o : BitVec 21) : Word := 4 * o.signExtend 64

/-- The bytes of a size suffix (R6). -/
def sizeBytes (z : Size) : Nat := 2 ^ z.code

/-- The bytes of a word or double (R198). -/
def dsizeBytes : DSize → Nat
  | .w => 4
  | .d => 8

/-- The plain size of an ordered one. -/
def dsizeSize : DSize → Size
  | .w => .w
  | .d => .d

/-- The MM-D effective address (R59). -/
def ea (base : Word) (disp : BitVec 9) (n : Nat) : Word := base + disp.signExtend 64 * BitVec.ofNat 64 n

/-- The low 8n bits of a value, zero-extended. -/
def low (n : Nat) (x : Word) : Word := .ofNat 64 (x.toNat % 2 ^ (8 * n))

/-- A loaded value extended to 64 bits (R60). -/
def extend (z : Size) (x : Bool) (v : Word) : Word :=
  match z, x with
  | .b, true => (v.setWidth 8).signExtend 64
  | .h, true => (v.setWidth 16).signExtend 64
  | .w, true => (v.setWidth 32).signExtend 64
  | .b, false => (v.setWidth 8).setWidth 64
  | .h, false => (v.setWidth 16).setWidth 64
  | .w, false => (v.setWidth 32).setWidth 64
  | .d, _ => v

/-- The instant of an MM-I source (R61); a sum outside 0 to 2^48 − 1 wraps (log entry 96). -/
def instOf (s : State) : InstSrc → Instant
  | .rel n => s.ctx.rel + n.signExtend 48
  | .now n => s.part.now + n.signExtend 48
  | .reg gm => (s.g gm).setWidth 48

/-! ## Windows and homes -/

/-- The windows of R17. -/
inductive Win | w0 | w1 | w2 | w3 | w4
  deriving DecidableEq, Repr

/-- The window of a local address by R17's ranges alone. -/
def winOf (la : Nat) : Option Win :=
  if la < 2 ^ 19 then some .w0
  else if 2 ^ 32 ≤ la ∧ la < 2 ^ 32 + 2 ^ 30 then some .w1
  else if 2 ^ 33 ≤ la ∧ la < 2 ^ 33 + 2 ^ 32 then some .w2
  else if 2 ^ 40 ≤ la ∧ la < 2 ^ 40 + 96 * 2 ^ 32 then some .w3
  else if 0x7F00 * 2 ^ 32 ≤ la ∧ la < 0x7F00 * 2 ^ 32 + 2 ^ 32 then some .w4
  else none

/-- Bits [47:0] (R17). -/
def localAddr (va : Word) : Nat := va.toNat % 2 ^ 48

/-- Bits [60:48] (R16). -/
def devIndex (va : Word) : Nat := va.toNat / 2 ^ 48 % 2 ^ 13

/-- The device's own index (R409). -/
def State.ownIdx (s : State) : Nat := if s.dev.jobV then s.dev.jobIdx.toNat else 0

/-- The address is on this device (R16). -/
def State.onDevice (s : State) (va : Word) : Bool := devIndex va == 0x1FFF || devIndex va == s.ownIdx

/-- The reach entry of a peer (R410): port and channel, when the device may send to it (R409). -/
def State.reachOf (s : State) (j : Nat) : Option (Nat × Nat) :=
  let e := Table.get 0 s.dev.reach j
  if s.dev.jobV && e.getLsbD 31 then some (e.toNat / 2 ^ 16 % 64, e.toNat % 128) else none

/-- A die is enabled (R2). -/
def State.dieOn (s : State) (d : Nat) : Bool := decide (d < 8) && s.dev.dies.getLsbD d

/-- PDEF fields (R382). -/
def State.pdefOf (s : State) (p : Fin 8) : Word := s.dev.pdef[p]
def pdefV (w : Word) : Bool := w.getLsbD 63
def pdefRsv (w : Word) : Nat := w.toNat / 2 ^ 48 % 256
def pdefDies (w : Word) : Byte := w.extractLsb' 40 8
def pdefBanks (w : Word) : BitVec 16 := w.extractLsb' 16 16
def pdefSlots (w : Word) : BitVec 16 := w.extractLsb' 0 16

/-- STOPCNT.STATE (R387). -/
def State.stopState (s : State) (p : Fin 8) : Nat := (s.partAt p).regs.stopcnt.toNat / 2 ^ 62

/-- The partition runs: it does not stop, is not stopped and does not wait to resume (R389). -/
def State.running (s : State) (p : Fin 8) : Bool :=
  pdefV (s.pdefOf p) && decide (s.stopState p < 2) && !(s.partAt p).stopping

/-- A local-store bank of a core belongs to the partition (R382, log entry 9). -/
def State.bankOwned (s : State) (p : Fin 8) (core off : Nat) : Bool :=
  (pdefBanks (s.pdefOf p)).getLsbD (off / 2 ^ 15 % 16) && (pdefDies (s.pdefOf p)).getLsbD (core / 256)

/-- Check 4's window (R17, R73, R137): none for an address in no window, a core that is absent, or a bank that is not
the partition's. -/
def State.window (s : State) (core : Nat) (p : Fin 8) (va : Word) : Option Win :=
  if 2 ^ 61 ≤ va.toNat then none
  else match winOf (localAddr va) with
    | some .w0 => if !s.onDevice va || s.bankOwned p core (localAddr va) then some .w0 else none
    | some .w1 =>
      let c := localAddr va / 2 ^ 19 % 2 ^ 11
      if !s.onDevice va || (s.dieOn (c / 256) && s.bankOwned p c (localAddr va % 2 ^ 19)) then some .w1 else none
    | o => o

/-! ## Translation (R140) -/

/-- The byte address of a frame in a die's memory: SRAM when MEM is 1, DRAM otherwise. -/
def frameBase (die : Nat) (sram : Bool) : Nat := if sram then 2 ^ 40 + die * 2 ^ 29 else 2 ^ 41 + die * 2 ^ 36

/-- The size of a die's memory. -/
def frameLimit (sram : Bool) : Nat := if sram then 2 ^ 29 else 48 * 2 ^ 30

def pteV (e : Word) : Bool := e.getLsbD 63
def pteL (e : Word) : Bool := e.getLsbD 62
def pteSo (e : Word) : Bool := e.getLsbD 61
def pteIl (e : Word) : Bool := e.getLsbD 60
def pteDie (e : Word) : Nat := e.toNat / 2 ^ 57 % 8
def pteClu (e : Word) : Nat := e.toNat / 2 ^ 53 % 16
def pteSram (e : Word) : Bool := e.getLsbD 52
/-- A leaf's frame address: FRAME in bits [47:16]. -/
def pteFrame (e : Word) : Nat := e.toNat / 2 ^ 16 % 2 ^ 32 * 2 ^ 16
/-- A pointer's table address: bits [47:8]. -/
def pteTable (e : Word) : Nat := e.toNat / 2 ^ 8 % 2 ^ 40 * 2 ^ 8

/-- A leaf meets R140: reserved bits [51:48] and [15:0] are 0, its die is enabled, and `n` bytes lie in its memory. -/
def State.leafOk (s : State) (e : Word) (n : Nat) : Bool :=
  pteL e && decide (e.toNat / 2 ^ 48 % 16 = 0) && decide (e.toNat % 2 ^ 16 = 0) && s.dieOn (pteDie e)
    && decide (pteFrame e % n = 0) && decide (pteFrame e + n ≤ frameLimit (pteSram e))

/-- A pointer meets R140: reserved SO, IL, CLU, [51:48] and [7:0] are 0, its die is enabled, and its `n` bytes lie in
that die's memory. -/
def State.pointerOk (s : State) (e : Word) (n : Nat) : Bool :=
  !pteL e && !pteSo e && !pteIl e && decide (pteClu e = 0) && decide (e.toNat / 2 ^ 48 % 16 = 0)
    && decide (e.toNat % 256 = 0) && s.dieOn (pteDie e)
    && decide (pteTable e + n ≤ frameLimit (pteSram e))

/-- What a walk of the directories finds (R140). -/
inductive Walk
  /-- A leaf, and the offset in its page. -/
  | leaf (e : Word) (off : Nat)
  /-- The root has V = 0 (R377): reported whatever PAGH holds. -/
  | noRoot
  /-- An unmapped directory or table entry, at this physical address. -/
  | noDir (at_ : Nat)
  | noTab (at_ : Nat)
  | malformed
  /-- An entry on a line that fails its check (R4). -/
  | unread
  deriving DecidableEq, Repr

/-- The walk for a W2 or W3 address. It reads memory at every access (log entry 95). -/
def State.walk (s : State) (p : Fin 8) (w3 : Bool) (la : Nat) : Walk :=
  let root := if w3 then (s.partAt p).regs.ptw3 else (s.partAt p).regs.ptw2
  let idx := (la - (if w3 then 2 ^ 40 else 2 ^ 33)) / 2 ^ 21
  if !pteV root then .noRoot
  else if !s.pointerOk root (if w3 then 196608 * 8 else 2048 * 8) then .malformed
  else
    let da := frameBase (pteDie root) (pteSram root) + pteTable root + 8 * idx
    let d := BitVec.ofNat 64 (s.mem.read da 8)
    if s.badAt da then .unread
    else if !pteV d then .noDir da
    else if pteL d then (if s.leafOk d (2 ^ 21) then .leaf d (la % 2 ^ 21) else .malformed)
    else if !s.pointerOk d 256 then .malformed
    else
      let ta := frameBase (pteDie d) (pteSram d) + pteTable d + 8 * (la / 2 ^ 16 % 32)
      let t := BitVec.ofNat 64 (s.mem.read ta 8)
      if s.badAt ta then .unread
      else if !pteV t then .noTab ta
      else if s.leafOk t (2 ^ 16) then .leaf t (la % 2 ^ 16) else .malformed

/-- A leaf's place (R16, R140): the frame's address plus the offset, and the home core. -/
def leafPlace (e : Word) (off la : Nat) : Place :=
  { phys := frameBase (pteDie e) (pteSram e) + pteFrame e + off
    home := pteDie e * 256 +
      (if pteIl e then la / 2 ^ 12 % 16 * 16 + la / 2 ^ 16 % 16 else pteClu e * 16 + la / 2 ^ 12 % 16)
    so := pteSo e }

/-- What an address names, once checks 4 to 7 have passed. -/
inductive Target
  | here (pl : Place)
  /-- A device register (R138), by its address in W4. -/
  | reg (va : Word)
  /-- Another device, by its index. -/
  | away (dev : Nat)
  deriving DecidableEq, Repr

/-- Translation at the port (check 7): a place or a page fault of this KIND (R143). -/
def State.translate (s : State) (p : Fin 8) (va : Word) (w3 : Bool) (kind : Nat) : Except Stop Place :=
  match s.walk p w3 (localAddr va) with
  | .leaf e off => .ok (leafPlace e off (localAddr va))
  | .malformed => .error (.page va 8)
  | .unread => .error (.of .eccUncorrectable va)
  | _ => .error (.page va kind)

/-- Checks 4 to 7 of R73 for an access of `n` bytes made by a core for a partition. -/
def State.locate (s : State) (core : Nat) (p : Fin 8) (va : Word) (n kind : Nat) : Except Stop Target :=
  match s.window core p va with
  | none => .error (.of .segBound va)
  | some w =>
    if winOf (localAddr va + (n - 1)) != some w then .error (.of .windowStraddle va)
    else if !s.onDevice va then
      match s.reachOf (devIndex va) with
      | some _ => .ok (.away (devIndex va))
      | none => .error (.of .fabricUnreachable va)
    else match w with
      | .w0 => .ok (.here ⟨core * 2 ^ 19 + localAddr va, core, false⟩)
      | .w1 => .ok (.here ⟨localAddr va % 2 ^ 30, localAddr va / 2 ^ 19 % 2 ^ 11, false⟩)
      | .w2 => (s.translate p va false kind).map .here
      | .w3 => (s.translate p va true kind).map .here
      | .w4 => .ok (.reg va)

/-- What check 3 asks of a segment (R73). -/
structure Need where
  r : Bool := false
  w : Bool := false
  i : Bool := false
  n : Bool := false
  deriving DecidableEq, Repr

def Need.met (q : Need) (g : Seg) : Bool :=
  (!q.r || g.r) && (!q.w || g.w) && (!q.i || g.i) && (!q.n || g.n)

/-- KIND of a page fault (R143) by the access's need. -/
def Need.kind (q : Need) : Nat := if q.i then (if q.w then 3 else 2) else if q.w then 1 else 0

/-- Check 1 of R73. -/
def alignTo (va : Word) (n : Nat) : Except Stop Unit :=
  if va.toNat % (if n = 1 ∨ n = 2 ∨ n = 4 ∨ n = 8 then n else 64) ≠ 0 then .error (.of .align va) else .ok ()

/-- Checks 2 and 3 of R73 with a thread's segments. -/
def checkBounds (x : Slot) (va : Word) (n : Nat) (q : Need) : Except Stop Unit :=
  match x.dataSeg va with
  | none => .error (.of .segBound va)
  | some g =>
    if !g.holds va || decide (g.base.toNat + g.limit.toNat < va.toNat + n) then .error (.of .segBound va)
    else if q.met g then .ok () else .error (.of .segRights va)

/-- Checks 1 to 3 of R73 with a thread's segments. -/
def checkSeg (x : Slot) (va : Word) (n : Nat) (q : Need) : Except Stop Unit :=
  match alignTo va n with
  | .error e => .error e
  | .ok () => checkBounds x va n q

/-- Checks 4 and 5 alone (R73), for the instructions that make them before a drain. -/
def State.checkWin (s : State) (core : Nat) (p : Fin 8) (va : Word) (n : Nat) : Except Stop Win :=
  match s.window core p va with
  | none => .error (.of .segBound va)
  | some w => if winOf (localAddr va + (n - 1)) != some w then .error (.of .windowStraddle va) else .ok w

/-- Checks 1 to 7 of R73 of the thread that acts, and the strongly ordered test of R141 for the Instant domain. -/
def State.access (s : State) (va : Word) (n : Nat) (q : Need) (kind : Nat := q.kind) : Except Stop Target :=
  match checkSeg s.slot va n q with
  | .error e => .error e
  | .ok () =>
    match s.locate s.coreIdx s.slot.part va n kind with
    | .error e => .error e
    | .ok (.here pl) => if q.i && pl.so then .error (.of .segRights va) else .ok (.here pl)
    | .ok t => .ok t

/-- A read of `n` bytes at a place, with check 8. -/
def State.readAt (s : State) (va : Word) (pl : Place) (n : Nat) : Except Stop Nat :=
  if s.badAt pl.phys then .error (.of .eccUncorrectable va) else .ok (s.mem.read pl.phys n)

/-- A Now-domain write of `n` bytes at a place, with check 8. -/
def State.writeAt (s : State) (p : Fin 8) (va : Word) (pl : Place) (n x : Nat) (writer through : Option Nat) :
    Except Stop State :=
  if s.badAt pl.phys then .error (.of .eccUncorrectable va) else .ok (s.nowWrite p pl.phys n x writer through)

/-! ## Fetch -/

/-- Where the word at the PC is fetched (R54, R135), once its checks have passed. -/
def State.fetchAt (s : State) : Except Stop Target :=
  let pc := s.ctx.pc
  if pc.toNat % 4 ≠ 0 then .error (.of .align pc)
  else match s.slot.seg.toList.find? fun g => g.holds pc && g.x with
    | none =>
      if s.slot.seg.toList.any fun g => g.holds pc then .error (.of .segRights pc) else .error (.of .segBound pc)
    | some g =>
      if g.base.toNat + g.limit.toNat < pc.toNat + 4 then .error (.of .segBound pc)
      else s.locate s.coreIdx s.slot.part pc 4 4

end Sys2Proof.Machine
end

