-- ==== Sys2Proof/Machine/Access.lean ====
section
/-! DEFINITION. Accesses (01_machine R15, 03_formats R74, 07_instant R151 to R163, 08_ordering R169, 09_sync R197 to
R199): what a request does at its home, what its reply does to the waiting instruction, the register windows a
migration spills (R121), and migration itself (R219, R220). -/

namespace Sys2Proof.Machine

/-! ## The Instant domain at a port -/

/-- RETWIN.WIN, the retention window (R156). -/
def State.retwin (s : State) (p : Fin 8) : Nat := (s.partAt p).regs.retwin.toNat % 512

/-- The floor of a line (R156). -/
def State.floor (s : State) (p : Fin 8) (port line : Nat) : Nat :=
  let evicted := ((s.portAt port).floors.find? fun f => f.1 == p && f.2.1 == line).map fun f => f.2.2.toNat
  max ((s.partAt p).now.toNat - s.retwin p) (evicted.getD 0)

/-- The line's value as of instant i (R74): the earliest version superseded after i, else the current value. -/
def State.lineAt (s : State) (p : Fin 8) (port line : Nat) (i : Instant) : Nat :=
  let vs := (s.portAt port).history.filter fun v => v.part == p && v.line == line && decide (i.toNat < v.sup.toNat)
  match vs.foldl (fun (b : Option Version) v => match b with
      | none => some v
      | some w => if v.sup.toNat < w.sup.toNat then some v else some w) none with
  | some v => v.old.toNat
  | none => s.mem.read (line * 64) 64

/-- version_at at the home port, for an instant that is not above NOW (R74). -/
def State.versionAt (s : State) (p : Fin 8) (va : Word) (pl : Place) (n : Nat) (i : Instant) : Except Stop Nat :=
  let port := pl.home / 16
  let line := pl.phys / 64
  if s.badAt pl.phys then .error (.of .eccUncorrectable va)
  else if i.toNat < s.floor p port line then .error (.of .instantExpired va)
  else .ok (s.lineAt p port line i / 2 ^ (8 * (pl.phys % 64)) % 2 ^ (8 * n))

/-- What becomes of a store that reaches its port (R152, R153). -/
inductive Landing
  | accepted (slipped : Bool)
  | missed
  | full
  /-- Its line fails its check (R4, R73). -/
  | failed
  deriving DecidableEq, Repr

/-- The bytes of a store as (offset in line, sequence, value). -/
def Store.cells (st : Store) : List (Nat × BitVec 16 × Byte) :=
  (List.range st.n).filterMap fun k =>
    if st.mask.getLsbD k then
      some (st.pl.phys % 64 + k, st.ord.extractLsb' 0 16, st.x.extractLsb' (8 * k) 8)
    else none

/-- Within an entry, the higher sequence wins each byte (R152). -/
def mergeCell (bs : List (Nat × BitVec 16 × Byte)) (c : Nat × BitVec 16 × Byte) : List (Nat × BitVec 16 × Byte) :=
  match bs.find? fun b => b.1 == c.1 with
  | none => bs ++ [c]
  | some b => if b.2.1.toNat ≤ c.2.1.toNat then bs.map fun d => if d.1 == c.1 then c else d else bs

/-- The port takes a store with this V: it joins its entry, or makes one while the buffer has room (R152). -/
def Port.take (q : Port) (p : Fin 8) (st : Store) (v : Instant) (host : Bool) : Option Port :=
  let same := fun (e : Pending) => e.part == p && e.line == st.pl.phys / 64 && e.v == v
    && e.task == st.ord.extractLsb' 16 32 && e.host == host
  if q.pending.any same then
    let join := fun (e : Pending) => if same e then { e with bytes := st.cells.foldl mergeCell e.bytes } else e
    some { q with pending := q.pending.map join }
  else if q.pending.length < 4096 then
    some { q with pending := q.pending ++ [⟨p, st.pl.phys / 64, v, st.ord.extractLsb' 16 32, host, st.cells⟩] }
  else none

/-- A store at its home port (R152, R153): a missed one is discarded under TRAP and takes V = NOW + 1 under SLIP. -/
def State.land (s : State) (p : Fin 8) (st : Store) : State × Landing :=
  let port := st.pl.home / 16
  let now := (s.partAt p).now
  let missed := decide (st.v.toNat ≤ now.toNat)
  if s.badAt st.pl.phys then (s, .failed)
  else if missed && !st.slip then (s, .missed)
  else match (s.portAt port).take p st (if missed then now + 1 else st.v) false with
    | none => (s, .full)
    | some q =>
      let s := s.setPortAt port q
      if missed then
        let x := s.partAt p
        let n := x.regs.slips.toNat % 2 ^ 48
        (s.setPartAt p { x with regs := { x.regs with slips := .ofNat 64 (min (n + 1) (2 ^ 48 - 1)) } }, .accepted true)
      else (s, .accepted false)

/-- Monarch's pending marks that meet a test are cleared (R350): their publications take no effect, and are not logged (R393). -/
def State.clearMarks (s : State) (p : Fin 8) (f : Mark → Bool) : State :=
  let x := s.partAt p
  let gone := fun (e : LogRec) => e.kind == 4 && x.monarch.marks.any fun k => f k && .ofNat 64 k.expert == e.w2
  if x.monarch.marks.any f then
    s.setPartAt p { x with
      monarch := { x.monarch with marks := x.monarch.marks.filter fun k => !f k }, logq := x.logq.filter fun e => !gone e }
  else s

/-- SCANCEL at the home port (R163): a publication that is cancelled whole clears its expert's mark (R350). -/
def State.cancel (s : State) (p : Fin 8) (pl : Place) (n : Nat) (task : Half) : State :=
  let port := pl.home / 16
  let q := s.portAt port
  let keep := fun (e : Pending) =>
    if e.part == p && e.line == pl.phys / 64 && e.task == task && !e.host
        && decide ((s.partAt p).now.toNat < e.v.toNat) then
      { e with bytes := e.bytes.filter fun b => decide (b.1 < pl.phys % 64) || decide (pl.phys % 64 + n ≤ b.1) }
    else e
  let left := (q.pending.map keep).filter fun e => !e.bytes.isEmpty
  (s.setPortAt port { q with pending := left }).clearMarks p fun k =>
    decide ((s.partAt p).now.toNat < k.v.toNat) && k.at_.any fun l => l.1 == pl.phys / 64 && l.2.extractLsb' 16 32 == task
      && !left.any fun e => e.part == p && e.line == l.1 && e.v == k.v && e.bytes.any fun b => b.2.1 == l.2.extractLsb' 0 16

/-! ## Requests at a home -/

/-- A router is recorded for a line (R170). -/
def State.share (s : State) (line router : Nat) : State :=
  let l := Table.get [] s.sharers line
  if l.contains router then s else { s with sharers := Table.set s.sharers line (l ++ [router]) }

/-- A router is recorded as watching a line (R205). -/
def State.watch (s : State) (line router : Nat) : State :=
  let l := Table.get [] s.watchers line
  if l.contains router then s else { s with watchers := Table.set s.watchers line (l ++ [router]) }

/-- The home of a reservation (R197): a local-store bank, or the cluster memory port. -/
def homeId (pl : Place) : Nat := if pl.phys < 2 ^ 30 then 128 + pl.phys / 2 ^ 15 else pl.home / 16

/-- The line that a reply's note names. -/
def LineNote.line : LineNote → Option Nat
  | .none | .core _ => Option.none
  | .plain l | .fill _ l _ | .replace _ l _ | .purge l => some l

/-- A reply to a slot, put in flight. -/
def State.answer (s : State) (p : Fin 8) (slot : Nat) (r : Reply) (note : LineNote := .none) : State :=
  s.send p (.reply slot r note)

/-- How a request that fails answers. -/
def Reply.ofStop : Stop → Reply
  | .trap c v => .fail c v
  | .page va _ => .fail Cause.page.code va

/-- The waiters of a word in order: the first whose read passes its check becomes the head and is sent the word's
current value (R199, R200); one whose read fails is answered with the fault and removed. -/
def passOn : List Reservation → State → State
  | [], s => s
  | e :: r, s =>
    match s.readAt e.va e.pl (if e.z = .w then 4 else 8) with
    | .ok v => s.answer e.part e.slot (.ok (.ofNat 512 v)) (.plain (e.pl.phys / 64))
    | .error f => passOn r ({ s with reservations := s.reservations.erase e }.answer e.part e.slot (.ofStop f)
        (.plain (e.pl.phys / 64)))

/-- The queue of the word at a physical address (R197). -/
def State.queueAt (s : State) (phys : Nat) : List Reservation := s.reservations.filter fun e => e.pl.phys == phys

/-- What a request does at its home, made by a slot's thread: the state after it, and the answer unless it comes later
(a reservation that waits, or one that a full home refuses). W4 accesses are made by the unit that owns the register. -/
def State.perform (s : State) (p : Fin 8) (slot : Option Nat) (r : Req) : State × Option Reply :=
  let router := slot.map (· / 256)
  let through := fun (pl : Place) => if some (pl.home / 16) = router then none else router
  match r with
  | .read va pl n mode =>
    match s.readAt va pl n with
    | .error e => (s, some (.ofStop e))
    | .ok v =>
      (match router with
        | some q => if mode == .fill && pl.home / 16 != q then s.share (pl.phys / 64) q else s
        | none => s, some (.ok (.ofNat 512 v)))
  | .version va pl n i =>
    match s.versionAt p va pl n i with
    | .error e => (s, some (.ofStop e))
    | .ok v => (s, some (.ok (.ofNat 512 v)))
  | .write va pl n x =>
    match s.writeAt p va pl n x.toNat slot (through pl) with
    | .error e => (s, some (.ofStop e))
    | .ok s => (s, some (.ok 0))
  | .cancel _ pl n task => (s.cancel p pl n task, some (.ok 0))
  | .rsv va pl z key =>
    match slot with
    | none => (s, some (.fail Cause.segBound.code va))
    | some slot =>
    match s.readAt va pl (if z = .w then 4 else 8) with
    | .error e => (s, some (.ofStop e))
    | .ok v =>
      if (s.queueAt pl.phys).any fun e => e.part == p && e.key == key then
        (s, some (.fail Cause.rsvMisuse.code va))
      else if 64 ≤ (s.reservations.filter fun e => homeId e.pl == homeId pl).length then
        (s.setSlotAt slot { s.slotAt slot with run := .waiting (.resend (s.refcnt + 16)) }, none)
      else
        let first := (s.queueAt pl.phys).isEmpty
        let s := { s with reservations := s.reservations ++ [⟨p, va, pl, z, key, slot⟩] }
        (s, if first then some (.ok (.ofNat 512 v)) else none)
  | .rls va pl z key x =>
    match s.queueAt pl.phys with
    | [] => (s, some (.fail Cause.rsvMisuse.code va))
    | e :: r =>
      if !(e.part == p && e.key == key && e.z == z) then (s, some (.fail Cause.rsvMisuse.code va))
      else if x.isSome && s.badAt pl.phys then (s, some (.fail Cause.eccUncorrectable.code va))
      else
        let s := { s with reservations := s.reservations.erase e }
        let s := match x with
          | none => s
          | some v => s.nowWrite p pl.phys (if z = .w then 4 else 8) v.toNat slot (through pl)
        (passOn r s, some (.ok 0))
  | .mon _ pl =>
    (match router with
      | some q => s.watch (pl.phys / 64) q
      | none => s, some (.ok (.ofNat 512 (pl.phys / 64))))
  | .w4read .. | .w4write .. | .ask .. | .handle _ => (s, none)

/-! ## Replies -/

/-- Puts the low `n` bytes of a value into a vector register (R257). -/
def Slot.putBytes (x : Slot) (d : Reg) (n : Nat) (v : Nat) : Slot :=
  let old := x.v[d].toNat
  { x with v := x.v.set d (.ofNat 512 (old / 2 ^ (8 * n) * 2 ^ (8 * n) + v % 2 ^ (8 * n))) }

/-- A window image of 64 bytes, g8 at offset 0 (R120). -/
def windowOf (v : Nat) : Window := Vector.ofFn fun i => .ofNat 64 (v / 2 ^ (64 * i.val))

/-- A window's image. -/
def windowImage (w : Window) : Nat := w.toList.foldr (fun x a => x.toNat + 2 ^ 64 * a) 0

/-- The current window, g8 to g15. -/
def Ctx.window (c : Ctx) : Window := Vector.ofFn fun i => c.g[8 + i.val]

/-- The context with another current window. -/
def Ctx.setWindow (c : Ctx) (w : Window) : Ctx :=
  { c with g := Vector.ofFn fun i => if h : i.val < 8 then c.g[i] else w[i.val - 8] }

/-- RET's pops (R131): newest first, while the address lies outside the entry's body. -/
def popFor (t : Word) : List Half → List Half
  | [] => []
  | e :: r =>
    if (t.toNat / 4 + 2 ^ 11 - (loopE e + 2 ^ 11 - loopL e + 1) % 2 ^ 11) % 2 ^ 11 < loopL e then e :: r else popFor t r

/-- The loop stack after a RET to `t` (R131). -/
def retLoops (l : Loops) (t : Word) : Loops := loopsOf (popFor t (loopsUsed l).reverse).reverse

/-- TSTATUS from its fields (R285). -/
def tstatusWord (miss idx : Nat) (cause : Byte) (fault done : Bool) : Word :=
  .ofNat 64 (2 ^ 48 * min miss 0xFFFF + 2 ^ 16 * (idx % 2 ^ 13) + 2 ^ 8 * cause.toNat + 2 * fault.toNat + done.toNat)

/-- A fault of TRUN that TSTATUS records (R71, R284). -/
def State.listFault (s : State) (idx : Nat) (c : Byte) (v : Word) : State :=
  (s.setSlot { s.slot with tstatus := tstatusWord 0 idx c true false }).trap c v

/-- A record that RSTAT could not write goes back to the head of its queue; with 256 posted meanwhile the newest is discarded (R362). -/
def State.backRecord (s : State) (r : Nat) : State :=
  let x := s.part
  s.setPartAt s.slot.part { x with monarch := { x.monarch with
    records := (r :: x.monarch.records).take 256, ovf := x.monarch.ovf || decide (256 ≤ x.monarch.records.length) } }

/-- The slots of a core whose threads wait for a message look again (R238). -/
def State.wakeTakers (s : State) (core : Nat) (p : Fin 8) : State :=
  ((List.range 16).map (core * 16 + ·)).foldl (fun s n => match (s.slotAt n).run with
    | .waiting .inbox | .waiting (.key _) =>
      if (s.slotAt n).part = p ∧ (s.partAt p).stopping = false then s.setSlotAt n { s.slotAt n with run := .runnable } else s
    | _ => s) s

/-- A message that the thread that acts takes leaves its inbox, or stays there for the others when its write has failed (R238). -/
def State.settleTake (s : State) (m : Vec) (leaves : Bool) : State :=
  let u := s.coreAt s.coreIdx
  let mine := fun (e : Message) => e.part == s.slot.part && e.m == m && e.running
  let one := fun (l : List Message) =>
    if leaves then l.eraseP mine else l.modify (l.findIdx mine) fun e => { e with running := false }
  let t := s.setCoreAt s.coreIdx (if u.high.any mine then { u with high := one u.high } else { u with low := one u.low })
  if leaves then t else t.wakeTakers s.coreIdx s.slot.part

/-- The rest of an instruction's effect once its answer is there (R159). A release takes 1 from the count of reservations, which stays
0 where it is 0 (log entry 125). -/
def finish (f : Finish) (r : Reply) (s : State) : Out :=
  match r with
  | .fail c v =>
    match f with
    | .entry va => if c = Cause.page.code then .stop (.page v 0) else .stop (.of .segBound va)
    | .line idx => .stay (s.listFault idx c v)
    | .took _ m => .stay ((s.settleTake m false).trap c v)
    | .record r => .stay ((s.backRecord r).trap c v)
    | .segs => .stay (s.setSlot { s.slot with prog := { s.slot.prog with got := s.slot.prog.got ++ [128], fin := none } })
    | _ => .stop (.trap c v)
  | .slipped =>
    match f with
    | .accepted => .seq (s.setCtx (s.ctx.nextOrd.setSlip true))
    | _ => .seq s
  | .ok v =>
    let w : Word := v.setWidth 64
    match f with
    | .load d z x => .setG d (extend z x w) s
    | .done => .seq s
    | .accepted => .seq (s.setCtx s.ctx.nextOrd)
    | .rlook d e h =>
      let live := (List.range 8).filter fun k => v.getLsbD (64 * k + 63)
      if v.getLsbD 63 = false then .stop (.of .replicaStale e)
      else
        let k := live.getD (h.toNat % live.length) 0
        .setG d (.ofNat 64 (0x1FFF * 2 ^ 48 + v.toNat / 2 ^ (64 * k) % 2 ^ 48)) s
    | .jtab => .jump s (s.ctx.pc + 4 * ((v.setWidth 32).signExtend 64))
    | .reload =>
      let c := s.ctx
      let t := c.g[15]
      .jump (s.setCtx { (c.setWindow (windowOf v.toNat)) with wsp := c.wsp + 64, loops := retLoops c.loops t }) t
    | .rsv d =>
      match setG d w s with
      | .ok s => .seq (s.dropAhead.setCtx (s.ctx.setRsvn (s.ctx.rsvn + 1)))
      | .error e => .stop e
    | .rls => .seq (s.setCtx (s.ctx.setRsvn (s.ctx.rsvn - 1)))
    | .mon line =>
      let x := s.slot
      match x.monitors.toList.findIdx? (·.isNone) with
      | some k => .seq (s.setSlot { x with monitors := x.monitors.setIfInBounds k (some ⟨line, v.toNat, false⟩) })
      | none => .seq s
    | .vld d n => .seq (s.setSlot (s.slot.putBytes d n v.toNat))
    | .lane z =>
      let q := s.slot.prog
      let p : Prog := { q with
        lanes := q.lanes + 1, read := q.read + 2 ^ (8 * z * q.lanes) * (v.toNat % 2 ^ (8 * z)), fin := none }
      .stay (s.setSlot { s.slot with prog := p })
    | .send d =>
      match setP d (w != 0) s with
      | .ok s => .seq (if w = 0 then s else s.setCtx s.ctx.nextOrd)
      | .error e => .stop e
    | .stopat d => .setP d (w != 0) s
    | .record _ => .stay (s.setSlot { s.slot with prog := { s.slot.prog with lanes := s.slot.prog.lanes + 1, fin := none } })
    | .took d m => .setG d (m.extractLsb' 64 64) (s.settleTake m true)
    | .spilled =>
      let x := s.slot
      .stay (s.setSlot { x with
        windows := x.windows.dropLast, ctx := { x.ctx with wsp := x.ctx.wsp - 64 }, prog := { x.prog with fin := none } })
    | .route => .stay (s.setSlot { s.slot with prog := { s.slot.prog with route := some (w != 0), fin := none } })
    | .block | .entry _ | .line _ | .segs => .stay (s.setSlot { s.slot with prog := { s.slot.prog with got := s.slot.prog.got ++ [v], fin := none } })
    | .fetch => .stay (s.setSlot { s.slot with prog := { s.slot.prog with fetched := some v.toNat, fin := none } })

/-! ## Windows and migration -/

/-- The flits of a transfer (R412): 64 bytes of payload each, so that the 188 bytes of a thread (R12) take three (log entry 17). -/
def Packet.flits (q : Packet) : List Packet :=
  match q.body with
  | .migrationTo .. => [{ q with body := .part q.body }, { q with body := .part q.body }, q]
  | _ => [q]

/-- Puts a packet into a peer's egress queue (R410, R411). -/
def State.export (s : State) (d : Nat) (p : Packet) : State :=
  let l := Table.get [] s.dev.egress d ++ p.flits.map fun q => (Table.get 0 s.dev.reach d, q)
  { s with dev := { s.dev with egress := Table.set s.dev.egress d l } }

/-- A reply of a line to a router fills no entry there. -/
def Packet.unfilled (router line : Nat) (q : Packet) : Packet :=
  match q.body with
  | .reply n r note =>
    if slotKey n / 256 = router ∧ note.line = some line then { q with body := .reply n r (.plain line) } else q
  | _ => q

/-- A write request that passes outward drops its router's entries of the line (R170). -/
def State.dropLine (s : State) (router line : Nat) : State :=
  let q := s.portAt router
  if q.remote.any fun e => e.line == line then
    s.setPortAt router { q with remote := q.remote.filter fun e => e.line != line }
  else s

/-- A write that passes outward through a router and is made at its home in the same step (R170): the router's entries of the line
are dropped, and replies that the home sent it before and that it has not taken fill none (log entry 10). -/
def State.passOut (s : State) (router line : Nat) : State :=
  let t := s.dropLine router line
  { t with net := t.net.map (Packet.unfilled router line) }

/-- A Now-domain write by the thread that acts, made at its home here (R170): one to a home outside its cluster passes its
router. -/
def State.storeAt (s : State) (va : Word) (pl : Place) (n x : Nat) : Except Stop State :=
  if pl.home / 16 = s.cluster then s.writeAt s.slot.part va pl n x (some s.cur) none
  else (s.passOut s.cluster (pl.phys / 64)).writeAt s.slot.part va pl n x (some s.cur) (some s.cluster)

/-- What a spill comes to (R121): the window has left the cache, or its write must be answered by another device. -/
inductive Spilt
  | done (s : State)
  | away (d : Nat) (r : Req)

/-- The spill of the oldest cached window (R121): checked as a Now-domain write at WSP − 64, never trailed; in W0 or W4
it raises SEG-BOUND (log entry 11). -/
def spillOldest (s : State) : Except Stop Spilt :=
  let x := s.slot
  let va := x.ctx.wsp - 64
  match x.windows.getLast? with
  | none => .ok (.done s)
  | some w =>
    if winOf (localAddr va) = some .w0 then .error (.of .segBound va)
    else match s.access va 64 { w := true, n := true } with
      | .error e => .error e
      | .ok (.reg _) => .error (.of .segBound va)
      | .ok (.here pl) =>
        let t := s.setSlot { x with windows := x.windows.dropLast, ctx := { x.ctx with wsp := va } }
        (t.storeAt va pl 64 (windowImage w)).map .done
      | .ok (.away d) => .ok (.away d (.write va ⟨0, 0, false⟩ 64 (.ofNat 512 (windowImage w))))

/-- The thread sends a request to another device and leaves the rotation until the answer (R159). -/
def requestAway (i : Instr) (d : Nat) (r : Req) (f : Finish) (s : State) : Out :=
  .stay ((s.export d ⟨s.slot.part, .peerRequest s.ownIdx (s.peerKey s.cur) s.ctx.priv r⟩).await i .reply (some f))

/-- A forced spill (R121), and then the rest of the instruction: the thread waits while a spill to another device is made. -/
def spillThen (i : Instr) (k : State → Out) (s : State) : Out :=
  .bind (spillOldest s) fun r => match r with
    | .done s => k s
    | .away d r => requestAway i d r .spilled s

/-- Every cached older window is spilled, oldest first, at most four (R121), and then the rest of the instruction. -/
def spillAll (i : Instr) (k : State → Out) : Nat → State → Out
  | 0, s => k s
  | n + 1, s => if s.slot.windows.isEmpty then k s else spillThen i (spillAll i k n) s

/-- The packet of a thread that leaves (R219). -/
def Slot.pack (x : Slot) (word : Option Nat) : Thread :=
  { ctx := x.ctx, part := x.part, task := x.task, spawned := x.spawned, cmds := x.cmds, word := word
    inst := x.prog.inst, drained := x.prog.drained, vec := none }

/-- The same, with the core that it leaves and the address that it travels to (R418). -/
def State.packTo (s : State) (va : Word) (word : Option Nat) : Thread :=
  { s.slot.pack word with core := s.coreIdx, va := va }

/-- One entry of a segment table, in the layout of R47, as a segment register; none where SEGLD refuses it (R19, R136,
R378). A T segment is tested by R17's ranges alone (log entry 124). -/
def segOf (e : Nat) : Option Seg :=
  let g : Seg := { base := .ofNat 64 (e / 2 ^ 64), limit := .ofNat 48 (e / 2 ^ 16), rights := .ofNat 7 e }
  let lo := g.base.toNat
  let hi := g.base.toNat + g.limit.toNat - 1
  let within := fun (a b : Win) =>
    let w := winOf (lo % 2 ^ 48)
    lo / 2 ^ 48 == hi / 2 ^ 48 && (w == some a || w == some b) && winOf (hi % 2 ^ 48) == w
  if g.limit = 0 then some {}
  else if e / 2 ^ 7 % 2 = 1 || (g.i && g.n) || (!g.i && !g.n && (g.r || g.w)) || decide (2 ^ 64 ≤ hi)
      || (g.i && !within .w2 .w3) || (g.t && (!g.n || !within .w0 .w1)) || (g.h && !g.n) then none
  else some g

/-- What reading an entry of a segment table comes to (R378): its 16 bytes, empty where the read fails, or a wait for a page or
for another device. -/
inductive SegRead
  | entry (g : Seg)
  | page (va : Word) (kind : Nat)
  | away (d : Nat) (va : Word)

/-- A table entry, read at supervisor level with no segment check (R378). -/
def State.segEntry (s : State) (core : Nat) (p : Fin 8) (i : Nat) : SegRead :=
  let va := (s.partAt p).regs.segtb + 16 * .ofNat 64 i
  match s.locate core p va 16 0 with
  | .error (.page a k) => .page a k
  | .ok (.here pl) => match s.readAt va pl 16 with
    | .ok v => .entry ((segOf v).getD {})
    | .error _ => .entry {}
  | .ok (.away d) => .away d va
  | _ => .entry {}

/-- The loading of s0 to s7 from a thread's selectors (R378): refused entries and failed reads load empty. `got` holds the
entries that another device has answered, in order; the first read that must wait stops it. -/
def State.loadSegs (s : State) (core : Nat) (p : Fin 8) : List Byte → List Vec → Except SegRead (List Seg)
  | [], _ => .ok []
  | i :: r, got =>
    let on := fun (g : Seg) (got : List Vec) => (s.loadSegs core p r got).map fun l => g :: l
    if (s.partAt p).regs.segtb = 0 then on {} got
    else match s.segEntry core p i.toNat, got with
      | .entry g, _ => on g got
      | .away _ _, v :: t => on ((segOf (v.toNat % 2 ^ 128)).getD {}) t
      | e, _ => .error e

/-- Loads the segment registers of a slot, or its thread waits with the loading to be repeated (R378): dropped for a page, or
for another device's answer. -/
def State.fillSegs (s : State) (n : Nat) : State :=
  let x := s.slotAt n
  match s.loadSegs (n / 16) x.part x.ctx.sel.toList x.prog.got with
  | .ok l =>
    s.setSlotAt n { x with
      seg := Vector.ofFn fun i => l.getD i.val {}, unloaded := false, prog := { x.prog with got := [] } }
  | .error (.page va k) =>
    let s := s.pageFault n va k
    s.setSlotAt n { s.slotAt n with unloaded := true, prog := x.prog }
  | .error (.away d va) =>
    (s.export d ⟨x.part, .peerRequest s.ownIdx (s.peerKey n) 1 (.read va ⟨0, 0, false⟩ 16 .plain)⟩).setSlotAt n { x with
      run := .waiting .reply, unloaded := true, prog := { x.prog with fin := some .segs } }
  | .error (.entry _) => s

/-- The ordinary slots of a partition on a core (R216), ascending: all but the highest-numbered. -/
def State.ordinary (s : State) (p : Fin 8) : List Nat :=
  let l := (List.range 16).filter fun i => (pdefSlots (s.pdefOf p)).getLsbD i
  l.dropLast

/-- The message slot of a partition (R216). -/
def State.messageSlot (s : State) (p : Fin 8) : Option Nat :=
  ((List.range 16).filter fun i => (pdefSlots (s.pdefOf p)).getLsbD i).getLast?

/-- The lowest-numbered free ordinary slot of a core (R220), as a slot key. -/
def State.freeSlot (s : State) (core : Nat) (p : Fin 8) : Option Nat :=
  ((s.ordinary p).map (core * 16 + ·)).find? fun n => (s.slotAt n).run == .free

/-- A thread takes a slot (R220): its vector state, monitors, windows and saved state are those of a slot newly given a
thread (R13, R205, R241, R377), and its segments are loaded (R134). -/
def State.place (s : State) (n : Nat) (t : Thread) : State :=
  let x : Slot := {
    ctx := t.ctx, run := .runnable, part := t.part, task := t.task, spawned := t.spawned, cmds := t.cmds
    ready := (s.slotAt n).ready, gen := (s.slotAt n).gen
    unloaded := true, prog := { word := t.word, inst := t.inst, drained := t.drained, fault := t.fault } }
  let x := match t.vec with
    | none => x
    | some (v, vl, k) => { x with v := v, vl := vl, k := k }
  (s.setSlotAt n x).fillSegs n

/-- The inbox entry of a handler that ends is freed (R222). -/
def CoreUnit.endHandler (u : CoreUnit) (p : Fin 8) : CoreUnit :=
  let keep := fun (m : Message) => !(m.part == p && m.running && m.m.extractLsb' 0 64 != 0)
  { u with high := u.high.filter keep, low := u.low.filter keep }

/-- A slot becomes free. A handler that leaves the message slot frees its inbox entry (R222). -/
def State.vacate (s : State) (n : Nat) : State :=
  let p := (s.slotAt n).part
  let s := if (s.slotAt n).handler then s.setCoreAt (n / 16) ((s.coreAt (n / 16)).endHandler p) else s
  s.setSlotAt n { part := p, ready := (s.slotAt n).ready, gen := (s.slotAt n).gen }

/-- Free ordinary slots of a core go to its arrivals, the oldest first (R220): at the end of a cycle, so that a SPAWN issued in
it comes before them. -/
def State.offerSlots (s : State) (core : Nat) : State :=
  (s.coreAt core).arrivals.foldl (fun s t =>
    match s.freeSlot core t.part with
    | some n =>
      if (s.partAt t.part).stopping then s
      else
        let u := s.coreAt core
        (s.setCoreAt core { u with arrivals := u.arrivals.erase t }).place n t
    | none => s) s

/-- Migration (R15, R219): the windows are spilled, the thread is settled (R171), and its packet leaves with the word it
performs at its home core. -/
def migrate (i : Instr) (word : Option Nat) (va : Word) (core : Nat) (s : State) : Out :=
  spillAll i (fun s =>
    if s.slot.unacked ≠ 0 then .stay (s.await i .settle)
    else .stay ((s.send s.slot.part (.migration core (s.packTo va word))).vacate s.cur)) 4 s

/-- Migration to another device: the packet carries the virtual address across Opal (R16). -/
def migrateAway (i : Instr) (word : Option Nat) (va : Word) (d : Nat) (s : State) : Out :=
  spillAll i (fun s =>
    if s.slot.unacked ≠ 0 then .stay (s.await i .settle)
    else .stay ((s.export d ⟨s.slot.part, .migrationTo va (s.packTo va word)⟩).vacate s.cur)) 4 s

/-- The bytes that a request names. -/
def Req.size : Req → Nat
  | .read _ _ n _ | .version _ _ n _ | .write _ _ n _ | .cancel _ _ n _ | .w4read _ n | .w4write _ n _ | .ask _ n _ _ => n
  | .rsv _ _ z _ | .rls _ _ z _ _ => dsizeBytes z
  | .mon .. => 1
  | .handle _ => 32

/-- What a request asks of its segment. -/
def Req.need : Req → Need
  | .version .. => { r := true, i := true }
  | .cancel .. => { w := true, i := true }
  | .write .. | .w4write .. | .rls .. => { w := true, n := true }
  | .ask _ _ _ inst => { r := true, i := inst }
  | .read .. | .w4read .. | .rsv .. | .mon .. | .handle _ => { r := true, n := true }

/-- The line a write request takes outward, if it is one. -/
def Req.writes : Req → List Nat
  | .write _ pl _ _ => [pl.phys / 64]
  | .rls _ pl _ _ (some _) => [pl.phys / 64]
  | _ => []

/-- The thread sends its request and leaves the rotation until the answer (R159). -/
def request (i : Instr) (r : Req) (f : Finish) (s : State) : Out :=
  let s := r.writes.foldl (fun s l => s.dropLine s.cluster l) s
  .stay ((s.send s.slot.part (.request s.cur r)).await i .reply (some f))

/-- An access to another device (R139, R141): a roaming thread asks the translating port there, and then migrates, or to a
strongly ordered page sends a request. -/
def leaveFor (i : Instr) (va : Word) (n : Nat) (q : Need) (d : Nat) (ask : State → Out) (s : State) : Out :=
  if !s.slot.roams then ask s
  else match s.slot.prog.route with
    | none => requestAway i d (.ask va n q.kind q.i) .route s
    | some true => ask s
    | some false => migrateAway i (encodeWord i) va d s
/-- An access of the thread that acts to a located place (R15): made here when its home is this core, by migration
when the thread roams and the instruction migrates, by request otherwise. -/
def access (i : Instr) (migrates : Bool) (va : Word) (pl : Place) (r : Req) (f : Finish) (s : State) : Out :=
  if pl.home = s.coreIdx then
    match s.perform s.slot.part (some s.cur) r with
    | (s', some a) => finish f a s'
    | (s', none) =>
      let w := match s'.slot.run with
        | .waiting w => w
        | _ => .reply
      .stay (s'.await i w (some f))
  else if migrates && s.slot.roams && !pl.so then migrate i (encodeWord i) va pl.home s
  else request i r f s

/-- An access to what its address names, once checks 1 to 7 have passed (R15): W4 is always a request, another
device is reached by migration or by request, and a target the instruction has no form for raises SEG-BOUND. -/
def reach (i : Instr) (migrates : Bool) (va : Word) (t : Target) (mk : Place → Req) (reg : Option (Word → Req))
    (f : Finish) (s : State) : Out :=
  match t with
  | .here pl => access i migrates va pl (mk pl) f s
  | .reg off => match reg with
    | some r => request i (r off) f s
    | none => .stop (.of .segBound va)
  | .away d =>
    let r := mk ⟨0, 0, false⟩
    let ask := requestAway i d r f
    if migrates && winOf (localAddr va) != some .w4 then leaveFor i va r.size r.need d ask s else ask s

end Sys2Proof.Machine
end

