-- ==== Sys2Proof/Machine/Life.lean ====
section
/-! DEFINITION. What several families share: drains (R172), messages and their headers (R222, R223), launches and their
completions (R226, R230, R231, R403), provisional stores on their way (R337), and the end of a thread (R235). -/

namespace Sys2Proof.Machine

/-! ## Drains -/

/-- The routers of every enabled die. -/
def State.routers (s : State) : List Nat := (List.range 128).filter fun r => s.dieOn (r / 16)

/-- The routers T of a drain at a scope, from a cluster (R172). -/
def State.scopeRouters (s : State) (cluster : Nat) : Scope → List Nat
  | .core | .clu => [cluster]
  | .die => (List.range 16).map (cluster / 16 * 16 + ·)
  | .dev => s.routers

/-- An invalidation for a router is in flight. -/
def State.owes (s : State) (r : Nat) : Bool :=
  s.net.any fun p => match p.body with
    | .inval _ q _ => q == r
    | _ => false

/-- drain(S) of the thread that acts, before the rest of its instruction (R172): it waits until it is settled, then for a
token at each router of the scope that an invalidation is still on its way to (log entry 12). -/
def drain (i : Instr) (sc : Scope) (k : State → Out) (s : State) : Out :=
  if s.slot.prog.drained then k s
  else if s.slot.unacked ≠ 0 then .stay (s.await i .settle)
  else
    let t := (s.scopeRouters s.cluster sc).filter s.owes
    if t.isEmpty then k s
    else
      let p := s.slot.part
      let tokens := t.map fun r => Packet.mk p (.token s.cur r)
      .stay (({ s with net := s.net ++ tokens }).await i (.drain t.length))

/-! ## Messages -/

/-- Doubleword k of a 64-byte value. -/
def dw (m : Vec) (k : Nat) : Word := m.extractLsb' (64 * k) 64

/-- A 64-byte value from its doublewords. -/
def vecOf (l : List Word) : Vec := .ofNat 512 (l.foldr (fun x a => x.toNat + 2 ^ 64 * a) 0)

/-- A message header (R222). -/
def header (hi : Bool) (kind dev : Nat) (task : Half) (seq : BitVec 16) : Word :=
  .ofNat 64 (2 ^ 63 * hi.toNat + 2 ^ 61 * kind + 2 ^ 48 * dev + 2 ^ 16 * task.toNat + seq.toNat)

/-- A message with its header put in dw1. -/
def withHeader (m : Vec) (h : Word) : Vec :=
  vecOf [dw m 0, h, dw m 2, dw m 3, dw m 4, dw m 5, dw m 6, dw m 7]

/-- The partition split P (R384). -/
def State.split (s : State) : Nat := 2 ^ s.dev.log2p.toNat

/-- The share of a divided resource of 64 (R384). -/
def State.share64 (s : State) : Nat := 64 / s.split

/-- A message of the device, from where a core is, to a core's inbox, put in flight. -/
def State.post (s : State) (p : Fin 8) (src core : Nat) (hi : Bool) (m : Vec) : State :=
  s.send p (.message (.ofNat 64 (0x1FFF00010000 * 2 ^ 16 + core * 2 ^ 19)) core hi m (.unit src))

/-- The completion of a command, from where a core is, to a core's low inbox (R301). -/
def State.postDone (s : State) (p : Fin 8) (src core stamp : Nat) (m : Vec) : State :=
  s.send p (.message (.ofNat 64 (0x1FFF00010000 * 2 ^ 16 + core * 2 ^ 19)) core false m (.completed src stamp))

/-- The lowest-numbered enabled die (R11). -/
def State.firstDie (s : State) : Nat := ((List.range 8).find? s.dieOn).getD 0

/-! ## Launch descriptors (R225, R226) -/

def descTrec (m : Vec) : Word := dw m 0
def descArg (m : Vec) : Word := dw m 1
def descPol (m : Vec) : Bool := (dw m 2).getLsbD 54
def descTmsg (m : Vec) : Bool := (dw m 2).getLsbD 53
def descRes (m : Vec) : Bool := (dw m 2).getLsbD 52
def descCore0 (m : Vec) : Nat := (dw m 2).toNat / 2 ^ 48 % 16
/-- Teams per crew. -/
def descCrew (m : Vec) : Nat := (dw m 2).toNat / 2 ^ 44 % 16 + 1
/-- Tasks per team. -/
def descTeam (m : Vec) : Nat := (dw m 2).toNat / 2 ^ 40 % 16 + 1
def descDies (m : Vec) : Byte := (dw m 2).extractLsb' 32 8
def descRstep (m : Vec) : Nat := (dw m 3).toNat / 2 ^ 48
def descRel0 (m : Vec) : Instant := (dw m 3).setWidth 48
def descWaves (m : Vec) : Nat := (dw m 4).toNat / 2 ^ 32
def descNcrew (m : Vec) : Nat := (dw m 4).toNat % 2 ^ 32
def descVoff (m : Vec) : BitVec 16 := (dw m 5).setWidth 16
def descCdst (m : Vec) : Word := dw m 6

/-- The crews of a launch, over all its waves. -/
def descCrews (m : Vec) : Nat := descNcrew m * descWaves m

/-- The tasks of a launch (R225). -/
def descTasks (m : Vec) : Nat := descTeam m * descCrew m * descCrews m

/-- The k-th die of a mask, in ascending order (R226). -/
def nthDie (mask : Byte) (k : Nat) : Nat := ((List.range 8).filter fun d => mask.getLsbD d).getD k 0

/-- The number of dies in a mask. -/
def countDies (mask : Byte) : Nat := ((List.range 8).filter fun d => mask.getLsbD d).length

/-- The cluster, 0 to 127, on which a crew is placed (R226). -/
def crewCluster (m : Vec) (c : Nat) : Nat :=
  let cw := c % descNcrew m
  let d := countDies (descDies m)
  nthDie (descDies m) (cw % d) * 16 + cw / d % 16

/-- The cores of a crew, in team order. -/
def crewCores (m : Vec) (c : Nat) : List Nat :=
  (List.range (descCrew m)).map fun t => crewCluster m c * 16 + descCore0 m + t

/-- The release instant of a crew's tasks (R226), modulo 2^48 (log entry 96). -/
def crewRel (m : Vec) (c : Nat) : Instant := descRel0 m + .ofNat 48 (c / descNcrew m * descRstep m)

/-- The core's list holds an unstarted task of the partition (R235). -/
def State.listed (s : State) (p : Fin 8) (core : Nat) : Bool :=
  (s.partAt p).launches.any fun l => (List.range (descCrews l.desc)).any fun c =>
    !l.started.contains c && (crewCores l.desc c).contains core

/-! ## Completions -/

/-- A record for the host queue's completion area (R403); it waits while the area is full, or while its page cannot be
written (log entry 13). -/
def State.record (s : State) (p : Fin 8) (m : Vec) : State :=
  let x := s.partAt p
  let hold := s.setPartAt p { x with records := x.records ++ [m], qerr := x.qerr ||| 2 }
  if !x.records.isEmpty || (x.cqw - x.cqr).toNat = x.cqlen then hold
  else match s.locate (s.firstDie * 256) p (x.cqbase + 64 * .ofNat 64 (x.cqw.toNat % x.cqlen)) 64 1 with
    | .ok (.here pl) =>
      ((s.nowWrite p pl.phys 64 m.toNat none none).setPartAt p { x with cqw := x.cqw + 1 }).signal 1
    | _ => hold

/-- Held records are written in order once there is room (R403). -/
def State.flushRecords (s : State) (p : Fin 8) : Nat → State
  | 0 => s
  | n + 1 =>
    match (s.partAt p).records with
    | [] => s
    | m :: r =>
      let s' := (s.setPartAt p { s.partAt p with records := [] }).record p m
      if (s'.partAt p).records.isEmpty then
        (s'.setPartAt p { s'.partAt p with records := r }).flushRecords p n
      else s.setPartAt p { s.partAt p with records := m :: r }

/-- A completion of KIND 10 goes from where a core is to its destination (R24, R230, R231), or to the issuing core where that
fails; one whose page fault the port refuses is offered to it again. -/
def State.complete (s : State) (p : Fin 8) (cdst : Word) (src core : Nat) (host : Bool) (m : Vec) : State :=
  let fallback := if host then s.record p m else s.post p src core false m
  if cdst = 0 then fallback
  else match s.locate core p cdst 1 6 with
    | .ok (.here pl) => s.post p src pl.home false m
    | .ok (.away d) => s.export d ⟨p, .messageTo cdst false m (if host then .host else .unit core)⟩
    | .error (.page va 6) =>
      let t := (s.addFault (core / 16) p va 6 (.unit s.stamp)).getD s
      let x := t.partAt p
      (t.setPartAt p { x with completions := x.completions ++ [⟨s.stamp, cdst, src, core, host, m⟩] }).bump
    | _ => fallback

/-- The status words of a completion (R231). -/
def completionMsg (dev : Nat) (task : Half) (seq : BitVec 16) (retired : Nat) (launch failed slip : Bool) (status : Byte)
    (abandon lost slips : Nat) : Vec :=
  vecOf [0, header false 2 dev task seq,
    .ofNat 64 (2 ^ 32 * retired + 2 ^ 10 * launch.toNat + 2 ^ 9 * failed.toNat + 2 ^ 8 * slip.toNat + status.toNat),
    .ofNat 64 (2 ^ 32 * abandon + lost), .ofNat 64 slips, 0, 0, 0]

/-- A partition with one launch replaced. -/
def Part.setLaunch (x : Part) (l : Launch) : Part :=
  { x with launches := x.launches.map fun m => if m.id = l.id then l else m }

/-- The last task of a launch has retired (R231), at a core: its completion goes out, and the contexts it configured are freed
(R210). -/
def State.endLaunch (s : State) (p : Fin 8) (l : Launch) (at_ : Nat) : State :=
  if l.retired + l.lost < descTasks l.desc then s
  else
    let x := s.partAt p
    let s := s.setPartAt p { x with launches := x.launches.filter fun m => m.id != l.id }
    let free := fun (e : Nat × Port) =>
      (e.1, { e.2 with barriers := e.2.barriers.filter fun b => b.2.launch != some l.id })
    let s := { s with ports := s.ports.map free }
    s.complete p (descCdst l.desc) at_ l.core l.host
      (completionMsg s.ownIdx 0xFFFFFFFF 0xFFFF l.retired true l.failed l.slip (if l.lost = 0 then 0 else 0x18)
        l.abandon l.lost l.slips)

/-- A task retires, its last thread at a core (R230). -/
def State.retire (s : State) (p : Fin 8) (id task at_ : Nat) : State :=
  match (s.partAt p).launches.find? fun l => l.id == id with
  | none => s
  | some l =>
    let t := Table.get {} l.live task
    let l := { l with
      live := l.live.drop task, retired := l.retired + 1, failed := l.failed || t.failed, slip := l.slip || t.slip
      abandon := l.abandon + t.abandon, slips := l.slips + t.slips }
    let s := s.setPartAt p ((s.partAt p).setLaunch l)
    let s := if descTmsg l.desc then
        s.complete p (descCdst l.desc) at_ l.core l.host
          (completionMsg s.ownIdx (.ofNat 32 task) 0 1 false t.failed t.slip 0 t.abandon 0 t.slips)
      else s
    s.endLaunch p l at_

/-- Changes what a task's record counts. -/
def State.onTask (s : State) (p : Fin 8) (task : Option (Nat × Nat)) (f : TaskRec → TaskRec) : State :=
  match task with
  | none => s
  | some (id, t) =>
    match (s.partAt p).launches.find? fun l => l.id == id with
    | none => s
    | some l =>
      s.setPartAt p ((s.partAt p).setLaunch { l with live := Table.set l.live t (f (Table.get {} l.live t)) })

/-- A thread of a task has ended at a core (R230): the last one retires the task. -/
def State.threadGone (s : State) (p : Fin 8) (task : Option (Nat × Nat)) (at_ : Nat) : State :=
  let s := s.onTask p task fun t => { t with threads := t.threads - 1 }
  match task with
  | none => s
  | some (id, t) =>
    match (s.partAt p).launches.find? fun l => l.id == id with
    | none => s
    | some l => if (Table.get {} l.live t).threads = 0 then s.retire p id t at_ else s

/-! ## Choice points and provisional stores -/

/-- The name of a slot's bound thief (R345): that of its saved thread (R386) when the slot's own is not bound. -/
def State.thiefKey (s : State) (n : Nat) : Nat :=
  if (s.slotAt n).bind.isNone && s.parts.toList.any fun x => x.kept.any fun e => e.1 == n && e.2.bind.isSome then n + 2 ^ 20
  else n

/-- A record for a slot of the core that acts in hardware (R345). -/
def State.killThief (s : State) (n : Nat) : State := s.send (s.slotAt n).part (.kill (s.thiefKey n))
def State.releaseThief (s : State) (n : Nat) : State := s.send (s.slotAt n).part (.release (s.thiefKey n))

/-- What is under way for the thread in a slot is forgotten: its requests, their replies, and the tokens of its drain. -/
def State.forget (s : State) (n : Nat) : State :=
  let own := fun (b : Body) => match b with
    | .request m _ | .reply m .. | .token m _ => m == n
    | .peerRequest _ m _ _ => m == s.peerKey n
    | _ => false
  let x := s.slotAt n
  { s.setSlotAt n { x with gen := x.gen + 1 } with
    net := s.net.filter fun q => !own q.body
    dev := { s.dev with egress := s.dev.egress.map fun e => (e.1, e.2.filter fun q => !own q.2.body) } }

/-- The thieves of a point, as slot keys of a core. -/
def Point.thieves (q : Point) (core : Nat) : List Nat :=
  ((List.range 16).filter fun i => q.thf.getLsbD i).map (core * 16 + ·)

/-- CUT to mark m of a slot's stack (R342): each point with index at or above m is popped, newest first, and its thieves
are killed; an empty stack discards the trail. -/
def State.cutTo (s : State) (n m : Nat) : State :=
  let x := s.slotAt n
  let gone := x.points.take (x.points.length - m)
  let left := x.points.drop (x.points.length - m)
  let x := { x with
    points := left
    trail := if left.isEmpty then [] else x.trail
    tail := if left.isEmpty then [] else x.tail }
  (gone.flatMap fun q => q.thieves (n / 16)).foldl State.killThief (s.setSlotAt n x)

/-- The slots of a core that wait for a free provisional entry go on (R336). -/
def State.offerProv (s : State) (core : Nat) : State :=
  ((List.range 16).map (core * 16 + ·)).foldl
    (fun s n => if (s.slotAt n).run == .waiting .provisional then s.resumeSlot n else s) s

/-- Drops provisional entries of a core that meet a test, and lets waiting stores go on. -/
def State.dropProv (s : State) (core : Nat) (f : ProvEnt → Bool) : State :=
  let u := s.coreAt core
  if u.prov.any f then (s.setCoreAt core { u with prov := u.prov.filter fun e => !f e }).offerProv core else s

/-- The provisional entries of a slot, in placing order (R336). -/
def State.provOf (s : State) (n : Nat) : List ProvEnt := (s.coreAt (n / 16)).prov.filter fun e => e.slot == n

/-- Marks the first entry of a slot that has not been sent. -/
def markSent (n : Nat) : List ProvEnt → List ProvEnt
  | [] => []
  | e :: r => if e.slot == n && !e.sent then { e with sent := true } :: r else e :: markSent n r

/-- A discard of a provisional entry: the first one's cause and address are kept (R337). -/
def State.noteLost (s : State) (n : Nat) (c : Byte) (va : Word) : State :=
  let x := s.slotAt n
  s.setSlotAt n { x with prog := { x.prog with lost := some (x.prog.lost.getD (c, va)) } }

/-- Sends the slot's next provisional entry (R337), checked and translated again; when none is left, every entry is freed and
the slot's instruction goes on. An entry that fails a check is discarded; a page fault makes the send wait. -/
def State.sendNext (s : State) (n : Nat) : Nat → State
  | 0 => s
  | k + 1 =>
    match (s.provOf n).find? fun e => !e.sent with
    | none => (s.dropProv (n / 16) fun e => e.slot == n).resumeSlot n
    | some e =>
      let u := s.coreAt (n / 16)
      let s' := s.setCoreAt (n / 16) { u with prov := markSent n u.prov }
      match (checkSeg (s.slotAt n) e.st.va e.st.n { w := true, i := true }).bind fun () =>
          s.locate (n / 16) e.part e.st.va e.st.n 3 with
      | .ok (.here pl) =>
        if pl.so then (s'.noteLost n Cause.segRights.code e.st.va).sendNext n k
        else s'.send e.part (.store (.entry n) { e.st with pl := pl })
      | .ok (.away d) => s'.export d ⟨e.part, .store (.entry n) e.st⟩
      | .ok (.reg _) => (s'.noteLost n Cause.segRights.code e.st.va).sendNext n k
      | .error (.trap c _) => (s'.noteLost n c e.st.va).sendNext n k
      | .error (.page va kd) =>
        match s.addFault (n / 256) e.part va kd (.slot n) with
        | some t => t
        | none => s.setSlotAt n { s.slotAt n with run := .dropped (some (s.refcnt + 64)) }

/-- The sending instruction leaves the rotation until its entries are settled (R337). -/
def sendEntries (i : Instr) (s : State) : Out :=
  .stay ((s.await i .sending).sendNext s.cur (s.provOf s.cur).length.succ)

/-! ## The end of a thread -/

/-- A bound thief's bit in its victim's point is cleared (R345), in what a saved victim holds too, and no record for it is left on its way. -/
def State.unbind (s : State) (n : Nat) : State :=
  match (s.slotAt n).bind with
  | none => s
  | some (v, k) =>
    let y := s.slotAt v
    let clear := fun (q : Point) => { q with thf := q.thf &&& ~~~ (1#16 <<< (n % 16)) }
    let j := y.points.length - 1 - k
    let saved := fun (s : State) =>
      let x := s.partAt (s.slotAt n).part
      if x.kept.any fun e => e.1 == v then
        let q := Table.get {} x.kept v
        s.setPartAt (s.slotAt n).part { x with kept := Table.set x.kept v { q with ended := (k, n % 16) :: q.ended } }
      else s
    let s := if k < y.points.length ∧ (y.points[j]?.any fun q => q.thf.getLsbD (n % 16)) then
        s.setSlotAt v { y with points := y.points.modify j clear }
      else saved s
    let s := s.setSlotAt n { s.slotAt n with bind := none }
    { s with net := s.net.filter fun p => p.body != .kill n && p.body != .release n }

/-- The thread in slot n ends (R235): its bit at a victim is cleared, its provisional entries are freed, its slot becomes
free, or held for a TNEXT while its core's list has tasks; a handler's inbox entry is freed (R222); the last thread of a
task retires it. -/
def State.endThread (s : State) (n : Nat) (hold : Bool) : State :=
  let x := s.slotAt n
  let core := n / 16
  let s := (s.unbind n).dropProv core fun e => e.slot == n
  if x.handler then s.vacate n
  else
    let s := if hold && !x.spawned && s.listed x.part core then
        s.setSlotAt n { part := x.part, ready := x.ready, gen := x.gen, run := .held }
      else s.vacate n
    s.threadGone x.part x.task core

/-- The narrowest scope that encloses two cores of the device (R179). -/
def scopeOf (a b : Nat) : Scope :=
  if a = b then .core else if a / 16 = b / 16 then .clu else if a / 256 = b / 256 then .die else .dev

/-- The scope of the drain that an ending thread makes for the completion it causes (R179): none when no completion
leaves. -/
def State.endScope (s : State) : Option Scope :=
  let x := s.slot
  match x.task with
  | none => none
  | some (id, t) =>
    match (s.partAt x.part).launches.find? fun l => l.id == id with
    | none => none
    | some l =>
      let last := decide ((Table.get {} l.live t).threads ≤ 1)
      if last && (descTmsg l.desc || decide (descTasks l.desc ≤ l.retired + l.lost + 1)) then
        if descCdst l.desc = 0 then some (if l.host then .dev else scopeOf s.coreIdx l.core)
        else match s.locate l.core x.part (descCdst l.desc) 1 6 with
          | .ok (.here pl) => some (scopeOf s.coreIdx pl.home)
          | _ => some .dev
      else none

/-- EXIT's effect, and TNEXT's with `hold` (R235). Discards of the entries it sent raise before the thread has ended
(R337); a bound thief waits for its release (R345); held reservations are abandoned (R201). -/
def exitThread (i : Instr) (hold : Bool) (s : State) : Out :=
  match s.slot.prog.lost, (s.provOf s.cur).isEmpty with
  | some (c, va), true => .stop (.trap c va)
  | _, _ =>
    let s := if s.slot.points.isEmpty then s else s.cutTo s.cur 0
    if s.slot.bind.isSome then .stay (s.await i .bound)
    else if !(s.provOf s.cur).isEmpty then sendEntries i s
    else if s.slot.unacked ≠ 0 then .stay (s.await i .settle)
    else if s.ctx.rsvn ≠ 0 then
      .stay ((s.send s.slot.part (.abandon s.cur s.ctx.taskIdx)).await i .reply)
    else match s.endScope with
      | none => .stay (s.endThread s.cur hold)
      | some sc => drain i sc (fun s => .stay (s.endThread s.cur hold)) s

end Sys2Proof.Machine
end

