-- ==== Sys2Proof/Machine/Memory.lean ====
section
/-! DEFINITION. The memory instructions (07_instant, R159 to R167): the Instant domain's loads, stores and cancel, the
Now domain's plain accesses, and the tag table of the software cache. -/

namespace Sys2Proof.Machine

/-- The instruction keeps the instant it named at its issue (R61). -/
def State.keepInst (s : State) (v : Instant) : State :=
  s.setSlot { s.slot with prog := { s.slot.prog with inst := some v } }

/-- The instant in force for the instruction: the one it has kept, else this one. -/
def State.instOr (s : State) (v : Instant) : Instant := s.slot.prog.inst.getD v

/-- An Instant-domain read (R74, R160): a roaming thread goes to the home first; an instant above NOW holds it there. -/
def readInstant (i : Instr) (va : Word) (n : Nat) (t : Target) (v : Instant) (f : Finish) (s : State) : Out :=
  let leaves := match t with
    | .here pl => s.slot.roams && !pl.so && pl.home != s.coreIdx
    | .away _ => s.slot.roams
    | .reg _ => false
  if !leaves && decide (s.part.now.toNat < v.toNat) then .stay (s.await i (.instant v))
  else reach i true va t (.version va · n v) none f s

/-- LD and LDA (R160). -/
def loadInstant (i : Instr) (d : Reg) (z : Size) (x : Bool) (va : Word) (v : Instant) (s : State) : Out :=
  let v := s.instOr v
  .bind (s.access va (sizeBytes z) { r := true, i := true }) fun t =>
    readInstant i va (sizeBytes z) t v (.load d z x) (s.keepInst v)

/-- LD (R160). -/
def execLd (g : Guard) (d a : Reg) (z : Size) (x : Bool) (o : BitVec 9) (s : State) :
    Host.Outcome State Fault Refusal :=
  issue (.ld g d a z x o) g 0 false
    (fun s => loadInstant (.ld g d a z x o) d z x (ea (s.g a) o (sizeBytes z)) s.ctx.rel s) s

/-- LDA (R160). -/
def execLda (g : Guard) (d a : Reg) (z : Size) (x : Bool) (i : InstSrc) (s : State) :
    Host.Outcome State Fault Refusal :=
  issue (.lda g d a z x i) g 0 false (fun s => loadInstant (.lda g d a z x i) d z x (s.g a) (instOf s i) s) s

/-- The slots that hold provisional entries of a core all wait for one (R336). -/
def State.provStuck (s : State) : Bool :=
  (s.coreAt s.coreIdx).prov.all fun e => e.slot == s.cur || (s.slotAt e.slot).run == .waiting .provisional

/-- The cycle of the word's issue is kept while it waits (R336, R346). -/
def State.stamped (s : State) : State :=
  s.setSlot { s.slot with prog := { s.slot.prog with since := some (s.slot.prog.since.getD (s.cycles s.cluster)) } }

/-- The store issued last among those that wait for an entry of the core (R336), where the acting thread's is not it. -/
def State.lastStore (s : State) : Option Nat :=
  ((List.range 16).map (s.coreIdx * 16 + ·)).foldl (fun (b : Option Nat) n =>
    let at_ := fun (m : Nat) => (s.slotAt m).prog.since.getD 0
    if n ≠ s.cur ∧ (s.slotAt n).run = .waiting .provisional ∧ at_ (b.getD s.cur) < at_ n then some n else b) none

/-- pend_store of the thread that acts (R74, R161, R336): provisional while a choice point is open, once another device's
translating port has passed it, else to its home port by migration or request; ORD[15:0] = 0xFFFF raises INSTANT-MISS (R146). -/
def pendStore (i : Instr) (va : Word) (n : Nat) (x : Vec) (v : Instant) (s : State) : Out :=
  if s.ctx.seqNo = 0xFFFF then .stop (.of .instantMiss va)
  else .bind (s.access va n { w := true, i := true }) fun t =>
    let st : Store := {
      va := va, pl := (match t with
        | .here pl => pl
        | _ => ⟨0, 0, false⟩)
      n := n, x := x, mask := .allOnes 64, v := v, ord := s.ctx.ord, slip := s.ctx.pol }
    if s.slot.open_ then
      let s := s.stamped
      match t, s.slot.prog.route with
      | .reg _, _ => .stop (.of .segRights va)
      | .away d, none => requestAway i d (.ask va n 3 true) .route s
      | _, _ =>
        let u := s.coreAt s.coreIdx
        if u.prov.length < 64 then
          .seq ((s.setCoreAt s.coreIdx { u with prov := u.prov ++ [⟨s.cur, s.slot.part, st, false⟩] }).setCtx
            s.ctx.nextOrd)
        else if s.provStuck = false then .stay (s.await i .provisional)
        else match s.lastStore with
          | none => .stop (.of .trailFull va)
          | some n => .stay ((s.await i .provisional).resumeSlot n)
    else match t with
      | .here pl =>
        if pl.home ≠ s.coreIdx ∧ s.slot.roams = true ∧ pl.so = false then migrate i (encodeWord i) va pl.home s
        else .stay ((s.send s.slot.part (.store (.slot s.cur) st)).await i .reply (some .accepted))
      | .away d => leaveFor i va n { w := true, i := true } d (fun s =>
          .stay ((s.export d ⟨s.slot.part, .store (.slot (s.peerKey s.cur)) st⟩).await i .reply (some .accepted))) s
      | .reg _ => .stop (.of .segRights va)

/-- ST (R161). -/
def execSt (g : Guard) (d a : Reg) (z : Size) (o : BitVec 9) (s : State) : Host.Outcome State Fault Refusal :=
  issue (.st g d a z o) g 0 true (fun s =>
    pendStore (.st g d a z o) (ea (s.g a) o (sizeBytes z)) (sizeBytes z) ((low (sizeBytes z) (s.g d)).setWidth 512)
      s.ctx.vis s) s

/-- STV (R161). -/
def execStv (g : Guard) (d a : Reg) (z : Size) (i : InstSrc) (s : State) : Host.Outcome State Fault Refusal :=
  issue (.stv g d a z i) g 0 true (fun s =>
    let v := s.instOr (instOf s i)
    pendStore (.stv g d a z i) (s.g a) (sizeBytes z) ((low (sizeBytes z) (s.g d)).setWidth 512) v (s.keepInst v)) s

/-- The line address of R169. -/
def vline (va : Word) : Word := va - .ofNat 64 (va.toNat % 64)

/-- The remote-line buffer takes part in a read (R169): a request to a relaxed place of this device outside the router's
cluster. -/
def State.buffered (s : State) (t : Target) : Bool :=
  match t with
  | .here pl => !s.slot.roams && !pl.so && pl.home / 16 != s.cluster
  | _ => false

/-- A Now-domain read that may be answered from the router's remote-line buffer (R162, R169). -/
def readNow (i : Instr) (va : Word) (n : Nat) (t : Target) (f : Finish) (s : State) : Out :=
  let hit := if s.buffered t then
      (s.portAt s.cluster).remote.find? fun e => e.part == s.slot.part && e.vline == vline va
    else none
  match hit with
  | some e => finish f (.ok (.ofNat 512 (e.data.toNat / 2 ^ (8 * (va.toNat % 64)) % 2 ^ (8 * n)))) s
  | none => reach i true va t (.read va · n (if s.buffered t then .fill else .plain)) (some (.w4read · n)) f s

/-- LDN (R162). -/
def execLdn (g : Guard) (d a : Reg) (z : Size) (x : Bool) (o : BitVec 9) (s : State) :
    Host.Outcome State Fault Refusal :=
  issue (.ldn g d a z x o) g 0 false (fun s =>
    let va := ea (s.g a) o (sizeBytes z)
    .bind (s.access va (sizeBytes z) { r := true, n := true }) fun t =>
      readNow (.ldn g d a z x o) va (sizeBytes z) t (.load d z x) s) s

/-- The size suffix of a part of an arena write: its own for 8 bytes or less. -/
def sizeOf (n : Nat) : Size := if n = 1 then .b else if n = 2 then .h else if n = 4 then .w else .d

/-- The trail entries of an arena write (R74, R257): one for the bytes written, or one for each doubleword. The old value is read
by mem_read, with its right and check 8. -/
def trailArena (va : Word) (n : Nat) : Nat → State → Except Stop State
  | 0, s => .ok s
  | k + 1, s =>
    (trailArena va n k s).bind fun s =>
      let a := va + .ofNat 64 (8 * k)
      let z := sizeOf n
      let m := sizeBytes z
      match s.slot.dataSeg a with
      | none => .error (.of .segBound a)
      | some g =>
        if !g.r then .error (.of .segRights a)
        else
          let phys := localPhys s.coreIdx a
          (s.readAt a ⟨phys, s.coreIdx, false⟩ m).bind fun old => trailPush ⟨.arena a z, .ofNat 64 old, none⟩ s

/-- What mem_write does before it writes while a choice point is open (R74): CHOICE-ESCAPE outside the trail arena, a
trail entry within it. -/
def guardArena (va : Word) (n : Nat) (s : State) : Except Stop State :=
  if !s.slot.open_ then .ok s
  else if !s.slot.inArena va n then .error (.of .choiceEscape va)
  else trailArena va n ((n + 7) / 8) s

/-- A Now-domain write of the thread that acts, its target located (R74). -/
def writeNow (i : Instr) (va : Word) (n : Nat) (x : Vec) (t : Target) (s : State) (f : Finish := .done) : Out :=
  .bind (guardArena va n s) fun s =>
    reach i true va t (.write va · n x) (some (.w4write · n x)) f s

/-- STN (R162). -/
def execStn (g : Guard) (d a : Reg) (z : Size) (o : BitVec 9) (s : State) : Host.Outcome State Fault Refusal :=
  issue (.stn g d a z o) g 0 false (fun s =>
    let va := ea (s.g a) o (sizeBytes z)
    .bind (s.access va (sizeBytes z) { w := true, n := true }) fun t =>
      writeNow (.stn g d a z o) va (sizeBytes z) ((low (sizeBytes z) (s.g d)).setWidth 512) t s) s

/-- SCANCEL (R163): always a request. -/
def execScancel (g : Guard) (a : Reg) (z : Size) (o : BitVec 9) (s : State) : Host.Outcome State Fault Refusal :=
  issue (.scancel g a z o) g 0 false (fun s =>
    let va := ea (s.g a) o (sizeBytes z)
    if s.slot.open_ then .stop (.of .choiceEscape va)
    else .bind (s.access va (sizeBytes z) { w := true, i := true }) fun t =>
      reach (.scancel g a z o) false va t (.cancel va · (sizeBytes z) s.ctx.taskIdx) none .done s) s

/-- TAGCFG's fields (R165). -/
def tagLs (w : Word) : Nat := w.toNat / 2 ^ 12 % 8
def tagSize (w : Word) : Nat := w.toNat % 2 ^ 11

/-- key(x) (R165): bits [5 + LS:0] cleared. -/
def tagKey (ls : Nat) (x : Word) : Word := .ofNat 64 (x.toNat / 2 ^ (6 + ls) * 2 ^ (6 + ls))

/-- The tag table's place of a slot of the acting partition. -/
def State.tagAt (s : State) (n : Nat) : Nat := s.slot.part.val * 1024 + n

/-- The slot of the acting partition's table that holds a key, within SIZE (R165). -/
def State.tagFind (s : State) (k : Word) : Option Nat :=
  ((s.coreAt s.coreIdx).tags.find? fun e => e.1 / 1024 == s.slot.part.val && e.2 == k).map fun e => e.1 % 1024

/-- LKUP (R166). -/
def execLkup (g : Guard) (d a : Reg) (s : State) : Host.Outcome State Fault Refusal :=
  issue (.lkup g d a) g 0 false (fun s =>
    .setG d (match s.tagFind (tagKey (tagLs s.part.regs.tagcfg) (s.g a)) with
      | some n => .ofNat 64 n
      | none => 0xFFFF) s) s

/-- TAGIN (R167). -/
def execTagin (g : Guard) (a b : Reg) (s : State) : Host.Outcome State Fault Refusal :=
  issue (.tagin g a b) g 0 false (fun s =>
    let cfg := s.part.regs.tagcfg
    let n := s.g b
    if s.slot.open_ then .stop (.of .choiceEscape (s.g a))
    else if tagSize cfg ≤ n.toNat then .stop (.of .segBound n)
    else match s.slot.dataSeg (s.g a) with
      | none => .stop (.of .segBound (s.g a))
      | some sg =>
        if !sg.n then .stop (.of .segRights (s.g a))
        else
          let u := s.coreAt s.coreIdx
          let k := tagKey (tagLs cfg) (s.g a)
          let rest := u.tags.filter fun e => !(e.1 / 1024 == s.slot.part.val && e.2 == k)
          .seq (s.setCoreAt s.coreIdx { u with tags := Table.set rest (s.tagAt n.toNat) k })) s

/-- TAGOUT (R167). -/
def execTagout (g : Guard) (d a : Reg) (s : State) : Host.Outcome State Fault Refusal :=
  issue (.tagout g d a) g 0 false (fun s =>
    let n := s.g a
    if s.slot.open_ then .stop (.of .choiceEscape n)
    else if tagSize s.part.regs.tagcfg ≤ n.toNat then .stop (.of .segBound n)
    else
      let u := s.coreAt s.coreIdx
      let at_ := s.tagAt n.toNat
      let v := (u.tags.find? fun e => e.1 == at_).map fun e => e.2
      .setG d (v.getD (.allOnes 64)) (s.setCoreAt s.coreIdx { u with tags := u.tags.drop at_ })) s

/-- The packet at place k, taken out of flight. -/
def State.takePacket (s : State) (k : Nat) : Option (Packet × State) :=
  (s.net[k]?).map fun p => (p, { s with net := s.net.eraseIdx k })

end Sys2Proof.Machine
end

