-- ==== Sys2Proof/Machine/Save.lean ====
section
/-! DEFINITION. Context save areas (17_system, R385, R386): a slot's image in memory and back, and the blocks that
instructions read whole (R294). -/

namespace Sys2Proof.Machine

/-- The j-th block an instruction reads before the rest of its effect (R294), `n` bytes at an address: by request when its
home is elsewhere. It is read once, and kept while the instruction waits. -/
def withBlock (i : Instr) (j : Nat) (va : Word) (n : Nat) (q : Need) (k : Vec → State → Out) (s : State)
    (kind : Nat := q.kind) (fin : Finish := .block) : Out :=
  match s.slot.prog.got[j]? with
  | some v => k v s
  | none =>
    .bind (s.access va n q kind) fun t =>
      match t with
      | .here pl =>
        .bind (s.readAt va pl n) fun v =>
          let p := s.slot.prog
          k (.ofNat 512 v) (s.setSlot { s.slot with prog := { p with got := p.got ++ [.ofNat 512 v] } })
      | .reg off => request i (.w4read off n) fin s
      | .away d => requestAway i d (.read va ⟨0, 0, false⟩ n .plain) fin s

/-- The save area of a slot (R385). -/
def State.area (s : State) (p : Fin 8) (n : Nat) : Word := (s.partAt p).regs.ctxb + .ofNat 64 (n * 2 ^ 14)

/-- Where a save area lies: 16 KiB of one page (R385), every line of which passes its check (R4), of
this device (log entry 128). -/
def State.areaAt (s : State) (p : Fin 8) (n : Nat) : Except Stop Place :=
  match s.locate (n / 16) p (s.area p n) (2 ^ 14) 1 with
  | .ok (.here pl) =>
    if winOf (localAddr (s.area p n)) = some .w0 then .error (.of .segBound (s.area p n))
    else if s.bad.any fun l => decide (pl.phys / 64 ≤ l) && decide (l < pl.phys / 64 + 256) then
      .error (.of .eccUncorrectable (s.area p n))
    else .ok pl
  | .ok _ => .error (.of .segBound (s.area p n))
  | .error e => .error e

/-- A choice point's 64-byte record (R334). -/
def Point.image (q : Point) : Nat :=
  q.tab.toNat
    + 2 ^ 64 * (q.thf.toNat * 2 ^ 48 + q.next * 2 ^ 32 + q.naltm * 2 ^ 24 + q.dreg.val * 2 ^ 20 + q.prov * 2 ^ 8)
    + 2 ^ 128 * q.wf.toNat
    + 2 ^ 192 * (q.loops[0].toNat + 2 ^ 32 * q.loops[1].toNat + 2 ^ 64 * q.loops[2].toNat + 2 ^ 96 * q.loops[3].toNat)
    + 2 ^ 320 * q.trl

/-- A record read back. -/
def pointOf (v : Nat) : Point :=
  let f := fun (lo n : Nat) => v / 2 ^ lo % 2 ^ n
  { tab := .ofNat 64 v, thf := .ofNat 16 (f 112 16), next := f 96 9, naltm := f 88 8, dreg := .ofNat 16 (f 84 4)
    prov := f 72 7, wf := .ofNat 64 (f 128 64)
    loops := #v[.ofNat 32 (f 192 32), .ofNat 32 (f 224 32), .ofNat 32 (f 256 32), .ofNat 32 (f 288 32)], trl := f 320 9 }

/-- A trail entry read back from its 16-byte layout (R333). -/
def trailOf (v : Nat) : TrailEnt :=
  let hi := v / 2 ^ 64
  let z := (Size.ofCode (hi / 2 ^ 60 % 4)).getD .d
  { at_ := if hi / 2 ^ 62 = 0 then .greg (.ofNat 16 hi) else if hi / 2 ^ 62 = 1 then .pred (.ofNat 8 hi)
      else .arena (.ofNat 64 (0x1FFF * 2 ^ 48 + hi % 2 ^ 48)) z
    old := .ofNat 64 v }

/-- A provisional entry's 96-byte image (R385). -/
def ProvEnt.image (e : ProvEnt) : Nat :=
  e.st.va.toNat + 2 ^ 64 * e.st.v.toNat + 2 ^ 128 * e.st.ord.toNat + 2 ^ 192 * e.st.n
    + 2 ^ 256 * (e.st.x.toNat % 2 ^ (8 * e.st.n))

/-- Reference ticks left of a SLEEP, from a stop's count on where the partition stops, and whether the word is reissued (R385,
R386, R389). -/
def State.waitWord (s : State) (x : Slot) : Nat :=
  let y := s.partAt x.part
  match x.run with
  | .waiting (.sleep t) =>
    2 ^ 63 + (t - if y.stopping then y.regs.stopcnt.toNat % 2 ^ 56 else s.refcnt) % 2 ^ 32
  | .waiting _ | .dropped _ => 2 ^ 63
  | _ => 0

/-- The pieces of a slot's image: offset, bytes and value (R385). -/
def State.imageOf (s : State) (n : Nat) : List (Nat × Nat × Nat) :=
  let x := s.slotAt n
  let c := x.ctx
  let seq := fun (base step : Nat) (l : List Nat) => (List.range l.length).map fun k => (base + step * k, step, l.getD k 0)
  let wide := fun (base : Nat) (v : Nat) => [(base, 32, v % 2 ^ 256), (base + 32, 32, v / 2 ^ 256 % 2 ^ 256)]
  let prov := (s.provOf n).map ProvEnt.image
  seq 0 8 (c.g.toList.map (·.toNat))
    ++ seq 0x80 8 [c.pc.toNat, c.wsp.toNat, c.rel.toNat, c.vis.toNat, c.ord.toNat]
    ++ seq 0xA8 1 (c.sel.toList.map (·.toNat))
    ++ seq 0xB0 4 (c.loops.toList.map (·.toNat))
    ++ seq 0xC0 1 [c.mode.toNat, c.p.toNat, 1, x.windows.length, 0, 0, 0, 0]
    ++ seq 0xC8 8 [x.status.toNat, x.cause.toNat, x.epc.toNat, x.tval.toNat, x.sscr0.toNat, x.sscr1.toNat, s.waitWord x]
    ++ seq 0x100 64 (x.windows.map windowImage)
    ++ seq 0x200 64 (x.v.toList.map (·.toNat))
    ++ seq 0x600 4 (x.k.toList.map (·.toNat))
    ++ seq 0x620 8 [x.vl.toNat, x.tstatus.toNat]
    ++ [(0x640, 8, x.points.length + 2 ^ 16 * x.trail.length)]
    ++ (0x648, 56, 0) :: seq 0x680 64 (.replicate 6 0)
    ++ seq 0x800 64 (x.points.reverse.map Point.image)
    ++ seq 0x1800 16 (x.trail.reverse.map TrailEnt.image)
    ++ (List.range prov.length).flatMap fun k =>
      let v := prov.getD k 0
      (0x2800 + 96 * k, 32, v % 2 ^ 256) :: wide (0x2800 + 96 * k + 32) (v / 2 ^ 256)

/-- The slot's thread waits at a home for the reservation that its word asks for (R198, R201). -/
def State.chained (s : State) (n : Nat) : Bool :=
  let x := s.slotAt n
  x.run == .waiting .reply && (match x.prog.word.bind decode with
    | some (.rsv _ _ a z o) => s.reservations.any fun e =>
      e.slot == n && e.part == x.part && e.key == x.ctx.taskIdx && e.va == ea x.ctx.g[a] o (dsizeBytes z)
    | _ => false)

/-- A packet that acts on a thread, with the thread's name changed. -/
def Body.rename (a b : Nat) (x : Body) : Body :=
  let f := fun (n : Nat) => if n = a then b else n
  match x with
  | .reply n r note => .reply (f n) r note
  | .inval l r (some n) => .inval l r (some (f n))
  | .barReg r n c w => .barReg r (f n) c w
  | .kill n => .kill (f n)
  | .release n => .release (f n)
  | x => x

/-- What is under way for a thread gets another name, as the thread is saved or restored. -/
def State.rename (s : State) (a b : Nat) : State :=
  let each := fun (q : Packet) => { q with body := q.body.rename a b }
  { s with
    net := s.net.map each
    ports := s.ports.map fun e => (e.1, { e.2 with saved := e.2.saved.map each })
    reservations := s.reservations.map fun e => { e with slot := if e.slot = a then b else e.slot } }

/-- The invalidations that a slot's thread caused and that are on their way have no thread to be acknowledged to. -/
def State.disown (s : State) (n : Nat) : State :=
  { s with net := s.net.map fun q => match q.body with
    | .inval l r w => { q with body := .inval l r (if w = some n then none else w) }
    | _ => q }

/-- What is under way for a saved thread whose area is written anew has no thread to come to (R386). -/
def State.forgetSaved (s : State) (n : Nat) : State :=
  let other := fun (q : Packet) => match q.body with
    | .reply m .. => m != savedKey n
    | _ => true
  let s := s.disown (savedKey n)
  { s with net := s.net.filter other, ports := s.ports.map fun e => (e.1, { e.2 with saved := e.2.saved.filter other }) }

/-- Bytes at device privilege that become 0, with what a Now-domain write of each line tells (R170). -/
def State.clearBytes (s : State) (p : Fin 8) (phys n : Nat) : State :=
  let lines := ((s.sharers.map (·.1)) ++ (s.watchers.map (·.1))).eraseDups.filter fun l =>
    decide (phys / 64 ≤ l) && decide (l * 64 < phys + n)
  lines.foldl (fun s l => s.tell p l none none) { s with mem := s.mem.clear phys n }

/-- Writes a slot's image to its area (R385, R386), the unused provisional entries as 0, keeps what the area has no place for,
and frees the core's provisional entries and the slot. -/
def State.saveSlot (s : State) (n : Nat) : Except Stop State :=
  let x := s.slotAt n
  (s.areaAt x.part n).map fun pl =>
    let t := (s.imageOf n).foldl (fun (u : State) i => u.nowWrite x.part (pl.phys + i.1) i.2.1 i.2.2 none none)
      (s.clearBytes x.part (pl.phys + 0x2800) 0x1800)
    let k : Kept := {
      task := x.task, spawned := x.spawned, handler := x.handler, hcount := x.hcount, cmds := x.cmds
      trailWf := x.trail.map (·.wf), tail := x.tail
      inst := x.prog.inst, bind := x.bind, aside := x.aside, unacked := x.unacked
      rsv := if s.chained n then some x.prog else none
      opening := match x.run with
        | .waiting (.opening c) => some (c, x.prog)
        | _ => none }
    let t := t.setPartAt x.part { t.partAt x.part with kept := Table.set (t.partAt x.part).kept n k }
    ((t.dropProv (n / 16) fun e => e.slot == n).setSlotAt n { part := x.part, ready := x.ready, gen := x.gen }).forgetSaved n |>.rename n (savedKey n)

/-- An area holds a thread (VALID). -/
def State.areaValid (s : State) (pl : Place) : Bool := s.mem.byte (pl.phys + 0xC2) == 1

/-- Provisional entries that an area holds, in placing order. -/
def State.areaProv (s : State) (p : Fin 8) (n : Nat) (pl : Place) (slip : Bool) : Nat → List ProvEnt
  | 0 => []
  | k + 1 =>
    let v := s.mem.read (pl.phys + 0x2800 + 96 * k) 96
    let sz := v / 2 ^ 192 % 2 ^ 7
    let prior := s.areaProv p n pl slip k
    let st : Store := {
      va := .ofNat 64 v, pl := ⟨0, 0, false⟩, n := sz, x := .ofNat 512 (v / 2 ^ 256), mask := .allOnes 64
      v := .ofNat 48 (v / 2 ^ 64), ord := .ofNat 48 (v / 2 ^ 128), slip := slip }
    if sz = 0 then prior else prior ++ [⟨n, p, st, false⟩]

/-- Restores a slot from its area (R386, R389): every item, its segments by its selectors once it does not wait, and its wait to be reissued; a
SLEEP goes on with the ticks left, and a BARI whose context has opened meanwhile is complete. -/
def State.restoreSlot (s : State) (p : Fin 8) (n : Nat) (pl : Place) : State :=
  let rd := fun (o k : Nat) => s.mem.read (pl.phys + o) k
  let w64 := fun (o : Nat) => BitVec.ofNat 64 (rd o 8)
  let k := Table.get {} (s.partAt p).kept n
  let depth := rd 0x640 1
  let trail := rd 0x642 2 % 512
  let wait := rd 0xF8 8
  let opened := (s.portAt (n / 256)).barriers.any fun e => e.2.opened && k.opening.any fun o => o.1 == e.1
  let (run, prog) : Run × Prog := match k.rsv, k.opening with
    | some q, _ => (.waiting .reply, q)
    | none, some (c, q) => if opened then (.runnable, {}) else (.waiting (.opening c), q)
    | none, none =>
      (if wait / 2 ^ 63 = 1 ∧ wait % 2 ^ 32 ≠ 0 then .waiting (.sleep (s.refcnt + wait % 2 ^ 32)) else .runnable,
        { inst := k.inst })
  let c : Ctx := {
    g := Vector.ofFn fun i => w64 (8 * i.val)
    p := .ofNat 8 (rd 0xC1 1), mode := .ofNat 8 (rd 0xC0 1), pc := w64 0x80, rel := .ofNat 48 (rd 0x90 6)
    vis := .ofNat 48 (rd 0x98 6), ord := .ofNat 48 (rd 0xA0 6), sel := Vector.ofFn fun i => .ofNat 8 (rd (0xA8 + i.val) 1)
    wsp := w64 0x88, loops := Vector.ofFn fun i => .ofNat 32 (rd (0xB0 + 4 * i.val) 4) }
  let x : Slot := {
    ctx := if opened then c.endCheck c.pc else c, v := Vector.ofFn fun i => .ofNat 512 (rd (0x200 + 64 * i.val) 64), vl := .ofNat 8 (rd 0x620 1)
    k := Vector.ofFn fun i => .ofNat 32 (rd (0x600 + 4 * i.val) 4)
    windows := (List.range (min 4 (rd 0xC3 1))).map fun j => windowOf (rd (0x100 + 64 * j) 64)
    aside := k.aside, tstatus := w64 0x628 &&& 0xFFFF00001FFFFF03, status := w64 0xC8 &&& 0xFF06
    cause := .ofNat 8 (rd 0xD0 1), epc := w64 0xD8
    tval := w64 0xE0, sscr0 := w64 0xE8, sscr1 := w64 0xF0
    points := ((List.range (min 64 depth)).map fun j =>
      (k.ended.filter fun e => e.1 == j).foldl (fun (q : Point) e => { q with thf := q.thf &&& ~~~ (1#16 <<< e.2) })
        (pointOf (rd (0x800 + 64 * j) 64))).reverse
    trail := ((List.range (min 256 trail)).map fun j => trailOf (rd (0x1800 + 16 * j) 16)).reverse.zipIdx.map fun e =>
      { e.1 with wf := k.trailWf.getD e.2 none }
    tail := k.tail, bind := k.bind
    run := run, part := p, task := k.task, spawned := k.spawned, handler := k.handler, hcount := k.hcount, cmds := k.cmds
    unacked := k.unacked, ready := (s.slotAt n).ready, gen := (s.slotAt n).gen, unloaded := true, prog := prog }
  let u := s.coreAt (n / 16)
  let t := s.setCoreAt (n / 16) { u with prov := u.prov ++ s.areaProv p n pl c.pol 64 }
  let t := t.nowWrite p (pl.phys + 0xC2) 1 0 none none
  let t := (t.setPartAt p { t.partAt p with kept := (t.partAt p).kept.drop n }).rename (savedKey n) n
  if run = .runnable then (t.setSlotAt n x).fillSegs n else t.setSlotAt n x

/-! ## Record mode (R393) -/

/-- The records that the ring holds and that wait for it, and the records that it has place for (R393). -/
def Part.ringFull (x : Part) : Bool :=
  decide (2 ^ 16 * 2 ^ (x.regs.reccfg.toNat / 2 % 8) / 128 ≤ x.regs.recptr.toNat % 2 ^ 32 + x.logw.length)

/-- One 128-byte record of the log goes to the ring (R393): KIND, the instant, dw2, dw3 and the payload from dw4. One that meets a
page fault waits for the page (R142), and so do those after it; a full ring discards it and sets OVF; one whose place fails in another
way is discarded (log entry 13). -/
def State.ring (p : Fin 8) (s : State) (e : LogRec) : State :=
  let x := s.partAt p
  let r := x.regs
  let va : Word := .ofNat 64 (r.reccfg.toNat / 2 ^ 16 * 2 ^ 16 + 128 * (r.recptr.toNat % 2 ^ 32))
  let low := e.kind * 2 ^ 56 + p.val + 2 ^ 64 * e.inst.toNat + 2 ^ 128 * e.w2.toNat + 2 ^ 192 * e.w3.toNat
    + 2 ^ 256 * (e.payload % 2 ^ 256)
  let high := e.payload / 2 ^ 256 % 2 ^ 512
  let wait := { x with logw := x.logw ++ [e] }
  let next := { x with regs := { r with recptr := r.recptr + 1 } }
  if x.ringFull then s.setPartAt p { x with regs := { r with recptr := r.recptr ||| BitVec.ofNat 64 (2 ^ 63) } }
  else if !x.logw.isEmpty then s.setPartAt p wait
  else match s.locate (s.firstDie * 256) p va 64 1 with
    | .ok (.here pl) =>
      if s.badAt pl.phys || s.badAt (pl.phys + 64) then s
      else ((s.nowWrite p pl.phys 64 low none none).nowWrite p (pl.phys + 64) 64 high none none).setPartAt p next
    | .ok (.away d) =>
      let put := fun (s : State) (va : Word) (v : Nat) =>
        (s.export d ⟨p, .unitRequest s.stamp (.write va ⟨0, 0, false⟩ 64 (.ofNat 512 v))⟩).bump
      (put (put s va low) (va + 64) high).setPartAt p next
    | .error (.page va k) => (s.setPartAt p wait).needPage (s.firstDie * 16) p va k
    | _ => s

/-- A record of an event that takes effect now, while RECCFG.EN is 1 (R393). -/
def State.logNow (p : Fin 8) (s : State) (e : LogRec) : State :=
  if (s.partAt p).regs.reccfg.getLsbD 0 then s.ring p e else s

/-- Records that wait for a page of the ring are written again, in order (R142, R393). -/
def State.retryRing (s : State) (p : Fin 8) : State :=
  let x := s.partAt p
  if x.logw.isEmpty then s else x.logw.foldl (State.ring p) (s.setPartAt p { x with logw := [] })

/-- An event is logged (R393): at once, or, where it takes effect at a later instant, at the step to that instant. -/
def State.log (s : State) (p : Fin 8) (kind : Nat) (inst : Instant) (w2 w3 : Word) (payload : Nat) : State :=
  let x := s.partAt p
  let e : LogRec := ⟨kind, inst, w2, w3, payload⟩
  if inst.toNat ≤ x.now.toNat then s.logNow p e else s.setPartAt p { x with logq := x.logq ++ [e] }

/-- The step to an instant writes the records of the events that take effect at it, in order of arrival (R393). -/
def State.flushLog (s : State) (p : Fin 8) : State :=
  let x := s.partAt p
  let due := fun (e : LogRec) => decide (e.inst.toNat ≤ x.now.toNat)
  (x.logq.filter due).foldl (State.logNow p) (s.setPartAt p { x with logq := x.logq.filter fun e => !due e })

end Sys2Proof.Machine
end

