-- ==== Sys2Proof/Machine/Thread.lean ====
section
/-! DEFINITION. Threads, tasks and messages (10_thread, R216 to R239): the instructions of majors 0x4C to 0x4E, and the
arrivals, deliveries and waits that serve them. -/

namespace Sys2Proof.Machine

/-- WSP of a slot's stack area (R228): STKB + (slot key + 1) × STKSZ. -/
def State.stackTop (s : State) (p : Fin 8) (n : Nat) : Word :=
  (s.partAt p).regs.stkb + .ofNat 64 (n + 1) * (s.partAt p).regs.stksz

/-- g14 of a slot's thread as it starts (R228). -/
def State.stackMid (s : State) (p : Fin 8) (n : Nat) : Word :=
  s.stackTop p n - .ofNat 64 ((s.partAt p).regs.stksz.toNat / 2)

/-- EXIT (R235). -/
def execExit (g : Guard) (s : State) : Host.Outcome State Fault Refusal :=
  issue (.exit g) g 0 false (exitThread (.exit g) false) s

/-- TNEXT (R235). -/
def execTnext (g : Guard) (s : State) : Host.Outcome State Fault Refusal :=
  issue (.tnext g) g 0 true (exitThread (.tnext g) true) s

/-- YIELD (R236): 16 cycles out of the rotation. -/
def execYield (g : Guard) (s : State) : Host.Outcome State Fault Refusal :=
  issue (.yield g) g 0 true (fun s => .stay (s.await (.yield g) (.yield (s.cycles s.cluster + 16)))) s

/-- YIELD_EXPIRY (R236). -/
def execYieldExpiry (n : Nat) (s : State) : Host.Outcome State Fault Refusal :=
  match (s.slotAt n).run with
  | .waiting (.yield c) => .next (if c ≤ s.cycles (n / 256) then s.endWait n else s)
  | _ => .next s

/-- ANCHOR (R236). -/
def execAnchor (g : Guard) (s : State) : Host.Outcome State Fault Refusal :=
  issue (.anchor g) g 0 false (fun s => .seq (s.setCtx (s.ctx.setAnch true))) s

/-- ROAM (R236). -/
def execRoam (g : Guard) (s : State) : Host.Outcome State Fault Refusal :=
  issue (.roam g) g 0 false (fun s => .seq (s.setCtx (s.ctx.setAnch false))) s

/-- MIGR's departure (R236): the windows are spilled and the thread settled, then it leaves with its instruction done. -/
def leave (i : Instr) (va : Word) (go : Thread → State → State) (s : State) : Out :=
  spillAll i (fun s =>
    if s.slot.unacked ≠ 0 then .stay (s.await i .settle)
    else
      let t := s.setCtx (s.ctx.endCheck s.ctx.pc)
      .stay ((go { t.packTo va none with undo := some (s.ctx.pc, s.ctx.loops) } t).vacate s.cur)) 4 s

/-- MIGR (R236, R335, R370). -/
def execMigr (g : Guard) (a : Reg) (s : State) : Host.Outcome State Fault Refusal :=
  issue (.migr g a) g 0 false (fun s =>
    let va := s.g a
    let p := s.slot.part
    if s.slot.open_ then .stop (.of .choiceEscape va)
    else if (s.slot.dataSeg va).isNone then .stop (.of .segBound va)
    else .bind (s.locate s.coreIdx p va 1 0) fun t =>
      match t with
      | .reg _ => .stop (.of .segBound va)
      | .here pl =>
        if pl.home = s.coreIdx ∨ s.slot.inh = true then .seq s
        else leave (.migr g a) va (fun t s => s.send p (.migration pl.home t)) s
      | .away d =>
        if winOf (localAddr va) = some .w4 then .stop (.of .segBound va)
        else if s.slot.inh then .seq s
        else match s.slot.prog.route with
          | none => requestAway (.migr g a) d (.ask va 1 0 false) .route s
          | some _ => leave (.migr g a) va (fun t s => s.export d ⟨p, .migrationTo va t⟩) s) s

/-- WHO (R236). -/
def execWho (g : Guard) (d : Reg) (s : State) : Host.Outcome State Fault Refusal :=
  issue (.who g d) g 0 false (fun s =>
    .setG d (.ofNat 64 (2 ^ 48 * s.ownIdx + 2 ^ 32 * s.slot.part.val + 2 ^ 19 * s.coreIdx + 16 * (s.cur % 16)
      + s.ctx.anch.toNat)) s) s

/-- SLEEP (R236). -/
def execSleep (g : Guard) (a : Reg) (s : State) : Host.Outcome State Fault Refusal :=
  issue (.sleep g a) g 0 true (fun s =>
    let t := (s.g a).toNat % 2 ^ 32
    if t = 0 then .seq s else .stay (s.await (.sleep g a) (.sleep (s.refcnt + t)))) s

/-- SLEEP_EXPIRY (R236). -/
def execSleepExpiry (n : Nat) (s : State) : Host.Outcome State Fault Refusal :=
  match (s.slotAt n).run with
  | .waiting (.sleep t) => .next (if t ≤ s.refcnt ∧ (s.partAt (s.slotAt n).part).stopping = false then s.endWait n else s)
  | _ => .next s

/-- SPAWN (R237). -/
def execSpawn (g : Guard) (d a b : Reg) (s : State) : Host.Outcome State Fault Refusal :=
  issue (.spawn g d a b) g 0 true (fun s =>
    let x := s.slot
    if x.open_ then .stop (.of .choiceEscape (s.g a))
    else match s.freeSlot s.coreIdx x.part with
      | none => .setG d (.allOnes 64) s
      | some n =>
        let c := x.ctx
        let regs : Vector Word 16 := Vector.ofFn fun i =>
          if i.val < 8 then c.g[i] else if i.val = 14 then s.stackMid x.part n else 0
        let child : Ctx := {
          g := regs, p := 0, mode := modeByte 0 c.slip c.pol c.anch c.priv, pc := s.g a, rel := c.rel, vis := c.vis
          ord := ((s.g b).setWidth 32 ++ (0#16)), sel := c.sel, wsp := s.stackTop x.part n }
        let y : Slot := {
          ctx := child, seg := x.seg, run := .runnable, part := x.part, task := x.task, spawned := true
          ready := max (s.slotAt n).ready (s.cycles s.cluster + 4), gen := (s.slotAt n).gen }
        let s := (s.setSlotAt n y).onTask x.part x.task fun t => { t with threads := t.threads + 1 }
        .setG d (.ofNat 64 (n % 16)) s) s

/-! ## Messages -/

/-- SEND (R238): the message is read, the thread drains at the token's scope, and waits for the target's answer. -/
def execSend (g : Guard) (p : Pred) (a b : Reg) (h : Bool) (s : State) : Host.Outcome State Fault Refusal :=
  issue (.send g p a b h) g 0 false (fun s =>
    if s.slot.open_ then .stop (.of .choiceEscape (s.g b))
    else if s.ctx.seqNo = 0xFFFF then .stop (.of .instantMiss (s.g b))
    else withBlock (.send g p a b h) 0 (s.g b) 64 { r := true, n := true } (fun m s =>
      .bind (s.locate s.coreIdx s.slot.part (s.g a) 1 1) fun t =>
        let m := withHeader m (header h 0 s.ownIdx s.ctx.taskIdx s.ctx.seqNo)
        match t with
        | .reg _ => .stop (.of .segBound (s.g a))
        | .here pl =>
          drain (.send g p a b h) (scopeOf s.coreIdx pl.home) (fun s =>
            .stay ((s.send s.slot.part (.message (s.g a) pl.home h m (.slot s.cur))).await (.send g p a b h) .reply
              (some (.send p)))) s
        | .away dv =>
          drain (.send g p a b h) .dev (fun s =>
            .stay ((s.export dv ⟨s.slot.part, .messageTo (s.g a) h m (.slot (s.peerKey s.cur))⟩).await (.send g p a b h) .reply
              (some (.send p)))) s) s) s

/-- A message that waits to be taken: dw0 = 0, of the partition, its header meeting a test (R238). -/
def Message.takes (m : Message) (p : Fin 8) (key : Option (BitVec 61)) : Bool :=
  m.part == p && dw m.m 0 == 0 && !m.running && (match key with
    | none => true
    | some k => (dw m.m 1).setWidth 61 == k)

/-- The message that INBOX or TWAIT takes, high inbox first, and the core without it. -/
def CoreUnit.takeMessage (u : CoreUnit) (p : Fin 8) (key : Option (BitVec 61)) : Option (Vec × CoreUnit) :=
  match u.high.findIdx? (·.takes p key) with
  | some k => (u.high[k]?).map fun m => (m.m, { u with high := u.high.eraseIdx k })
  | none =>
    match u.low.findIdx? (·.takes p key) with
    | some k => (u.low[k]?).map fun m => (m.m, { u with low := u.low.eraseIdx k })
    | none => none

/-- The message that INBOX or TWAIT takes is marked as being taken. -/
def CoreUnit.holdMessage (u : CoreUnit) (p : Fin 8) (key : Option (BitVec 61)) : CoreUnit :=
  match u.high.findIdx? (·.takes p key) with
  | some k => { u with high := u.high.modify k fun m => { m with running := true } }
  | none => match u.low.findIdx? (·.takes p key) with
    | some k => { u with low := u.low.modify k fun m => { m with running := true } }
    | none => u

/-- Takes a message, once its checks on the buffer have passed, writes it and gives g[d] its header (R238). A write that is
checked at another place leaves the message in the inbox until it has been answered. -/
def takeInto (i : Instr) (d : Reg) (va : Word) (key : Option (BitVec 61)) (w : Wait) (s : State) : Out :=
  match (s.coreAt s.coreIdx).takeMessage s.slot.part key with
  | none => .stay (s.await i w)
  | some (m, _) =>
    .bind (s.access va 64 { w := true, n := true }) fun t =>
    .bind (guardArena va 64 s) fun s =>
    .bind (setG d (dw m 1) s) fun _ =>
      reach i false va t (.write va · 64 m) (some (.w4write · 64 m)) (.took d m)
        (s.dropAhead.setCoreAt s.coreIdx ((s.coreAt s.coreIdx).holdMessage s.slot.part key))

/-- INBOX (R238). -/
def execInbox (g : Guard) (d a : Reg) (s : State) : Host.Outcome State Fault Refusal :=
  issue (.inbox g d a) g 0 true (fun s => takeInto (.inbox g d a) d (s.g a) none .inbox s) s

/-- TWAIT (R238): device 0x1FFF in the key is read as this device. -/
def execTwait (g : Guard) (d a b : Reg) (s : State) : Host.Outcome State Fault Refusal :=
  issue (.twait g d a b) g 0 true (fun s =>
    let k := s.g a
    let dev := k.toNat / 2 ^ 48 % 2 ^ 13
    let key : BitVec 61 := .ofNat 61 ((if dev = 0x1FFF then s.ownIdx else dev) * 2 ^ 48 + k.toNat % 2 ^ 48)
    takeInto (.twait g d a b) d (s.g b) (some key) (.key key) s) s

/-- IPEEK (R238). -/
def execIpeek (g : Guard) (d : Reg) (s : State) : Host.Outcome State Fault Refusal :=
  issue (.ipeek g d) g 0 false (fun s =>
    .setG d (match (s.coreAt s.coreIdx).takeMessage s.slot.part none with
      | some (m, _) => dw m 1
      | none => .allOnes 64) s) s

/-- LAUNCH (R239): the descriptor is read, the thread drains at .dev, and the queue takes it; LAUNCH.w parks its thread
while the queue is full (R233), but not in a supervisor handler (R370) or with CTXB = 0 (R377). -/
def execLaunch (g : Guard) (p : Pred) (a : Reg) (z : Bool) (s : State) : Host.Outcome State Fault Refusal :=
  issue (.launch g p a z) g 0 true (fun s =>
    if s.slot.open_ then .stop (.of .choiceEscape (s.g a))
    else withBlock (.launch g p a z) 0 (s.g a) 64 { r := true, n := true } (fun m s =>
      drain (.launch g p a z) .dev (fun s =>
        let q := s.slot.part
        let x := s.part
        if x.queue.length < 64 then
          .setP p true (s.setPartAt q { x with queue := x.queue ++ [(m, s.coreIdx)] })
        else if !z || s.slot.inh || x.regs.ctxb == 0 then .setP p false s
        else spillAll (.launch g p a z) (fun s =>
          if s.slot.unacked ≠ 0 then .stay (s.await (.launch g p a z) .settle)
          else
            let y := s.slot
            let t := { y.pack none with vec := if y.ctx.anch then some (y.v, y.vl, y.k) else none, inst := none,
                                        drained := false }
            .bind (s.areaAt q s.cur) fun pl =>
            .bind (s.saveSlot s.cur) fun u =>
              let u := u.nowWrite q (pl.phys + 0xC2) 1 0 none none
              let u := u.setPartAt q { u.partAt q with
                parked := (u.partAt q).parked ++ [(s.coreIdx, t)], kept := (u.partAt q).kept.drop s.cur }
              .stay (u.vacate s.cur)) 4 s) s) s) s

/-! ## Deliveries -/

/-- The entries a partition holds of an inbox. -/
def holdsOf (p : Fin 8) (l : List Message) : Nat := (l.filter fun m => m.part == p).length

/-- A message enters an inbox (R223): the waits it ends go on, but for those that a stop is to save (R238, R389), and it interrupts
an MWAIT when it enters the high inbox or is the completion of a command that the thread issued (R207). -/
def State.enter (s : State) (core : Nat) (hi : Bool) (m : Message) : State :=
  let u := s.coreAt core
  let s := s.setCoreAt core (if hi then { u with high := u.high ++ [m] } else { u with low := u.low ++ [m] })
  let done := fun (x : Slot) => m.cmd.any x.cmds.contains
  let goes := !(s.partAt m.part).stopping
  let here := (List.range 16).map (core * 16 + ·)
  let elsewhere := (s.slots.map (·.1)).filter fun n => n / 16 != core && done (s.slotAt n)
  (here ++ elsewhere).foldl (fun s n =>
    let x := s.slotAt n
    if n / 16 ≠ core then match x.run with
      | .waiting .idle => s.endWait n
      | _ => s.interrupt n
    else if x.part ≠ m.part then if hi then s.interrupt n else s
    else match x.run with
      | .waiting .inbox => if goes ∧ dw m.m 0 = 0 then s.resumeSlot n else s
      | .waiting (.key k) => if goes && m.takes m.part (some k) then s.resumeSlot n else s
      | .waiting .idle => s.endWait n
      | _ => if hi || done x then s.interrupt n else s) s

/-- A message reaches its inbox, if the partition's share has room (R223). -/
def State.offer (s : State) (core : Nat) (hi : Bool) (m : Message) : Option State :=
  let u := s.coreAt core
  if holdsOf m.part (if hi then u.high else u.low) < s.share64 then some (s.enter core hi m) else none

/-- The command whose completion a message is. -/
def Origin.command : Origin → Option Nat
  | .completed _ k => some k
  | _ => none

/-- MESSAGE_DELIVERY (R223, R238): a SEND is answered; a refused message of the device is retried 16 reference ticks
later, in order. -/
def execMessageDelivery (k : Nat) (s : State) : Host.Outcome State Fault Refusal :=
  match s.takePacket k with
  | some (⟨p, .message _ core hi m o⟩, t) =>
    let msg : Message := { part := p, m := m, cmd := o.command }
    if s.running p = false ∧ ((s.partAt p).flushed = true ∨ (s.partAt p).stopping = false) then .next s
    else match o with
    | .slot n =>
      match t.offer core hi msg with
      | some u => .next (u.answer p n (.ok 1) (.core core))
      | none => .next (t.answer p n (.ok 0) (.core core))
    | .peer d n =>
      match t.offer core hi msg with
      | some u => .next (u.export d ⟨p, .reply n (.ok 1) .none⟩)
      | none => .next (t.export d ⟨p, .reply n (.ok 0) .none⟩)
    | _ =>
      let u := t.coreAt core
      let later := t.setCoreAt core { u with retry := u.retry ++ [(hi, msg, t.refcnt + 16)] }
      if u.retry.any fun e => e.1 == hi && e.2.1.part == p then .next later
      else .next ((t.offer core hi msg).getD later)
  | _ => .next s

/-- The retries of a core, in order: a message that is refused again holds those behind it for the same share. -/
def State.retryAll (core : Nat) : List (Bool × Message × Nat) → State → State
  | [], s => s
  | (hi, m, t) :: r, s =>
    let keep := fun (s : State) (t : Nat) =>
      let u := s.coreAt core
      s.setCoreAt core { u with retry := u.retry ++ [(hi, m, t)] }
    let behind := !s.running m.part || (s.coreAt core).retry.any fun e => e.1 == hi && e.2.1.part == m.part
    if behind || decide (s.refcnt < t) then State.retryAll core r (keep s t)
    else State.retryAll core r ((s.offer core hi m).getD (keep s (s.refcnt + 16)))

/-- MESSAGE_RETRY (R223). -/
def execMessageRetry (core : Nat) (s : State) : Host.Outcome State Fault Refusal :=
  let u := s.coreAt core
  .next (if u.retry.isEmpty then s else State.retryAll core u.retry (s.setCoreAt core { u with retry := [] }))

/-- The oldest handler message of a partition that no handler runs. -/
def nextHandler (p : Fin 8) (l : List Message) : Option Nat :=
  l.findIdx? fun m => m.part == p && dw m.m 0 != 0 && !m.running

/-- A handler's thread as it starts in message slot n (R222). -/
def State.handlerThread (s : State) (p : Fin 8) (n : Nat) (m : Vec) : Slot :=
  let x := s.partAt p
  let regs : Vector Word 16 := Vector.ofFn fun i =>
    if i.val < 8 then dw m i.val else if i.val = 14 then s.stackMid p n else 0
  let c : Ctx := {
    g := regs, mode := modeByte 0 false false true 0, pc := dw m 0, rel := x.now, vis := x.now + 1
    ord := 0xFFFFFFFF0000, sel := Vector.ofFn fun i => .ofNat 8 i.val, wsp := s.stackTop p n }
  { ctx := c, run := .runnable, part := p, handler := true, ready := (s.slotAt n).ready, gen := (s.slotAt n).gen }

/-- HANDLER_START (R222). -/
def execHandlerStart (core : Nat) (p : Fin 8) (s : State) : Host.Outcome State Fault Refusal :=
  let u := s.coreAt core
  let go := fun (n : Nat) (m : Message) (u : CoreUnit) =>
    ((s.setCoreAt core u).setSlotAt n (s.handlerThread p n m.m)).fillSegs n
  match s.messageSlot p with
  | none => .next s
  | some k =>
    let n := core * 16 + k
    if (s.slotAt n).run ≠ .free ∨ s.running p = false then .next s
    else match nextHandler p u.high with
      | some j =>
        match u.high[j]? with
        | some m => .next (go n m { u with high := u.high.set j { m with running := true } })
        | none => .next s
      | none =>
        match nextHandler p u.low with
        | some j =>
          match u.low[j]? with
          | some m => .next (go n m { u with low := u.low.set j { m with running := true } })
          | none => .next s
        | none => .next s

/-- The partitions that are defined. -/
def State.defined (s : State) : List (Fin 8) := (List.finRange 8).filter fun p => pdefV (s.pdefOf p)

/-- A core's arrival queue has an entry for a thread of the partition (R220): 16 entries, one reserved for each defined
partition. -/
def State.arrivalRoom (s : State) (core : Nat) (p : Fin 8) : Bool :=
  let count := fun (q : Fin 8) => ((s.coreAt core).arrivals.filter fun t => t.part == q).length
  let shared := (s.defined.map fun q => count q - 1).sum
  count p == 0 || decide (shared < 16 - s.defined.length)

/-- MIGRATION_ARRIVAL (R220): into a free slot, else into the arrival queue; with no room the packet waits. -/
def execMigrationArrival (k : Nat) (s : State) : Host.Outcome State Fault Refusal :=
  match s.takePacket k with
  | some (⟨p, .migration core t⟩, u) =>
    if s.running p = false then .next s
    else match (if (u.coreAt core).arrivals.any (·.part == p) then none else u.freeSlot core p) with
    | some n => .next (u.place n t)
    | none =>
      if s.arrivalRoom core p then
        let c := u.coreAt core
        .next (u.setCoreAt core { c with arrivals := c.arrivals ++ [t] })
      else .next s
  | _ => .next s

/-- WAKE_MESSAGE (R142): a dropped thread reissues its word, an instruction that Monarch performs goes on (R349), and so does one that
sends (R337). -/
def execWakeMessage (k : Nat) (s : State) : Host.Outcome State Fault Refusal :=
  match s.takePacket k with
  | some (⟨_, .wake n⟩, t) =>
    .next (match (t.slotAt n).run with
      | .dropped _ | .waiting .unit => t.resumeSlot n
      | .waiting .sending => t.sendNext n (t.provOf n).length.succ
      | _ => t)
  | _ => .next s

/-- PAGE_FAULT_REISSUE (R142): a thread whose fault was refused reissues its word after 64 reference ticks. -/
def execPageFaultReissue (n : Nat) (s : State) : Host.Outcome State Fault Refusal :=
  match (s.slotAt n).run with
  | .dropped (some t) => .next (if t ≤ s.refcnt then s.resumeSlot n else s)
  | _ => .next s

end Sys2Proof.Machine
end

