-- ==== Sys2Proof/Machine/Launch.lean ====
section
/-! DEFINITION. The cluster control cores (01_machine R24, R25; 07_instant R142 to R144; 10_thread R225 to R233): launches are
taken and their crews started, and page faults are resolved or reported. -/

namespace Sys2Proof.Machine

/-! ## Reads of the device by a partition's segment table (R398, R402) -/

/-- The first entry of a partition's table that holds an address (R135, R398). -/
def State.tableSeg (s : State) (core : Nat) (p : Fin 8) (va : Word) : Option Seg :=
  if (s.partAt p).regs.segtb = 0 then none
  else ((List.range 256).filterMap fun i =>
    match s.segEntry core p i with
    | .entry g => some g
    | _ => none).find? fun g => g.holds va

/-- The core at which the device's own accesses are made: core 0 of cluster 0 on the lowest-numbered enabled die. -/
def State.deviceCore (s : State) : Nat := s.firstDie * 256

/-- A Now-domain read under a partition's segment table (R402): none when a check fails. -/
def State.tableRead (s : State) (p : Fin 8) (va : Word) (n : Nat) : Option Nat :=
  match s.tableSeg s.deviceCore p va with
  | none => none
  | some g =>
    if !(g.r && g.n) || decide (g.base.toNat + g.limit.toNat < va.toNat + n) then none
    else match s.locate s.deviceCore p va n 0 with
      | .ok (.here pl) => (s.readAt va pl n).toOption
      | _ => none

/-! ## Taking a launch (R24, R25, R225, R233) -/

/-- The descriptor's reserved bits are 0 and its fields are in range (R225). -/
def descOk (m : Vec) (slots : Nat) : Bool :=
  decide ((dw m 2).toNat / 2 ^ 55 = 0) && decide ((dw m 2).toNat % 2 ^ 32 = 0) && decide ((dw m 5).toNat / 2 ^ 16 = 0)
    && decide (dw m 7 = 0) && decide (descCore0 m + descCrew m ≤ 16) && decide (descTeam m ≤ slots)
    && decide (0 < descWaves m) && decide (0 < descNcrew m) && decide (descTasks m < 2 ^ 32)

/-- CDST names a place of R225: 0, or an address in W0 to W3 of this device or of one in the reach table. -/
def State.cdstOk (s : State) (va : Word) : Bool :=
  va == 0 || (decide (va.toNat < 2 ^ 61) && (match winOf (localAddr va) with
    | none | some .w4 => false
    | some .w1 =>
      if s.onDevice va then s.dieOn (localAddr va / 2 ^ 27 % 8) else (s.reachOf (devIndex va)).isSome
    | some _ => s.onDevice va || (s.reachOf (devIndex va)).isSome))

/-- The task record at TREC (R44, R225): its entry, whether it is anchored, and whether it is heavy. -/
def State.taskRecord (s : State) (p : Fin 8) (va : Word) : Option (Word × Bool × Bool) :=
  if va.toNat % 8 ≠ 0 then none
  else match s.tableRead p va 8, s.tableRead p (va + 8) 8 with
    | some a, some e =>
      let len := a / 2 ^ 32
      if a % 2 ^ 32 / 4 ≠ 0 ∨ e % 4 ≠ 0 ∨ len = 0 ∨ len % 4 ≠ 0 then none
      else some (.ofNat 64 e, a % 2 = 1, a / 2 % 2 = 1)
    | _, _ => none

/-- The most tasks of a launch on one core (R226). -/
def descPerCore (m : Vec) : Nat :=
  (descNcrew m + 16 * countDies (descDies m) - 1) / (16 * countDies (descDies m)) * descWaves m * descTeam m

/-- The check of a launch as it is taken (R25, R225, R232): the entry and mode of its tasks, or a status. Where several fail,
R225's come first, then the mask's, then the fit of a resident launch (log entry 98). -/
def State.checkLaunch (s : State) (p : Fin 8) (m : Vec) : Except Byte (Word × Bool × Bool) :=
  let slots := (s.ordinary p).length
  if !descOk m slots || !s.cdstOk (descCdst m) then .error 0x01
  else match s.taskRecord p (descTrec m) with
    | none => .error 0x01
    | some r =>
      let dies := descDies m
      if dies = 0 ∨ dies &&& ~~~ s.dev.dies ≠ 0 ∨ dies &&& ~~~ pdefDies (s.pdefOf p) ≠ 0
          ∨ dies &&& s.dev.unreachable ≠ 0 then .error 0x1A
      else if descRes m ∧ slots < descPerCore m then .error 0x1D
      else .ok r

/-- A launch is accepted, or rejected whole with its completion (R25, R231). -/
def State.takeLaunch (s : State) (p : Fin 8) (m : Vec) (host : Bool) (core : Nat) : State :=
  match s.checkLaunch p m with
  | .error c =>
    s.complete p (descCdst m) s.deviceCore core host (completionMsg s.ownIdx 0xFFFFFFFF 0xFFFF 0 true false false c 0 0 0)
  | .ok (entry, anch, heavy) =>
    let l : Launch := {
      id := s.stamp, desc := m, host := host, core := core, entry := entry, anch := anch, started := [], live := []
      retired := 0, failed := false, slip := false, abandon := 0, lost := 0, slips := 0, heavy := heavy, waits := [] }
    let x := s.partAt p
    ((s.setPartAt p { x with launches := x.launches ++ [l] }).bump).log p 1 x.now (descTrec m) 64 m.toNat

/-- The oldest parked thread goes back to its core (R233): its packet arrives there. -/
def State.unpark (s : State) (p : Fin 8) : State :=
  match (s.partAt p).parked with
  | [] => s
  | (core, t) :: r => (s.setPartAt p { s.partAt p with parked := r }).send p (.migration core t)

/-- The head of the device queue, or of the host queue, may be taken (R94): every register write that waits for its step was made
after it was queued. -/
def Part.gateOpen (x : Part) (host : Bool) : Bool := x.ahead.all fun a => decide (0 < if host then a.2 else a.1)

/-- A queue's head is taken. -/
def Part.takeHead (x : Part) (host : Bool) : Part :=
  let ahead := x.ahead.map fun a => if host then (a.1, a.2 - 1) else (a.1 - 1, a.2)
  if host then { x with hostQueue := x.hostQueue.drop 1, ahead := ahead }
  else { x with queue := x.queue.drop 1, ahead := ahead }

/-- LAUNCH_TAKE (R148, R94, R233): the device queue first, then the host queue. -/
def execLaunchTake (p : Fin 8) (s : State) : Host.Outcome State Fault Refusal :=
  let x := s.partAt p
  if !s.running p || decide (s.refcnt < x.regs.qepoch.toNat % 2 ^ 56) then .next s
  else match x.queue with
    | (m, core) :: _ =>
      .next (if x.gateOpen false then ((s.setPartAt p (x.takeHead false)).unpark p).takeLaunch p m false core else s)
    | [] =>
      let t := s.setPartAt p (x.takeHead true)
      match x.hostQueue, x.gateOpen true with
      | some m :: _, true => .next (t.takeLaunch p m true s.deviceCore)
      | none :: _, true =>
        .next (t.complete p 0 s.deviceCore s.deviceCore true
          (completionMsg s.ownIdx 0xFFFFFFFF 0xFFFF 0 true false false 0x01 0 0 0))
      | _, _ => .next s

/-! ## Crews (R226 to R228) -/

/-- The slots of a core that a team start uses, in its order: held ones, then free ordinary ones (R228). -/
def State.teamSlots (s : State) (p : Fin 8) (core : Nat) : List Nat :=
  let l := (s.ordinary p).map (core * 16 + ·)
  l.filter (fun n => (s.slotAt n).run == .held) ++ l.filter (fun n => (s.slotAt n).run == .free)

/-- No unstarted crew stands before this one on a core's list (R226, R227). -/
def State.headOf (s : State) (p : Fin 8) (l : Launch) (c core : Nat) : Bool :=
  ((s.partAt p).launches.all fun m => decide (l.id ≤ m.id) || (List.range (descCrews m.desc)).all fun k =>
      m.started.contains k || !(crewCores m.desc k).contains core)
    && (List.range c).all fun k => l.started.contains k || !(crewCores l.desc k).contains core

/-- A task's thread starts in a slot (R228). -/
def State.startTask (s : State) (p : Fin 8) (l : Launch) (c i n : Nat) : State :=
  let rel := crewRel l.desc c
  let regs : Vector Word 16 := Vector.ofFn fun k =>
    if k.val = 0 then descArg l.desc else if k.val = 1 then .ofNat 64 i else if k.val = 14 then s.stackMid p n else 0
  let ctx : Ctx := {
    g := regs, mode := modeByte 0 false (descPol l.desc) l.anch 0, pc := l.entry, rel := rel
    vis := rel + (descVoff l.desc).setWidth 48, ord := .ofNat 48 (i * 2 ^ 16)
    sel := Vector.ofFn fun k => .ofNat 8 k.val, wsp := s.stackTop p n }
  let y := s.slotAt n
  let x : Slot := { ctx := ctx, run := .runnable, part := p, task := some (l.id, i), ready := y.ready, gen := y.gen }
  ((s.setSlotAt n x).onTask p (some (l.id, i)) fun t => { t with threads := 1 }).fillSegs n

/-- A core whose list holds no unstarted task of the partition has no held slot of it (R217, R235). -/
def State.releaseHeld (p : Fin 8) (s : State) (core : Nat) : State :=
  if s.listed p core then s
  else ((s.ordinary p).map (core * 16 + ·)).foldl
    (fun s n => if (s.slotAt n).run == .held then s.vacate n else s) s

/-- A crew starts (R227, R228). -/
def State.startCrew (s : State) (p : Fin 8) (id c : Nat) : State :=
  match (s.partAt p).launches.find? fun l => l.id == id with
  | none => s
  | some l =>
    let team := descTeam l.desc
    let starts := (List.range (descCrew l.desc)).flatMap fun k =>
      let core := crewCluster l.desc c * 16 + descCore0 l.desc + k
      ((s.teamSlots p core).take team).zipIdx.map fun nm => (((c * descCrew l.desc + k) * team + nm.2), nm.1)
    let s := s.setPartAt p ((s.partAt p).setLaunch { l with started := l.started ++ [c] })
    let s := starts.foldl (fun s e => s.startTask p l c e.1 e.2) s
    (crewCores l.desc c).foldl (State.releaseHeld p) s

/-- The crews of a launch that use a core. -/
def crewsOn (m : Vec) (core : Nat) : Nat :=
  ((List.range (descCrews m)).filter fun k => (crewCores m k).contains core).length

/-- A crew may start (R227). -/
def State.crewReady (s : State) (p : Fin 8) (l : Launch) (c : Nat) : Bool :=
  decide (c < descCrews l.desc) && !l.started.contains c
    && decide ((crewRel l.desc c).toNat ≤ (s.partAt p).now.toNat)
    && (crewCores l.desc c).all fun core =>
      s.headOf p l c core && decide (descTeam l.desc ≤ (s.teamSlots p core).length)

/-- A resident launch may start (R227): every task is released and has a slot, and nothing stands before it. -/
def State.residentReady (s : State) (p : Fin 8) (l : Launch) : Bool :=
  l.started.isEmpty && (List.range (descCrews l.desc)).all fun c =>
    decide ((crewRel l.desc c).toNat ≤ (s.partAt p).now.toNat)
      && (crewCores l.desc c).all fun core =>
        s.headOf p l 0 core && decide (crewsOn l.desc core * descTeam l.desc ≤ (s.teamSlots p core).length)

/-- A die's units. -/
def State.dieAt (s : State) (d : Nat) : DieUnit := Table.get {} s.dies d
def State.setDieAt (s : State) (d : Nat) (x : DieUnit) : State := { s with dies := Table.set s.dies d x }

/-- The pool of a die is below THR (R290). -/
def State.lowPool (s : State) (die : Nat) : Bool := decide ((s.dieAt die).pool < (s.dieAt die).thr.toNat * 256)

/-- The dies on which a crew starts: all of a resident launch's crews start with it (R227). -/
def startDies (l : Launch) (c : Nat) : List Nat :=
  (if descRes l.desc then List.range (descCrews l.desc) else [c]).map fun k => crewCluster l.desc k / 16

/-- A heavy crew whose die's pool is below THR (R290): the light crews of the tick start before it. -/
def State.behindLight (s : State) (l : Launch) (c : Nat) : Bool := l.heavy && (startDies l c).any s.lowPool

/-- A heavy crew that may start is held back while its die's pool is below THR, for at most 64 reference ticks (R290; log
entry 36). -/
def State.holdsBack (s : State) (l : Launch) (c : Nat) : Bool :=
  s.behindLight l c && (match l.waits.find? fun w => w.1 == c with
    | none => true
    | some (_, t) => decide (s.refcnt < t + 64))

/-- CREW_START (R227, R228): one crew, or every crew of a resident launch. -/
def execCrewStart (p : Fin 8) (id crew : Nat) (s : State) : Host.Outcome State Fault Refusal :=
  match (s.partAt p).launches.find? fun l => l.id == id with
  | none => .next s
  | some l =>
    if s.running p = false then .next s
    else if (if descRes l.desc then s.residentReady p l else s.crewReady p l crew) && s.holdsBack l crew then
      .next (if l.waits.any fun w => w.1 == crew then s
        else s.setPartAt p ((s.partAt p).setLaunch { l with waits := l.waits ++ [(crew, s.refcnt)] }))
    else if descRes l.desc then
      .next (if s.residentReady p l then
        (List.range (descCrews l.desc)).foldl (fun s c => s.startCrew p id c) s else s)
    else .next (if s.crewReady p l crew then s.startCrew p id crew else s)

/-! ## Page faults (R142, R144) -/

/-- The waiters of a fault go on (R142): a wake for each slot; a unit's completion or a held transfer is tried again. An
engine looks for itself. -/
def State.wakeWaiter (p : Fin 8) (s : State) (w : Waiter) : State :=
  match w with
  | .slot n => s.send p (.wake n)
  | .unit k =>
    let x := s.partAt p
    match x.completions.find? fun e => e.stamp == k with
    | some c =>
      (s.setPartAt p { x with completions := x.completions.filter fun e => e.stamp != k }).complete p c.cdst c.src c.core c.host c.m
    | none =>
      match s.dev.held.find? fun e => e.1 == k with
      | some (_, q) =>
        { s with dev := { s.dev with held := s.dev.held.filter fun e => e.1 != k }, net := s.net ++ [q] }
      | none => s

/-- A fault entry ends: its waiters go on, and it leaves the port, but for a record that the host has not removed (R395). -/
def State.endFault (s : State) (cluster : Nat) (e : FaultEnt) : State :=
  let q := s.portAt cluster
  let l := if e.reported && !e.removed then q.faults.map fun f => if f = e then { f with ended := true } else f
    else q.faults.erase e
  e.waiters.foldl (State.wakeWaiter e.part) (s.setPortAt cluster { q with faults := l })

/-- A fault entry is reported to the host (R142, R404). -/
def State.reportFault (s : State) (cluster : Nat) (e : FaultEnt) : State :=
  let q := s.portAt cluster
  (s.setPortAt cluster { q with faults := q.faults.map fun f => if f = e then { f with reported := true } else f }).signal 2

/-- The pool controller takes the entry at COUNT − 1 (R144): nothing is taken when it cannot be read, and an entry that
breaks its layout is discarded. -/
def State.takeFrame (s : State) (p : Fin 8) : State × Option Word :=
  let x := s.partAt p
  let n := x.regs.fpcnt.toNat % 2 ^ 16
  let va := x.regs.fpbase + 8 * .ofNat 64 (n - 1)
  let paged := match winOf (localAddr va) with
    | some .w1 | some .w2 | some .w3 => true
    | _ => false
  if n = 0 ∨ paged = false ∨ va.toNat % 8 ≠ 0 then (s, none)
  else match s.locate s.deviceCore p va 8 0 with
    | .ok (.here pl) =>
      match s.readAt va pl 8 with
      | .error _ => (s, none)
      | .ok v =>
        let e : Word := .ofNat 64 v
        let t := s.setPartAt p { x with regs := { x.regs with fpcnt := .ofNat 64 (n - 1) } }
        if pteV e && !pteSo e && !pteIl e && s.leafOk e (2 ^ 16) then (t, some e) else (t, none)
    | _ => (s, none)

/-- A frame of 64 KiB is zeroed by Now-domain writes at device privilege (R144). -/
def State.zeroFrame (s : State) (p : Fin 8) (base : Nat) : State :=
  let lines := ((s.sharers.map (·.1)) ++ (s.watchers.map (·.1))).eraseDups.filter fun l =>
    decide (base / 64 ≤ l) && decide (l < (base + 2 ^ 16) / 64)
  lines.foldl (fun s l => s.tell p l none none) { s with mem := s.mem.clear base (2 ^ 16) }

/-- A leaf's frame, zeroed and entered at a table entry's address (R144). -/
def State.mapFrame (s : State) (p : Fin 8) (at_ : Nat) (e : Word) : State :=
  (s.zeroFrame p (frameBase (pteDie e) (pteSram e) + pteFrame e)).nowWrite p at_ 8 e.toNat none none

/-- The pointer to a frame that becomes a table: V = 1, L = 0, CLU = 0 (R140, R144). -/
def pointerTo (e : Word) : Word :=
  .ofNat 64 (2 ^ 63 + pteDie e * 2 ^ 57 + 2 ^ 52 * (pteSram e).toNat + pteFrame e)

/-- PAGE_FAULT_RESOLVE (R142, R144): in hardware mode an unmapped page is mapped from the frame pool; otherwise the fault
is reported. The mode is HAMODE.PAGH as the fault arose (R23). -/
def execPageFaultResolve (cluster k : Nat) (s : State) : Host.Outcome State Fault Refusal :=
  match (s.portAt cluster).faults[k]? with
  | none => .next s
  | some e =>
    let p := e.part
    if e.reported then .next s
    else if e.toHost || e.kind == 8 then .next (s.reportFault cluster e)
    else match s.walk p (winOf (localAddr e.va) == some .w3) (localAddr e.va) with
      | .leaf .. => .next (s.endFault cluster e)
      | .noRoot | .malformed | .unread => .next (s.reportFault cluster e)
      | .noTab at_ =>
        match s.takeFrame p with
        | (t, some f) => .next ((t.mapFrame p at_ f).endFault cluster e)
        | (t, none) => .next (t.reportFault cluster e)
      | .noDir at_ =>
        if (s.partAt p).regs.fpcnt.toNat % 2 ^ 16 < 2 then .next (s.reportFault cluster e)
        else match s.takeFrame p with
          | (t, none) => .next (t.reportFault cluster e)
          | (t, some f) =>
            let base := frameBase (pteDie f) (pteSram f) + pteFrame f
            let t := (t.zeroFrame p base).nowWrite p at_ 8 (pointerTo f).toNat none none
            match t.takeFrame p with
            | (t, none) => .next (t.reportFault cluster e)
            | (t, some h) =>
              .next ((t.mapFrame p (base + 8 * (localAddr e.va / 2 ^ 16 % 32)) h).endFault cluster e)

end Sys2Proof.Machine
end

