-- ==== Sys2Proof/Machine/Num.lean ====
section
/-! DEFINITION. Numbers (04_numbers, R79 to R97): the values of the element formats as exact dyadic numbers, their
encoding with one rounding, and the operations that are exact before it. -/

namespace Sys2Proof.Machine

/-- An exact value (R79): NaN, an infinity, or (−1)^neg × m × 2^e. Zero keeps its sign. -/
inductive Num
  | nan
  | inf (neg : Bool)
  | fin (neg : Bool) (m : Nat) (e : Int)
  deriving DecidableEq, Repr

/-- The rounding modes (R86). -/
inductive RMode | rne | rtz | rdn | rup | srk
  deriving DecidableEq, Repr

/-- RMODE.MODE as a mode (R92). -/
def rmodeOf (w : Word) : RMode :=
  match w.toNat % 8 with
  | 1 => .rtz
  | 2 => .rdn
  | 3 => .rup
  | 4 => .srk
  | _ => .rne

/-- A rounding code (R62): 111 names RMODE. -/
def rndMode (r : Rnd) (rmode : Word) : RMode :=
  match r with
  | .rne => .rne
  | .rtz => .rtz
  | .rdn => .rdn
  | .rup => .rup
  | .srk => .srk
  | .dyn => rmodeOf rmode

/-! ## Formats (R79 to R83) -/

/-- Bits of an element. -/
def elemBits : Elem → Nat
  | .f32 | .i32 => 32
  | .bf16 | .i16 => 16
  | .e4m3 | .e5m2 | .i8 => 8
  | .i4 => 4
  | .i64 => 64

/-- The element is a floating-point format. -/
def elemFloat : Elem → Bool
  | .f32 | .bf16 | .e4m3 | .e5m2 => true
  | _ => false

/-- Mantissa bits of a float format. -/
def mantBits : Elem → Nat
  | .f32 => 23
  | .bf16 => 7
  | .e4m3 => 3
  | .e5m2 => 2
  | _ => 0

/-- The bias of a float format. -/
def biasOf : Elem → Nat
  | .e4m3 => 7
  | .e5m2 => 15
  | _ => 127

/-- The code of the largest finite value. -/
def maxCode : Elem → Nat
  | .f32 => 0x7F7FFFFF
  | .bf16 => 0x7F7F
  | .e4m3 => 0x7E
  | .e5m2 => 0x7B
  | _ => 0

/-- The canonical NaN (R80 to R82). -/
def nanCode : Elem → Nat
  | .f32 => 0x7FC00000
  | .bf16 => 0x7FC0
  | .e4m3 => 0x7F
  | .e5m2 => 0x7E
  | _ => 0

/-- The sign bit of a format. -/
def signBit (t : Elem) : Nat := 2 ^ (elemBits t - 1)

/-- A two's complement value of `w` bits. -/
def sint (w x : Nat) : Int := if x % 2 ^ w < 2 ^ (w - 1) then x % 2 ^ w else (x % 2 ^ w : Nat) - (2 ^ w : Nat)

/-- The low `w` bits of an integer. -/
def bitsOf (w : Nat) (x : Int) : Nat := (x % (2 ^ w : Nat)).toNat

/-- The value of a float's code (R79 to R82). -/
def floatVal (t : Elem) (c : Nat) : Num :=
  let neg := decide (signBit t ≤ c % 2 ^ elemBits t)
  let a := c % signBit t
  let mb := mantBits t
  if maxCode t < a then (if t = .e4m3 ∨ a % 2 ^ mb ≠ 0 then .nan else .inf neg)
  else if a / 2 ^ mb = 0 then .fin neg a (1 - (biasOf t : Int) - mb)
  else .fin neg (2 ^ mb + a % 2 ^ mb) ((a / 2 ^ mb : Nat) - (biasOf t : Int) - mb)

/-- An integer as an exact value. -/
def intVal (x : Int) : Num := .fin (decide (x < 0)) x.natAbs 0

/-- The value of an element's code. -/
def elemVal (t : Elem) (c : Nat) : Num := if elemFloat t then floatVal t c else intVal (sint (elemBits t) c)

/-! ## Rounding (R86 to R90) -/

/-- srk_bits (R88). -/
def srkBits (key site : Word) (inst : Instant) : Nat :=
  let x := key ^^^ site
  let x := (x ^^^ (x >>> 29)) * 0xA4C193E56B27D10F
  let x := x ^^^ (inst.setWidth 64 <<< 16)
  let x := (x ^^^ (x >>> 31)) * 0xE2B85C1749D306AB
  let x := x ^^^ (x >>> 33)
  x.toNat % 2 ^ 32

/-- What an instruction's roundings use: its mode, SAT, and the key, site and instant of SRK. -/
structure Rounding where
  mode : RMode
  sat : Bool
  key : Word
  site : BitVec 48
  inst : Instant
  deriving DecidableEq, Repr

/-- The random bits of the k-th rounding for the site (R88). -/
def Rounding.bits (r : Rounding) (k : Nat) : Nat :=
  srkBits r.key (.ofNat 64 (k % 2 ^ 16 * 2 ^ 48 + r.site.toNat)) r.inst

/-- The magnitude is rounded up (R86, R87): `lo` the magnitude below, `rem` of 2^d what lies above it, not 0. -/
def roundsUp (mode : RMode) (rnd : Nat) (neg : Bool) (lo rem d : Nat) : Bool :=
  match mode with
  | .rne => decide (2 ^ d < 2 * rem) || (decide (2 * rem = 2 ^ d) && decide (lo % 2 = 1))
  | .rtz => false
  | .rdn => neg
  | .rup => !neg
  | .srk => decide (2 ^ 32 ≤ rem * 2 ^ 32 / 2 ^ d + rnd)

/-- m × 2^e as a multiple of 2^q, rounded. -/
def roundMag (mode : RMode) (rnd : Nat) (neg : Bool) (m : Nat) (e q : Int) : Nat :=
  if q ≤ e then m * 2 ^ (e - q).toNat
  else
    let d := (q - e).toNat
    let lo := m / 2 ^ d
    if m % 2 ^ d ≠ 0 ∧ roundsUp mode rnd neg lo (m % 2 ^ d) d then lo + 1 else lo

/-- The code of a sign and a magnitude's code. -/
def signed (t : Elem) (neg : Bool) (c : Nat) : Nat := if neg then signBit t + c else c

/-- The code for an infinite value (R89). -/
def infCode (t : Elem) (sat neg : Bool) : Nat :=
  match t with
  | .e4m3 => if sat then signed t neg (maxCode t) else nanCode t
  | .e5m2 => signed t neg (if sat then maxCode t else maxCode t + 1)
  | _ => signed t neg (maxCode t + 1)

/-- The code for an overflow (R89). -/
def overflowCode (t : Elem) (mode : RMode) (sat neg : Bool) : Nat :=
  let big := match mode with
    | .rne | .srk => true
    | .rtz => false
    | .rdn => neg
    | .rup => !neg
  if big then infCode t sat neg else signed t neg (maxCode t)

/-- A value in a float format, rounded once (R85, R86, R89). -/
def toFloat (t : Elem) (mode : RMode) (rnd : Nat) (sat : Bool) (x : Num) : Nat :=
  match x with
  | .nan => nanCode t
  | .inf neg => infCode t sat neg
  | .fin neg m e =>
    if m = 0 then signed t neg 0
    else
      let least : Int := 1 - (biasOf t : Int) - mantBits t
      let q : Int := max (e + Nat.log2 m - mantBits t) least
      let c := (q - least).toNat * 2 ^ mantBits t + roundMag mode rnd neg m e q
      if maxCode t < c then overflowCode t mode sat neg else signed t neg c

/-- A value in an integer format of w bits, rounded once and saturated (R90). -/
def toInt (w : Nat) (mode : RMode) (rnd : Nat) (x : Num) : Int :=
  let top : Int := (2 ^ (w - 1) : Nat) - 1
  let bot : Int := -(2 ^ (w - 1) : Nat)
  match x with
  | .nan => 0
  | .inf neg => if neg then bot else top
  | .fin neg m e =>
    let v : Int := roundMag mode rnd neg m e 0
    max bot (min top (if neg then -v else v))

/-- A value in an element format, by the k-th rounding of an instruction. -/
def Rounding.code (r : Rounding) (k : Nat) (t : Elem) (x : Num) : Nat :=
  let rnd := if r.mode = .srk then r.bits k else 0
  if elemFloat t then toFloat t r.mode rnd r.sat x else bitsOf (elemBits t) (toInt (elemBits t) r.mode rnd x)

/-- Rounding to a float format and reading the result. -/
def Rounding.val (r : Rounding) (k : Nat) (t : Elem) (x : Num) : Num := floatVal t (r.code k t x)

/-! ## Exact operations -/

def Num.neg : Num → Num
  | .nan => .nan
  | .inf s => .inf (!s)
  | .fin s m e => .fin (!s) m e

def Num.isZero : Num → Bool
  | .fin _ m _ => m == 0
  | _ => false

/-- The signed multiple of 2^e that a finite value is, for an e not above its own. -/
def scaled (neg : Bool) (m : Nat) (d : Nat) : Int := if neg then -((m * 2 ^ d : Nat) : Int) else (m * 2 ^ d : Nat)

/-- The exact sum, with the sign of a zero sum as R86 fixes it. -/
def Num.add (rdn : Bool) (x y : Num) : Num :=
  match x, y with
  | .nan, _ | _, .nan => .nan
  | .inf a, .inf b => if a = b then .inf a else .nan
  | .inf a, _ => .inf a
  | _, .inf b => .inf b
  | .fin a m e, .fin b n f =>
    if m = 0 ∧ n = 0 ∧ a = b then .fin a 0 0
    else
      let g := min e f
      let v := scaled a m (e - g).toNat + scaled b n (f - g).toNat
      if v = 0 then .fin rdn 0 0 else .fin (decide (v < 0)) v.natAbs g

/-- The exact product; ∞ × 0 is NaN. -/
def Num.mul (x y : Num) : Num :=
  match x, y with
  | .nan, _ | _, .nan => .nan
  | .inf a, .inf b => .inf (a != b)
  | .inf a, .fin b n _ => if n = 0 then .nan else .inf (a != b)
  | .fin a m _, .inf b => if m = 0 then .nan else .inf (a != b)
  | .fin a m e, .fin b n f => .fin (a != b) (m * n) (e + f)

/-- The order of two values that are not NaN; −0 equals +0 (R249). -/
def Num.cmp (x y : Num) : Ordering :=
  match x, y with
  | .inf a, .inf b => if a = b then .eq else if a then .lt else .gt
  | .inf a, _ => if a then .lt else .gt
  | _, .inf b => if b then .gt else .lt
  | .fin a m e, .fin b n f => compare (scaled a m (e - min e f).toNat) (scaled b n (f - min e f).toNat)
  | _, _ => .eq

/-- The smaller value (R246): −0 for +0 and −0. -/
def Num.min (x y : Num) : Num :=
  match x, y with
  | .nan, _ | _, .nan => .nan
  | x, y => match x.cmp y with
    | .lt => x
    | .gt => y
    | .eq => match x with
      | .fin true _ _ => x
      | _ => y

/-- The larger value (R246): +0 for +0 and −0. -/
def Num.max (x y : Num) : Num :=
  match x, y with
  | .nan, _ | _, .nan => .nan
  | x, y => match x.cmp y with
    | .gt => x
    | .lt => y
    | .eq => match x with
      | .fin true _ _ => y
      | _ => x

/-! ## Functions whose exact value is not dyadic (R254)

Each is computed below its exact value with bits beyond every rounding's, and a last bit 1 that stands for the rest: every mode
then rounds as it rounds the exact value (log entry 15). -/

/-- The bits of a root from bit k down. -/
def isqrtFrom (n : Nat) : Nat → Nat → Nat
  | 0, r => if (r + 1) * (r + 1) ≤ n then r + 1 else r
  | k + 1, r => isqrtFrom n k (if (r + 2 ^ (k + 1)) * (r + 2 ^ (k + 1)) ≤ n then r + 2 ^ (k + 1) else r)

/-- ⌊√n⌋. -/
def isqrt (n : Nat) : Nat := isqrtFrom n (Nat.log2 n / 2 + 1) 0

/-- The precision of the fractions below. -/
def prec : Nat := 400

/-- n or its next half, by whether n is exact. -/
def sticky (n : Nat) (exact : Bool) : Nat := 2 * n + (if exact then 0 else 1)

/-- 1 ÷ a. -/
def Num.rcp : Num → Num
  | .nan => .nan
  | .inf s => .fin s 0 0
  | .fin s m e =>
    if m = 0 then .inf s
    else .fin s (sticky (2 ^ prec / m) (decide (2 ^ prec % m = 0))) (-e - prec - 1)

/-- 1 ÷ √a: −∞ and a below 0 give NaN, −0 gives −∞. -/
def Num.rsq : Num → Num
  | .nan => .nan
  | .inf s => if s then .nan else .fin false 0 0
  | .fin s m e =>
    if m = 0 then .inf s
    else if s then .nan
    else
      let (m, e) := if e % 2 = 0 then (m, e) else (2 * m, e - 1)
      let r := isqrt (2 ^ (2 * prec) / m)
      .fin false (sticky r (decide (r * r * m = 2 ^ (2 * prec)))) (-(e / 2) - prec - 1)

/-- 2^f for the fraction f whose bits, highest first, are given; `r` is 2^(2^−i) for the present bit, `acc` the product so
far. -/
def exp2Frac : Nat → Nat → Nat → Nat → Nat
  | 0, _, _, acc => acc
  | k + 1, f, r, acc =>
    let r := isqrt (r * 2 ^ prec)
    exp2Frac k f r (if f.testBit k then acc * r / 2 ^ prec else acc)

/-- 2^a; a power beyond 2^±4096 is as far out as any. -/
def Num.exp2 : Num → Num
  | .nan => .nan
  | .inf s => if s then .fin false 0 0 else .inf false
  | .fin s m e =>
    if m = 0 then .fin false 1 0
    else if 12 < e + Nat.log2 m then (if s then .fin false 3 (-4098) else .fin false 3 4096)
    else
      let d := (-e).toNat
      let v := scaled s m e.toNat
      let n := v / (2 ^ d : Nat)
      let f := (v % (2 ^ d : Nat)).toNat
      if f = 0 then .fin false 1 n
      else .fin false (sticky (exp2Frac d f (2 * 2 ^ prec) (2 ^ prec)) false) (n - prec - 1)

/-- The next bits of log₂ x for x in [1, 2), scaled by 2^prec. -/
def log2Frac : Nat → Nat → Nat → Nat
  | 0, _, acc => acc
  | k + 1, x, acc =>
    let y := x * x / 2 ^ (2 * prec)
    if 2 * 2 ^ (2 * prec) ≤ y then log2Frac k (y / 2) (2 * acc + 1) else log2Frac k y (2 * acc)

/-- log₂ a; of 1 it is +0, of a below 0 NaN. -/
def Num.log2 : Num → Num
  | .nan => .nan
  | .inf s => if s then .nan else .inf false
  | .fin s m e =>
    if m = 0 then .inf true
    else if s then .nan
    else
      let l := Nat.log2 m
      let n : Int := e + l
      if m = 2 ^ l then intVal n
      else
        let f := log2Frac 200 (m * 2 ^ (2 * prec) / 2 ^ l) 0
        let v : Int := 2 * (n * (2 ^ 200 : Nat) + f) + 1
        .fin (decide (v < 0)) v.natAbs (-201)

/-! ## Elements of a 512-bit register (R240) -/

/-- Lanes of a format. -/
def lanes (t : Elem) : Nat := 512 / elemBits t

/-- Lane i of a register as w bits. -/
def lane (w : Nat) (v : Vec) (i : Nat) : Nat := v.toNat / 2 ^ (w * i) % 2 ^ w

/-- A register whose lanes below n are given, of w bits, the bits above unchanged. -/
def withLanes (w n : Nat) (old : Vec) (f : Nat → Nat) : Vec :=
  .ofNat 512 (old.toNat / 2 ^ (w * n) * 2 ^ (w * n)
    + (List.range n).foldr (fun i a => f i % 2 ^ w + 2 ^ w * a) 0 % 2 ^ (w * n))

end Sys2Proof.Machine
end

