-- ==== Sys2Proof/Machine/Unit.lean ====
section
/-! DEFINITION. What the units that work on their own share (R182, R275, R296): lines read and written for a thread that issued
the work, and choices among pieces whose order the spec leaves open. -/

namespace Sys2Proof.Machine

/-- The device's own form of a 48-bit local address (log entry 16). -/
def ownAddr (a : BitVec 48) : Word := (0x1FFF#16 ++ a)

/-- A choice among n, in an order the spec leaves open (log entry 4). -/
def State.pick (s : State) (n : Nat) : Nat × State :=
  match s.choices with
  | [] => (0, s)
  | c :: r => (c % n, { s with choices := r })

/-- The addresses of the lines that hold n bytes from an address. -/
def linesOf (va : Word) (n : Nat) : List Word :=
  if n = 0 then []
  else (List.range ((va.toNat % 64 + n + 63) / 64)).map fun k => vline va + .ofNat 64 (64 * k)

/-- A line a unit asks for (R275): there, on another device, or at an instant not yet reached. -/
inductive Line
  | got (v : Vec)
  | away (d : Nat) (i : Option Instant)
  | held (i : Instant)
  deriving DecidableEq, Repr

/-- The right a read takes from its segment: version_at in an I segment, mem_read in an N segment. -/
def readNeed (x : Slot) (va : Word) : Need :=
  match x.dataSeg va with
  | some g => if g.i then { r := true, i := true } else { r := true, n := true }
  | none => { r := true, n := true }

/-- The right a write takes from its segment. -/
def writeNeed (x : Slot) (va : Word) : Need :=
  match x.dataSeg va with
  | some g => if g.i then { w := true, i := true } else { w := true, n := true }
  | none => { w := true, n := true }

/-- The read of one whole line with a thread's segments, made by a unit of a core. -/
def State.unitRead (s : State) (x : Slot) (core : Nat) (va : Word) (inst : Instant) (kind : Nat := 6) :
    Except Stop Line :=
  let q := readNeed x va
  match checkSeg x va 64 q with
  | .error e => .error e
  | .ok () =>
    match s.locate core x.part va 64 kind with
    | .error e => .error e
    | .ok (.reg _) => .error (.of .segBound va)
    | .ok (.away d) => .ok (.away d (if q.i then some inst else none))
    | .ok (.here pl) =>
      if q.i then
        if pl.so then .error (.of .segRights va)
        else if (s.partAt x.part).now.toNat < inst.toNat then .ok (.held inst)
        else (s.versionAt x.part va pl 64 inst).map fun v => .got (.ofNat 512 v)
      else (s.readAt va pl 64).map fun v => .got (.ofNat 512 v)

/-- A write by a unit of a core through its cluster's router (R170), with check 8. -/
def State.unitNow (s : State) (p : Fin 8) (core : Nat) (va : Word) (pl : Place) (n x : Nat) : Except Stop State :=
  if pl.home / 16 = core / 16 then s.writeAt p va pl n x none none
  else (s.passOut (core / 16) (pl.phys / 64)).writeAt p va pl n x none (some (core / 16))

/-- What becomes of a unit's write of the first n bytes of a line: done at its home, or on its way. -/
inductive Wrote
  | done (s : State)
  | sent (s : State)

/-- The write of part of one line with a thread's segments, made by a unit: a Now-domain write, or an Instant-domain
store with the given V and ordinal, whose end is told to the stamp. -/
def State.unitWrite (s : State) (x : Slot) (core : Nat) (va : Word) (n : Nat) (v : Vec) (inst ord : Instant) (slip : Bool)
    (stamp : Nat) : Except Stop Wrote :=
  let q := writeNeed x va
  let st : Store := {
    va := va, pl := ⟨0, 0, false⟩, n := n, x := v, mask := .allOnes 64, v := inst, ord := ord, slip := slip }
  match checkSeg x va 64 q with
  | .error e => .error e
  | .ok () =>
    match s.locate core x.part va 64 6 with
    | .error e => .error e
    | .ok (.reg _) => .error (.of .segBound va)
    | .ok (.away d) =>
      .ok (.sent (s.export d ⟨x.part, if q.i then .store (.cmd stamp) st
        else .unitRequest stamp (.write va ⟨0, 0, false⟩ n v)⟩))
    | .ok (.here pl) =>
      if q.i then
        if pl.so then .error (.of .segRights va)
        else .ok (.sent (s.send x.part (.store (.cmd stamp) { st with pl := pl })))
      else (s.unitNow x.part core va pl n v.toNat).map .done

/-- Checks 2 and 3 of R73 on n bytes of one line that a command reads or writes (R294). -/
def partSeg (x : Slot) (va : Word) (n : Nat) (q : Need) : Except Stop Unit :=
  match x.dataSeg va with
  | none => .error (.of .segBound va)
  | some g =>
    if g.base.toNat + g.limit.toNat < va.toNat + n then .error (.of .segBound va)
    else if q.met g then .ok () else .error (.of .segRights va)

/-! ## On-package channels (R418, R423) -/

/-- Byte (a, n) of the connection table (R423): at reset channel n below 252 of die a joins die a XOR (1 + n div 36). -/
def State.connByte (s : State) (a n : Nat) : Byte :=
  let b := a ^^^ (1 + n / 36)
  Table.get (if n < 252 ∧ s.dieOn a = true ∧ s.dieOn b = true then .ofNat 8 (128 + b) else 0) s.dev.conn (256 * a + n)

/-- A connection byte is valid and names this die (R423): bit [7] and bits [2:0]. -/
def connTo (x : Byte) (d : Nat) : Bool := x.getLsbD 7 && x.toNat % 8 == d

/-- Channel n joins two dies, and has not failed. -/
def State.joins (s : State) (a b n : Nat) : Bool :=
  connTo (s.connByte a n) b && connTo (s.connByte b n) a
    && !s.dev.deadChans.contains (a, n) && !s.dev.deadChans.contains (b, n)

/-- Traffic can pass between two dies. -/
def State.pathOk (s : State) (a b : Nat) : Bool := a == b || (List.range 256).any (s.joins a b)

/-- A transfer that cannot be delivered is held with a fabric fault record (R418); at most 64 records are posted at a time. -/
def State.postFabric (s : State) (f : FabFault) : State :=
  let t := { s with dev := { s.dev with fabric := s.dev.fabric ++ [f] } }
  if s.dev.fabric.length < 64 then t.signal 5 else t

/-- A unit waits for a page (R142): its stamp is among the waiters of an entry at its cluster's port. -/
def State.unitBlocked (s : State) (cluster stamp : Nat) : Bool :=
  (s.portAt cluster).faults.any fun e => !e.ended && e.waiters.contains (.unit stamp)

/-- A unit's page fault is queued (R142); a port that refuses it is asked again. -/
def State.unitFault (s : State) (cluster : Nat) (p : Fin 8) (va : Word) (kind stamp : Nat) : State :=
  (s.addFault cluster p va kind (.unit stamp)).getD s

/-- The value at an instant field (R72); a sum outside 0 to 2^48 − 1 wraps (log entry 96). -/
def instField (f : InstField) (dflt rel now : Instant) : Instant :=
  match f with
  | .dflt => dflt
  | .rel n => rel + n.signExtend 48
  | .now n => now + n.signExtend 48

/-- Bytes found in lines that have been read: n bytes from an address, little-endian. -/
def bytesIn (lines : List (Word × Vec)) (va : Word) (n : Nat) : Nat :=
  (List.range n).foldr (fun k acc =>
    let a := va + .ofNat 64 k
    let v := ((lines.find? fun l => l.1 == vline a).map (·.2)).getD 0
    v.toNat / 2 ^ (8 * (a.toNat % 64)) % 256 + 256 * acc) 0

end Sys2Proof.Machine
end

