-- ==== Sys2Proof/Machine/Flags.lean ====
section
/-! DEFINITION. The conditions: Kerermeth has no flags (R103); CMP and CMPI set a predicate from one of these (R113), and
VCMP lanes from `VCond` (R249). -/

namespace Sys2Proof.Machine

/-- A condition of CMP and CMPI on 64-bit operands (R113). -/
def condHolds (c : Cond) (a b : Word) : Bool :=
  match c with
  | .eq => a == b
  | .ne => a != b
  | .lt => a.slt b
  | .le => a.sle b
  | .gt => b.slt a
  | .ge => b.sle a
  | .ltu => a.ult b
  | .leu => a.ule b
  | .gtu => b.ult a
  | .geu => b.ule a

/-- A condition of VCMP on two values that are ordered (R249). -/
def vcondHolds (c : VCond) (o : Ordering) : Bool :=
  match c with
  | .eq => o == .eq
  | .ne => o != .eq
  | .lt => o == .lt
  | .le => o != .gt
  | .gt => o == .gt
  | .ge => o != .lt

end Sys2Proof.Machine
end

