-- ==== Sys2Proof/Machine/Vector.lean ====
section
/-! DEFINITION. Vector instructions (11_vector, R240 to R260). Each becomes one over the lanes of its format; a roaming thread
is anchored first (R14). -/

namespace Sys2Proof.Machine

/-- A roaming thread is anchored at the instruction, as if ANCHOR had preceded it (R14): a raise leaves it anchored. -/
def anchored (k : State → Out) (s : State) : Out :=
  let t := s.setCtx (s.ctx.setAnch true)
  match k t with
  | .stop e => .stay (settle t (.stop e))
  | o => o

/-- n(t): the active lanes of a format (R241). -/
def Slot.active (x : Slot) (t : Elem) : Nat := 4 * x.vl.toNat / elemBits t

/-- The rounding of a register result (R88, R244), at a lane. -/
def State.rounding (s : State) (r : Rnd) (lane : Nat) : Rounding :=
  let c := s.ctx
  let site : BitVec 48 := (c.taskIdx.setWidth 48 <<< 16) ^^^ (((c.pc.extractLsb' 2 22).setWidth 48) <<< 7) ^^^ .ofNat 48 lane
  { mode := rndMode r s.part.regs.rmode, sat := s.part.regs.fmt.getLsbD 0, key := s.part.regs.srkey, site := site
    inst := c.rel }

/-- vd with its first n lanes of w bits given. -/
def State.putLanes (s : State) (d : Reg) (w n : Nat) (f : Nat → Nat) : State :=
  let x := s.slot
  s.setSlot { x with v := x.v.set d (withLanes w n x.v[d] f) }

/-- The effect of a lane-by-lane instruction on the active lanes of vd (R242). -/
def onLanes (d : Reg) (t : Elem) (f : State → Nat → Nat) : State → Out :=
  anchored fun s => .seq (s.putLanes d (elemBits t) (s.slot.active t) (f s))

/-- Lane i of a vector register in a format. -/
def State.vlane (s : State) (r : Reg) (t : Elem) (i : Nat) : Nat := lane (elemBits t) s.slot.v[r] i

/-- A two-source operation: its float form on exact values, rounded once, and its integer form on codes. -/
def arith (d a b : Reg) (t : Elem) (r : Rnd) (f : Bool → Num → Num → Num → Num) (g : Nat → Nat → Nat → Nat) :
    State → Out :=
  onLanes d t fun s i =>
    let x := s.vlane a t i
    let y := s.vlane b t i
    let z := s.vlane d t i
    let rd := s.rounding r i
    if elemFloat t then rd.code 0 t (f (rd.mode == .rdn) (floatVal t x) (floatVal t y) (floatVal t z)) else g x y z

/-- VADD (R246). -/
def execVadd (g : Guard) (d a b : Reg) (t : Elem) (r : Rnd) (s : State) : Host.Outcome State Fault Refusal :=
  issue (.vadd g d a b t r) g 0 false (arith d a b t r (fun q x y _ => x.add q y) (fun x y _ => x + y)) s

/-- VSUB (R246). -/
def execVsub (g : Guard) (d a b : Reg) (t : Elem) (r : Rnd) (s : State) : Host.Outcome State Fault Refusal :=
  issue (.vsub g d a b t r) g 0 false
    (arith d a b t r (fun q x y _ => x.add q y.neg) (fun x y _ => x + 2 ^ elemBits t - y)) s

/-- VMUL (R246). -/
def execVmul (g : Guard) (d a b : Reg) (t : Elem) (r : Rnd) (s : State) : Host.Outcome State Fault Refusal :=
  issue (.vmul g d a b t r) g 0 false (arith d a b t r (fun _ x y _ => x.mul y) (fun x y _ => x * y)) s

/-- VFMA (R246): one rounding. -/
def execVfma (g : Guard) (d a b : Reg) (t : Elem) (r : Rnd) (s : State) : Host.Outcome State Fault Refusal :=
  issue (.vfma g d a b t r) g 0 false
    (arith d a b t r (fun q x y z => (x.mul y).add q z) (fun x y z => z + x * y)) s

/-- VMIN (R246): its result is exact. -/
def execVmin (g : Guard) (d a b : Reg) (t : Elem) (r : Rnd) (s : State) : Host.Outcome State Fault Refusal :=
  issue (.vmin g d a b t r) g 0 false
    (arith d a b t .rne (fun _ x y _ => x.min y)
      (fun x y _ => if sint (elemBits t) x ≤ sint (elemBits t) y then x else y)) s

/-- VMAX (R246): its result is exact. -/
def execVmax (g : Guard) (d a b : Reg) (t : Elem) (r : Rnd) (s : State) : Host.Outcome State Fault Refusal :=
  issue (.vmax g d a b t r) g 0 false
    (arith d a b t .rne (fun _ x y _ => x.max y)
      (fun x y _ => if sint (elemBits t) x ≤ sint (elemBits t) y then y else x)) s

/-- |x| and −x on a code (R247). -/
def absCode (t : Elem) (x : Nat) : Nat :=
  if elemFloat t then (if floatVal t x = .nan then nanCode t else x % signBit t)
  else if sint (elemBits t) x < 0 then 2 ^ elemBits t - x else x

def negCode (t : Elem) (x : Nat) : Nat :=
  if elemFloat t then (if floatVal t x = .nan then nanCode t else x + signBit t) else 2 ^ elemBits t - x

/-- VABS (R247). -/
def execVabs (g : Guard) (d a : Reg) (t : Elem) (s : State) : Host.Outcome State Fault Refusal :=
  issue (.vabs g d a t) g 0 false (onLanes d t fun s i => absCode t (s.vlane a t i)) s

/-- VNEG (R247). -/
def execVneg (g : Guard) (d a : Reg) (t : Elem) (s : State) : Host.Outcome State Fault Refusal :=
  issue (.vneg g d a t) g 0 false (onLanes d t fun s i => negCode t (s.vlane a t i)) s

/-- VAND (R248). -/
def execVand (g : Guard) (d a b : Reg) (t : Elem) (s : State) : Host.Outcome State Fault Refusal :=
  issue (.vand g d a b t) g 0 false (onLanes d t fun s i => s.vlane a t i &&& s.vlane b t i) s

/-- VOR (R248). -/
def execVor (g : Guard) (d a b : Reg) (t : Elem) (s : State) : Host.Outcome State Fault Refusal :=
  issue (.vor g d a b t) g 0 false (onLanes d t fun s i => s.vlane a t i ||| s.vlane b t i) s

/-- VXOR (R248). -/
def execVxor (g : Guard) (d a b : Reg) (t : Elem) (s : State) : Host.Outcome State Fault Refusal :=
  issue (.vxor g d a b t) g 0 false (onLanes d t fun s i => s.vlane a t i ^^^ s.vlane b t i) s

/-- VSHL (R248). -/
def execVshl (g : Guard) (d a b : Reg) (t : Elem) (s : State) : Host.Outcome State Fault Refusal :=
  issue (.vshl g d a b t) g 0 false
    (onLanes d t fun s i => s.vlane a t i * 2 ^ (s.vlane b t i % elemBits t)) s

/-- VSHR (R248). -/
def execVshr (g : Guard) (d a b : Reg) (t : Elem) (s : State) : Host.Outcome State Fault Refusal :=
  issue (.vshr g d a b t) g 0 false
    (onLanes d t fun s i => s.vlane a t i / 2 ^ (s.vlane b t i % elemBits t)) s

/-- VSRA (R248). -/
def execVsra (g : Guard) (d a b : Reg) (t : Elem) (s : State) : Host.Outcome State Fault Refusal :=
  issue (.vsra g d a b t) g 0 false
    (onLanes d t fun s i =>
      bitsOf (elemBits t) (sint (elemBits t) (s.vlane a t i) / (2 ^ (s.vlane b t i % elemBits t) : Nat))) s

/-- VCMP on two codes (R249). -/
def vcmpHolds (t : Elem) (c : VCond) (x y : Nat) : Bool :=
  if elemFloat t then
    let a := floatVal t x
    let b := floatVal t y
    if a = .nan ∨ b = .nan then c == .ne else vcondHolds c (a.cmp b)
  else vcondHolds c (compare (sint (elemBits t) x) (sint (elemBits t) y))

/-- VCMP (R249). -/
def execVcmp (g : Guard) (d a b : Reg) (t : Elem) (c : VCond) (s : State) : Host.Outcome State Fault Refusal :=
  issue (.vcmp g d a b t c) g 0 false
    (onLanes d t fun s i =>
      if vcmpHolds t c (s.vlane a t i) (s.vlane b t i) then 2 ^ elemBits t - 1 else 0) s

/-- VSEL (R249): vd is read as the mask before it is written. -/
def execVsel (g : Guard) (d a b : Reg) (t : Elem) (s : State) : Host.Outcome State Fault Refusal :=
  issue (.vsel g d a b t) g 0 false
    (onLanes d t fun s i => if signBit t ≤ s.vlane d t i then s.vlane a t i else s.vlane b t i) s

/-- VCVT (R250, R90): t is the destination format, u the source format. -/
def execVcvt (g : Guard) (d a : Reg) (u t : Elem) (r : Rnd) (s : State) : Host.Outcome State Fault Refusal :=
  issue (.vcvt g d a u t r) g 0 false (anchored fun s =>
    .seq (s.putLanes d (elemBits t) (min (s.slot.active t) (lanes u)) fun i =>
      let x := s.vlane a u i
      if t = u ∧ (floatVal t x ≠ .nan ∨ elemFloat t = false) then x
      else (s.rounding r i).code 0 t (elemVal u x))) s

/-- VSCL (R251). -/
def execVscl (g : Guard) (d a b : Reg) (t : Elem) (r : Rnd) (s : State) : Host.Outcome State Fault Refusal :=
  issue (.vscl g d a b t r) g 0 false
    (onLanes d t fun s i =>
      (s.rounding r i).code 0 t ((floatVal t (s.vlane a t i)).mul (floatVal .f32 ((s.g b).toNat % 2 ^ 32)))) s

/-! ## Reductions (R97, R253) -/

/-- tree(lo, lo + 2^j) (R97): a lane at or above `n` is absent. `f` combines two present operands at a node of 2^(j + 1)
lanes that starts at `lo`. -/
def tree (n : Nat) (v : Nat → Nat) (f : (lo j : Nat) → Nat → Nat → Nat) : Nat → Nat → Option Nat
  | 0, lo => if lo < n then some (v lo) else none
  | j + 1, lo =>
    match tree n v f j lo, tree n v f j (lo + 2 ^ j) with
    | some x, some y => some (f lo j x y)
    | some x, none => some x
    | none, y => y

/-- VREDS and VREDM: the result of a whole tree in lane 0. -/
def reduce (d a : Reg) (t : Elem) (none_ : Nat) (f : State → (lo j : Nat) → Nat → Nat → Nat) : State → Out :=
  anchored fun s =>
    let r := (tree (s.slot.active t) (s.vlane a t) (f s) (Nat.log2 (lanes t)) 0).getD none_
    .seq (s.putLanes d (elemBits t) 1 fun _ => r)

/-- VREDS (R253): the j-th node above a lane takes rounding number j (R244). -/
def execVreds (g : Guard) (d a : Reg) (t : Elem) (r : Rnd) (s : State) : Host.Outcome State Fault Refusal :=
  issue (.vreds g d a t r) g 0 false
    (reduce d a t 0 fun s lo j x y =>
      let rd := s.rounding r lo
      if elemFloat t then rd.code j t ((floatVal t x).add (rd.mode == .rdn) (floatVal t y))
      else (x + y) % 2 ^ elemBits t) s

/-- VREDM (R253). -/
def execVredm (g : Guard) (d a : Reg) (t : Elem) (s : State) : Host.Outcome State Fault Refusal :=
  issue (.vredm g d a t) g 0 false
    (reduce d a t (if elemFloat t then nanCode t else signBit t) fun _ _ _ x y =>
      if elemFloat t then toFloat t .rne 0 false ((floatVal t x).max (floatVal t y))
      else if sint (elemBits t) x ≤ sint (elemBits t) y then y else x) s

/-- A function of one float lane, rounded once (R254). -/
def unary (d a : Reg) (t : Elem) (r : Rnd) (f : Num → Num) : State → Out :=
  onLanes d t fun s i => (s.rounding r i).code 0 t (f (floatVal t (s.vlane a t i)))

/-- VEXP2 (R254). -/
def execVexp2 (g : Guard) (d a : Reg) (t : Elem) (r : Rnd) (s : State) : Host.Outcome State Fault Refusal :=
  issue (.vexp2 g d a t r) g 0 false (unary d a t r Num.exp2) s

/-- VLOG2 (R254). -/
def execVlog2 (g : Guard) (d a : Reg) (t : Elem) (r : Rnd) (s : State) : Host.Outcome State Fault Refusal :=
  issue (.vlog2 g d a t r) g 0 false (unary d a t r Num.log2) s

/-- VRCP (R254). -/
def execVrcp (g : Guard) (d a : Reg) (t : Elem) (r : Rnd) (s : State) : Host.Outcome State Fault Refusal :=
  issue (.vrcp g d a t r) g 0 false (unary d a t r Num.rcp) s

/-- VRSQ (R254). -/
def execVrsq (g : Guard) (d a : Reg) (t : Elem) (r : Rnd) (s : State) : Host.Outcome State Fault Refusal :=
  issue (.vrsq g d a t r) g 0 false (unary d a t r Num.rsq) s

/-- The sum of k signed products of lanes from lane j of two registers. -/
def dotInt (t : Elem) (x y : Vec) (j : Nat) : Nat → Int
  | 0 => 0
  | k + 1 =>
    let w := elemBits t
    dotInt t x y j k + sint w (lane w x (j + k)) * sint w (lane w y (j + k))

/-- VDOT (R252). -/
def execVdot (g : Guard) (d a b : Reg) (t : Elem) (r : Rnd) (s : State) : Host.Outcome State Fault Refusal :=
  issue (.vdot g d a b t r) g 0 false (anchored fun s =>
    .seq (s.putLanes d 32 (s.slot.active .f32) fun i =>
      let acc := s.vlane d .f32 i
      if t = .bf16 then
        let rd := s.rounding r i
        let q := rd.mode == .rdn
        let pr := fun (k : Nat) =>
          rd.val k .f32 ((floatVal t (s.vlane a t (2 * i + k))).mul (floatVal t (s.vlane b t (2 * i + k))))
        let p := rd.val 2 .f32 ((pr 0).add q (pr 1))
        rd.code 3 .f32 ((floatVal .f32 acc).add q p)
      else
        let k := 32 / elemBits t
        bitsOf 32 (sint 32 acc + dotInt t s.slot.v[a] s.slot.v[b] (k * i) k))) s

/-! ## Lanes (R255, R256) -/

/-- VBC (R255). -/
def execVbc (g : Guard) (d a : Reg) (t : Elem) (s : State) : Host.Outcome State Fault Refusal :=
  issue (.vbc g d a t) g 0 false (onLanes d t fun s _ => (s.g a).toNat) s

/-- VEXT (R255). -/
def execVext (g : Guard) (d a b : Reg) (t : Elem) (s : State) : Host.Outcome State Fault Refusal :=
  issue (.vext g d a b t) g 0 false (anchored fun s =>
    let k := (s.g b).toNat
    let x := s.vlane a t k
    .setG d (if lanes t ≤ k then 0 else if elemFloat t then .ofNat 64 x else .ofInt 64 (sint (elemBits t) x)) s) s

/-- VINS (R255). -/
def execVins (g : Guard) (d a b : Reg) (t : Elem) (s : State) : Host.Outcome State Fault Refusal :=
  issue (.vins g d a b t) g 0 false (anchored fun s =>
    let k := (s.g b).toNat
    if lanes t ≤ k then .seq s
    else .seq (s.putLanes d (elemBits t) (lanes t) fun i => if i = k then (s.g a).toNat else s.vlane d t i)) s

/-- VPERM (R255). -/
def execVperm (g : Guard) (d a b : Reg) (t : Elem) (s : State) : Host.Outcome State Fault Refusal :=
  issue (.vperm g d a b t) g 0 false
    (onLanes d t fun s i =>
      let k := s.vlane b t i
      if k < lanes t then s.vlane a t k else 0) s

/-- VLEN (R256). -/
def execVlen (g : Guard) (d a : Reg) (t : Elem) (s : State) : Host.Outcome State Fault Refusal :=
  issue (.vlen g d a t) g 0 false (anchored fun s =>
    let n := min (s.g a).toNat (lanes t)
    let n := if t = .i4 then n - n % 2 else n
    .setG d (.ofNat 64 n) (s.setSlot { s.slot with vl := .ofNat 8 (n * elemBits t / 4) })) s

/-- VMOV (R256). -/
def execVmov (g : Guard) (d a : Reg) (t : Elem) (s : State) : Host.Outcome State Fault Refusal :=
  issue (.vmov g d a t) g 0 false (onLanes d t fun s i => s.vlane a t i) s

/-- VIOTA (R256). -/
def execViota (g : Guard) (d : Reg) (t : Elem) (s : State) : Host.Outcome State Fault Refusal :=
  issue (.viota g d t) g 0 false (onLanes d t fun _ i => i) s

/-! ## Memory (R257, R258) -/

/-- VLD (R257). -/
def execVld (g : Guard) (d a : Reg) (t : Elem) (s : State) : Host.Outcome State Fault Refusal :=
  issue (.vld g d a t) g 0 false (anchored fun s =>
    let va := s.g a
    let n := s.slot.active t * elemBits t / 8
    if n = 0 then .seq s
    else if va.toNat % 64 ≠ 0 then .stop (.of .align va)
    else match s.slot.dataSeg va with
      | none => .stop (.of .segBound va)
      | some q =>
        if q.i then
          .bind (s.access va n { r := true, i := true }) fun tg =>
            readInstant (.vld g d a t) va n tg s.ctx.rel (.vld d n) s
        else
          .bind (s.access va n { r := true, n := true }) fun tg => readNow (.vld g d a t) va n tg (.vld d n) s) s

/-- VST (R257). -/
def execVst (g : Guard) (d a : Reg) (t : Elem) (s : State) : Host.Outcome State Fault Refusal :=
  issue (.vst g d a t) g 0 false (anchored fun s =>
    let va := s.g a
    let n := s.slot.active t * elemBits t / 8
    let x : Vec := .ofNat 512 (s.slot.v[d].toNat % 2 ^ (8 * n))
    if n = 0 then .seq s
    else if va.toNat % 64 ≠ 0 then .stop (.of .align va)
    else match s.slot.dataSeg va with
      | none => .stop (.of .segBound va)
      | some q =>
        if q.i then pendStore (.vst g d a t) va n x s.ctx.vis s
        else .bind (s.access va n { w := true, n := true }) fun tg => writeNow (.vst g d a t) va n x tg s) s

/-- The address of a lane (R258): the stride is signed. -/
def laneAddr (base stride : Word) (i : Nat) : Word := base + .ofNat 64 i * stride

/-- The checks of every lane from lane i on (R258): checks 1 to 5 of R73, and the arena for a store under an open choice
point. -/
def State.checkLanes (s : State) (base stride : Word) (z : Nat) (store : Bool) : Nat → Nat → Except Stop Unit
  | 0, _ => .ok ()
  | k + 1, i =>
    let va := laneAddr base stride i
    let q : Need := if store then { w := true, n := true }
      else match s.slot.dataSeg va with
        | some g => if g.i then { r := true, i := true } else { r := true, n := true }
        | none => { r := true }
    match checkSeg s.slot va z q with
    | .error e => .error e
    | .ok () =>
      match s.checkWin s.coreIdx s.slot.part va z with
      | .error e => .error e
      | .ok _ =>
        if store && s.slot.open_ && !s.slot.inArena va z then .error (.of .choiceEscape va)
        else s.checkLanes base stride z store k (i + 1)

/-- The word stays in progress while its lanes are made one by one. -/
def State.keepWord (s : State) (i : Instr) : State :=
  s.setSlot { s.slot with prog := { s.slot.prog with word := encodeWord i } }

/-- VLDX (R258): one lane an issue; vd is written when every lane has returned. -/
def execVldx (g : Guard) (d a b : Reg) (t : Elem) (s : State) : Host.Outcome State Fault Refusal :=
  issue (.vldx g d a b t) g 0 false (anchored fun s =>
    let n := s.slot.active t
    let z := elemBits t / 8
    let k := s.slot.prog.lanes
    let va := laneAddr (s.g a) (s.g b) k
    if n ≤ k then .seq (s.setSlot (s.slot.putBytes d (z * n) s.slot.prog.read))
    else .bind (if k = 0 then s.checkLanes (s.g a) (s.g b) z false n 0 else .ok ()) fun () =>
      let s := s.keepWord (.vldx g d a b t)
      match s.slot.dataSeg va with
      | none => .stop (.of .segBound va)
      | some q =>
        if q.i then
          .bind (s.access va z { r := true, i := true }) fun tg =>
            readInstant (.vldx g d a b t) va z tg s.ctx.rel (.lane z) s
        else
          .bind (s.access va z { r := true, n := true }) fun tg =>
            readNow (.vldx g d a b t) va z tg (.lane z) s) s

/-- VSTX (R258): one lane an issue, in ascending order; a fault on a lane leaves the lanes before it written. -/
def execVstx (g : Guard) (d a b : Reg) (t : Elem) (s : State) : Host.Outcome State Fault Refusal :=
  issue (.vstx g d a b t) g 0 false (anchored fun s =>
    let n := s.slot.active t
    let z := elemBits t / 8
    let k := s.slot.prog.lanes
    let va := laneAddr (s.g a) (s.g b) k
    if n ≤ k then .seq s
    else .bind (if k = 0 then s.checkLanes (s.g a) (s.g b) z true n 0 else .ok ()) fun () =>
      let s := s.keepWord (.vstx g d a b t)
      .bind (s.access va z { w := true, n := true }) fun tg =>
        writeNow (.vstx g d a b t) va z (.ofNat 512 (s.vlane d t k)) tg s (.lane z)) s

end Sys2Proof.Machine
end

