-- ==== Sys2Proof/Machine/Matrix.lean ====
section
/-! DEFINITION. The matrix array (12_matrix, R261 to R291): the scalar side, tile commands, and the Garnet ring. A tile
command takes one step for each line it reads or writes, and one for its effect. -/

namespace Sys2Proof.Machine

/-! ## Units -/

def State.arrayAt (s : State) (core : Nat) : MatArray := Table.get {} s.arrays core
def State.setArrayAt (s : State) (core : Nat) (a : MatArray) : State := { s with arrays := Table.set s.arrays core a }


/-! ## Shape handles (R269 to R272) -/

/-- ⌈E0 × w ÷ 8⌉ (R270). -/
def rowBytes (t : Elem) (n : Nat) : Nat := (n * elemBits t + 7) / 8

/-- A descriptor's four doublewords as a shape, or none where R271 refuses it. -/
def shapeOf (d0 d1 p1 p2 base : Word) : Option Shape :=
  let f := d0.toNat % 2 ^ 32
  let e0 := d0.toNat / 2 ^ 32
  let e1 := d1.toNat % 2 ^ 32
  let e2 := d1.toNat / 2 ^ 32
  if 2 ^ 20 ≤ e0 ∨ 2 ^ 20 ≤ e1 ∨ 2 ^ 20 ≤ e2 then none
  else match Elem.ofCode f with
    | none => none
    | some t =>
      if p1.toNat < rowBytes t (e0 + 1) ∨ p2.toNat < p1.toNat * (e1 + 1) then none
      else some ⟨t, e0 + 1, e1 + 1, e2 + 1, p1, p2, base⟩

/-- HNEW at a partition's handle table (R269, R271): the lowest free slot, or 0. -/
def State.newHandle (s : State) (p : Fin 8) (sh : Shape) : State × Word :=
  let x := s.partAt p
  match (List.range 4095).find? fun u => (Table.get {} x.handles u).shape.isNone with
  | none => (s, 0)
  | some u =>
    let h := Table.get {} x.handles u
    (s.setPartAt p { x with handles := Table.set x.handles u { h with shape := some sh } }, .ofNat 64 (2 ^ 20 * u + h.gen))

/-- HNEW (R271): the descriptor is read and checked, and the thread waits for the table's reply. -/
def execHnew (g : Guard) (d a b : Reg) (s : State) : Host.Outcome State Fault Refusal :=
  issue (.hnew g d a b) g 0 true (fun s =>
    let va := s.g a
    let i : Instr := .hnew g d a b
    let q : Need := { r := true, n := true }
    if s.slot.open_ then .stop (.of .choiceEscape va)
    else if va.toNat % 32 ≠ 0 then .stop (.of .align va)
    else withBlock i 0 va 8 q (fun w0 => withBlock i 1 (va + 8) 8 q fun w1 => withBlock i 2 (va + 16) 8 q fun w2 =>
      withBlock i 3 (va + 24) 8 q fun w3 s =>
        match shapeOf (dw w0 0) (dw w1 0) (dw w2 0) (dw w3 0) (s.g b) with
        | none => .stop (.of .tileShape va)
        | some sh => request i (.handle sh) (.load d .d false) s) s) s

/-- The shape a handle names (R269). -/
def Part.shape (x : Part) (h : Nat) : Option Shape :=
  let u := h / 2 ^ 20 % 2 ^ 12
  let e := Table.get {} x.handles u
  if u = 0xFFF ∨ e.gen ≠ h % 2 ^ 20 then none else e.shape

/-- HDEL (R272): bits [31:0] of g[a] are the handle. -/
def execHdel (g : Guard) (a : Reg) (s : State) : Host.Outcome State Fault Refusal :=
  issue (.hdel g a) g 0 true (fun s =>
    let h := (s.g a).toNat % 2 ^ 32
    let x := s.part
    if s.slot.open_ then .stop (.of .choiceEscape (s.g a))
    else if (x.shape h).isNone then .stop (.of .handleStale (s.g a))
    else
      let gen := h % 2 ^ 20
      let e : HandleSlot := { gen := if gen = 0xFFFFF then 1 else gen + 1, shape := none }
      .seq (s.setPartAt s.slot.part { x with handles := Table.set x.handles (h / 2 ^ 20) e })) s

/-- KSET (R273). -/
def execKset (g : Guard) (k : KReg) (a : Reg) (s : State) : Host.Outcome State Fault Refusal :=
  issue (.kset g k a) g 0 false (anchored fun s =>
    .seq (s.setSlot { s.slot with k := s.slot.k.set k ((s.g a).setWidth 32) })) s

/-- TSTAT (R285). -/
def execTstat (g : Guard) (d : Reg) (s : State) : Host.Outcome State Fault Refusal :=
  issue (.tstat g d) g 0 false (fun s => .setG d s.slot.tstatus s) s

/-! ## TRUN (R71, R281, R282) -/


/-- The word at place w of a list is an MREP whose body R281 refuses. -/
def mrepBad (before : List Instr) : Instr → Bool
  | .mrep _ len =>
    let n := len.toNat
    decide (before.length < n) || (before.drop (before.length - n)).any fun c => match c with
      | .mrep .. => true
      | _ => false
  | _ => false

def isMend : Instr → Bool
  | .mend => true
  | _ => false

/-- The list at `va`, read line by line from word w on and decoded (R71). Each read is of the whole 64-byte line that holds the
word, in an N segment that grants R (log entry 99). -/
def readList (i : Instr) (va : Word) (k : List Instr → State → Out) : Nat → Nat → List Instr → State → Out
  | 0, _, _, s => .stay (s.listFault 4096 Cause.illegalOp.code 4096)
  | f + 1, w, acc, s =>
    let a := va + .ofNat 64 (32 * w)
    let j := (va.toNat % 64 / 32 + w) / 2
    let check : Except Stop Unit :=
      if j < s.slot.prog.got.length then .ok ()
      else match s.access (vline a) 64 { r := true, n := true } 5 with
        | .ok (.here pl) => (s.readAt (vline a) pl 64).map fun _ => ()
        | .ok _ => .ok ()
        | .error e => .error e
    match check with
    | .error (.trap c v) => .stay (s.listFault w c v)
    | .error e => .stop e
    | .ok () =>
      withBlock i j (vline a) 64 { r := true, n := true } (fun v s =>
        match decodeTile (v.toNat / 2 ^ (256 * (a.toNat % 64 / 32)) % 2 ^ 256) with
        | none => .stay (s.listFault w Cause.illegalOp.code (.ofNat 64 w))
        | some c =>
          if mrepBad acc c then .stay (s.listFault w Cause.illegalOp.code (.ofNat 64 w))
          else if isMend c then k (acc ++ [c]) s
          else readList i va k f (w + 1) (acc ++ [c]) s) s 5 (.line w)

/-- The handle field of a tile command. -/
def handleField : Instr → Option (BitVec 32)
  | .mldb h .. | .mlda h .. | .mst h .. => some h
  | _ => none

/-- The shapes a list's handles name (R269, R282), or the index of the first that is stale. -/
def resolveShapes (x : Part) (k : Vector Half 8) : Nat → List Instr → Except Nat (List (Option Shape))
  | _, [] => .ok []
  | i, c :: r =>
    match handleField c with
    | none => (resolveShapes x k (i + 1) r).map fun l => none :: l
    | some h =>
      let v := if h.toNat / 2 ^ 20 = 0xFFF then k[h.toNat % 8]!.toNat else h.toNat
      match x.shape v with
      | none => .error i
      | some sh => (resolveShapes x k (i + 1) r).map fun l => some sh :: l

/-- A slot's TRUN waits for the array, or goes on to read its list. -/
def Slot.wantsArray (x : Slot) : Bool :=
  (x.run == .waiting .array || x.run == .waiting .reply || x.run == .runnable) && (match x.prog.word.bind decode with
    | some (.trun ..) => true
    | _ => false)

/-- The slots whose TRUN has not yet been accepted, in the order in which they were issued (R262). -/
def State.arrayQueue (s : State) (core : Nat) : List Nat := (s.arrayAt core).queue.filter fun n => (s.slotAt n).wantsArray

/-- The array cleared for another partition (R262). -/
def MatArray.cleared (a : MatArray) (p : Fin 8) : MatArray := { owner := some p, run := a.run, queue := a.queue }

/-- TRUN (R282): it waits for the array, reads its list, and waits while the array runs it. -/
def execTrun (g : Guard) (a : Reg) (s : State) : Host.Outcome State Fault Refusal :=
  issue (.trun g a) g 0 true (anchored fun s =>
    let va := s.g a
    let i : Instr := .trun g a
    let core := s.coreIdx
    let q := s.arrayQueue core
    let u := { s.arrayAt core with queue := if q.contains s.cur then q else q ++ [s.cur] }
    let s := s.setArrayAt core u
    if s.slot.open_ then .stop (.of .choiceEscape va)
    else if u.run.isSome || u.queue.head? != some s.cur then .stay (s.await i .array)
    else if va.toNat % 32 ≠ 0 then .stop (.of .align va)
    else readList i va (fun cmds s =>
      match resolveShapes s.part s.slot.k 0 cmds with
      | .error n => .stay (s.listFault n Cause.handleStale.code (.ofNat 64 n))
      | .ok shapes =>
        let x := s.slot
        let r := s.part.regs
        let run : ListRun := {
          slot := s.cur, stamp := s.stamp, cmds := cmds, shapes := shapes, idx := 0, rep := 0, k := x.k
          rel := x.ctx.rel, vis := x.ctx.vis, now := s.part.now, sat := r.fmt.getLsbD 0, mode := r.rmode, key := r.srkey
          wide := false, rnd := none, lines := [], written := [], hold := none, ord := none, out := 0, awaits := none
          miss := 0, lost := none, accs := [], drained := [], ready := s.cycles s.cluster + cmds.length }
        let u := s.arrayAt core
        let u := if u.owner = some x.part then u else u.cleared x.part
        let s := (s.setArrayAt core { u with run := some run, queue := u.queue.filter (· != s.cur) }).bump
        .stay ((s.setSlot { s.slot with tstatus := 0 }).await i .list)) 4096 0 [] s) s

/-! ## The array's commands -/

/-- What one step of a tile command comes to. -/
inductive Tile
  /-- It is not done. -/
  | stay (s : State)
  /-- It is done: the array and the list as they are then, and the cycles until the next command. -/
  | done (s : State) (a : MatArray) (x : ListRun) (cycles : Nat)
  | fail (s : State) (c : Byte) (v : Word)

/-- The list leaves the array, and its slot is runnable (R282, R284). -/
def State.endList (s : State) (core : Nat) (x : ListRun) : State :=
  (s.setArrayAt core { s.arrayAt core with run := none }).resumeSlot x.slot

/-- A list ends by a fault at TRUN (R284). -/
def State.failList (s : State) (core : Nat) (x : ListRun) (c : Byte) (v : Word) : State :=
  let t := { s.endList core x with cur := x.slot }
  let t := t.setSlot { t.slot with tstatus := tstatusWord x.miss x.idx c true false }
  { t.trap c v with cur := s.cur }

/-- The array of a core with its list changed. -/
def State.setRun (s : State) (core : Nat) (x : ListRun) : State :=
  s.setArrayAt core { s.arrayAt core with run := some x }

/-- The list may go on: its next command's time has come, and it waits for nothing. -/
def State.listReady (s : State) (core : Nat) (x : ListRun) : Bool :=
  decide (x.ready ≤ s.cycles (core / 16)) && x.awaits.isNone && !s.unitBlocked (core / 16) x.stamp
    && (match x.hold with
      | some i => decide (i.toNat ≤ (s.partAt (s.slotAt x.slot).part).now.toNat)
      | none => true)

/-- One step of a tile command of the list that the acting slot's TRUN runs. -/
def runTile (f : State → Nat → MatArray → ListRun → Tile) (s : State) : Host.Outcome State Fault Refusal :=
  let core := s.coreIdx
  match (s.arrayAt core).run with
  | none => .next s
  | some x =>
    if x.slot ≠ s.cur ∨ s.listReady core x = false then .next s
    else match f s core (s.arrayAt core) x with
      | .stay t => .next t
      | .done t a y n =>
        let z : ListRun := { y with
          idx := y.idx + 1, lines := [], written := [], hold := none, ord := none
          ready := t.cycles (core / 16) + n }
        .next (t.setArrayAt core { a with run := some z })
      | .fail t c v => .next (t.failList core x c v)

/-- An extent (R70, R274): 1, or the sampled k register. -/
def ListRun.ext (x : ListRun) : Ext → Nat
  | .one => 1
  | .k r => x.k[r].toNat

/-- Reads the lines a command needs, one a step, in an order the spec leaves open, then goes on with them (R275). -/
def needLines (s : State) (core : Nat) (x : ListRun) (ls : List Word) (inst : Instant) (k : List (Word × Vec) → Tile) :
    Tile :=
  let miss := ls.filter fun a => !x.lines.any fun l => l.1 == a
  if miss.isEmpty then k x.lines
  else
    let (j, s) := s.pick miss.length
    let va := miss.getD j 0
    let y := s.slotAt x.slot
    match s.unitRead y core va inst with
    | .ok (.got v) => .stay (s.setRun core { x with lines := x.lines ++ [(va, v)], hold := none })
    | .ok (.held i) => .stay (s.setRun core { x with hold := some i })
    | .ok (.away d i) =>
      let r : Req := match i with
        | some i => .version va ⟨0, 0, false⟩ 64 i
        | none => .read va ⟨0, 0, false⟩ 64 .plain
      .stay ((s.export d ⟨y.part, .unitRequest x.stamp r⟩).setRun core { x with awaits := some va })
    | .error (.page a kind) => .stay (s.unitFault (core / 16) y.part a kind x.stamp)
    | .error (.trap c v) => .fail s c v

/-- TILE-SHAPE at the present command. -/
def tileShape (s : State) (x : ListRun) : Tile := .fail s Cause.tileShape.code (.ofNat 64 x.idx)

/-- Bytes at 48-bit local addresses: the lines that hold them. -/
def scaleLines (base : BitVec 48) (offs : List Nat) (n : Nat) : List Word :=
  if base = 0 then [] else (offs.flatMap fun o => linesOf (ownAddr base + .ofNat 64 o) n).eraseDups

/-! ### Alignment (R263 to R265) -/

/-- The unbiased exponent of a float's code (R263). -/
def expOf (t : Elem) (c : Nat) : Int :=
  let f := c % signBit t / 2 ^ mantBits t
  (if f = 0 then 1 else (f : Int)) - biasOf t

/-- A group of elements in a format, aligned to width w (R263, R264). -/
def alignGroup (t : Elem) (w : Nat) (cs : List Nat) : Group :=
  if t = .i8 then { x := 0, q := cs.map (sint 8) }
  else
    let vs := cs.map (floatVal t)
    let e := cs.foldl (fun a c => max a (expOf t c)) (1 - (biasOf t : Int))
    let x := e - (w - 2 : Nat)
    let q := vs.map fun v => match v with
      | .fin neg m f => if neg then -(roundMag .rne 0 neg m f x : Int) else (roundMag .rne 0 neg m f x : Int)
      | _ => 0
    if vs.all fun v => match v with
      | .fin .. => true
      | _ => false
    then { x := x, q := q } else { x := x, q := cs.map fun _ => 0, special := true }

/-- The value an i4 weight stands for, as a bf16 code (R265). -/
def prologue (w z scale : Nat) : Nat :=
  toFloat .bf16 .rne 0 false ((intVal (sint 4 w - sint 4 z)).mul (floatVal .bf16 scale))

/-- The tag that matches a format (R268). -/
def impliedTag : Elem → Fin 4
  | .e5m2 => 1
  | .i8 => 2
  | _ => 0

/-- The element format a tag selects in the 8-bit class (R96). -/
def tagElem : Fin 4 → Elem
  | 1 => .e5m2
  | 2 => .i8
  | _ => .e4m3

/-- The class of a format (R261). -/
def classOf : Elem → CellClass
  | .bf16 | .i4 => .wide
  | _ => .narrow

/-- K, the rows of a macro (R261). -/
def rowsOf : CellClass → Nat
  | .narrow => 256
  | _ => 128

/-- A scale entry as a slice (R268). -/
def sliceAt (lines : List (Word × Vec)) (base : BitVec 48) (off : Nat) (t : Elem) (tag : Bool) : Slice :=
  if base = 0 then { tag := impliedTag t }
  else
    let v := bytesIn lines (ownAddr base + .ofNat 64 off) 8
    { scale := .ofNat 32 v, tag := if tag then .ofNat 4 (v / 2 ^ 32 % 4) else impliedTag t }

/-- The address of an element's byte in plane 0 (R270). -/
def Shape.at_ (h : Shape) (row col : Nat) : Word :=
  h.base + .ofNat 64 row * h.p1 + .ofNat 64 (col * elemBits h.fmt / 8)

/-- An element's code, from lines that have been read. -/
def Shape.elem (h : Shape) (lines : List (Word × Vec)) (row col : Nat) : Nat :=
  let v := bytesIn lines (h.at_ row col) (max 1 (elemBits h.fmt / 8))
  if h.fmt = .i4 then v / 2 ^ (4 * (col % 2)) % 16 else v

/-- The lines of n elements of a row. -/
def Shape.rowLines (h : Shape) (row n : Nat) : List Word := linesOf (h.at_ row 0) (rowBytes h.fmt n)

/-- What R275 asks of a tensor, and that rows below r1 and columns below n lie in plane 0. -/
def Shape.covers (h : Shape) (r1 n : Nat) : Bool :=
  decide (h.base.toNat % 64 = 0) && decide (h.p1.toNat % 64 = 0) && decide (r1 ≤ h.e1) && decide (n ≤ h.e0)

/-! ### MLDB and MLDA (R276, R277) -/

/-- The addresses of an i4 tensor's scale and zero point for (row, column) (R265). -/
def Shape.scaleAt (h : Shape) (row col : Nat) : Word :=
  h.base + h.p2 * .ofNat 64 h.e2 + .ofNat 64 ((row / 64 * h.e0 + col) * 2)
def Shape.zeroAt (h : Shape) (row col : Nat) : Word :=
  h.base + h.p2 * .ofNat 64 h.e2 + .ofNat 64 ((h.e1 + 63) / 64 * h.e0 * 2 + (row / 64 * h.e0 + col) / 2)

/-- The prologue lines for rows r0 to r0 + k − 1 and n columns. -/
def Shape.prologueLines (h : Shape) (r0 k n : Nat) : List Word :=
  if h.fmt ≠ .i4 ∨ k = 0 ∨ n = 0 then []
  else
    let gs := (List.range ((r0 + k - 1) / 64 - r0 / 64 + 1)).map (r0 / 64 + ·)
    (gs.flatMap fun g =>
      linesOf (h.scaleAt (64 * g) 0) (2 * n)
        ++ linesOf (h.zeroAt (64 * g) 0) ((g * h.e0 + n - 1) / 2 - g * h.e0 / 2 + 1)).eraseDups

/-- A weight's code and the format it is aligned in (R265, R268). -/
def Shape.weight (h : Shape) (lines : List (Word × Vec)) (row col : Nat) : Nat :=
  let c := h.elem lines row col
  if h.fmt = .i4 then
    let z := bytesIn lines (h.zeroAt row col) 1 / 2 ^ (4 * ((row / 64 * h.e0 + col) % 2)) % 16
    prologue c z (bytesIn lines (h.scaleAt row col) 2)
  else c

/-- MLDB (R276). -/
def execMldb (_h : BitVec 32) (mac : Bool) (n k : Ext) (fmt : Elem) (tag : Bool) (scb : BitVec 48) (rdi : InstField)
    (s : State) : Host.Outcome State Fault Refusal :=
  runTile (fun s core a x =>
    match (x.shapes[x.idx]?).join with
    | none => .fail s Cause.handleStale.code (.ofNat 64 x.idx)
    | some sh =>
      let n := x.ext n
      let k := x.ext k
      let cls := classOf fmt
      let rows := rowsOf cls
      let inst := instField rdi x.rel x.rel x.now
      let r0 := x.rep * k
      if sh.fmt ≠ fmt ∨ n = 0 ∨ 128 < n ∨ k = 0 ∨ rows < k ∨ sh.covers (r0 + k) n = false then tileShape s x
      else needLines s core x (scaleLines scb ((List.range (rows / 128)).map (8 * ·)) 8) inst fun ls =>
        let sl : Nat → Slice := fun j => sliceAt ls scb (8 * j) fmt tag
        let reads := fun (i : Nat) => !tag || (sl (i / 128)).tag != 3
        let body := (((List.range k).filter reads).flatMap fun i => sh.rowLines (r0 + i) n)
          ++ sh.prologueLines r0 k n
        needLines s core x (scaleLines scb ((List.range (rows / 128)).map (8 * ·)) 8 ++ body) inst fun ls =>
          let code := fun (i c : Nat) => if i < k ∧ reads i = true then sh.weight ls (r0 + i) c else 0
          let t := fun (g : Nat) =>
            if fmt = .i4 then Elem.bf16 else if tag then tagElem (sl (g / 4)).tag else fmt
          let grp := fun (c g : Nat) =>
            alignGroup (t g) (if cls = .wide then 16 else 8) ((List.range 32).map fun j => code (32 * g + j) c)
          let groups := (List.range n).flatMap fun c => (List.range (rows / 32)).map fun g => (c * 8 + g, grp c g)
          let m : Macro := {
            cls := cls, groups := groups
            slices := Vector.ofFn fun j => if j.val < rows / 128 then sl j.val else {} }
          .done s { a with macros := a.macros.set (mac.toNat % 2) m (Nat.mod_lt _ (by decide)) } x
            (16 + body.length)) s

/-- MLDA (R277). -/
def execMlda (_h : BitVec 32) (m k : Ext) (fmt : Elem) (tag : Bool) (sca : BitVec 48) (rdi : InstField)
    (s : State) : Host.Outcome State Fault Refusal :=
  runTile (fun s core a x =>
    match (x.shapes[x.idx]?).join with
    | none => .fail s Cause.handleStale.code (.ofNat 64 x.idx)
    | some sh =>
      let m := x.ext m
      let k := x.ext k
      let cls := classOf fmt
      let len := 2 * rowsOf cls
      let inst := instField rdi x.rel x.rel x.now
      let r0 := x.rep * m
      if sh.fmt ≠ fmt ∨ m = 0 ∨ 128 < m ∨ k = 0 ∨ len < k ∨ sh.covers (r0 + m) k = false then tileShape s x
      else
        let scales := scaleLines sca
          ((List.range m).flatMap fun r => (List.range (len / 128)).map fun j => (r * 4 + j) * 8) 8
        needLines s core x scales inst fun ls =>
          let sl : Nat → Nat → Slice := fun r j => sliceAt ls sca ((r * 4 + j) * 8) fmt tag
          let reads := fun (r e : Nat) => !tag || (sl r (e / 128)).tag != 3
          let part := fun (r j : Nat) =>
            if reads r (128 * j) then
              linesOf (sh.at_ (r0 + r) (128 * j)) (rowBytes fmt (min 128 (k - 128 * j)))
            else []
          let body := ((List.range m).flatMap fun r =>
            (List.range ((k + 127) / 128)).flatMap fun j => part r j).eraseDups
          needLines s core x (scales ++ body) inst fun ls =>
            let code := fun (r e : Nat) => if e < k ∧ reads r e = true then sh.elem ls (r0 + r) e else 0
            let width := if cls = .wide then (if x.wide then 16 else 12) else 8
            let t := fun (r g : Nat) => if tag then tagElem (sl r (g / 4)).tag else fmt
            let row := fun (r : Nat) =>
              let groups := (List.range (len / 32)).map fun g =>
                (g, alignGroup (t r g) width ((List.range 32).map fun j => code r (32 * g + j)))
              let slices : Vector Slice 4 := Vector.ofFn fun j => if j.val < len / 128 then sl r j.val else {}
              ARow.mk cls width groups slices
            .done s { a with rows := (List.range m).foldl (fun t r => Table.set t r (row r)) a.rows } x
              (16 + body.length)) s

/-! ### MMA, MZERO and MSCL (R266, R267, R278, R280) -/

/-- rnd32 of the list (R267, R283), for the k-th rounding at a site. -/
def ListRun.rounding (x : ListRun) (site : BitVec 48) (inst : Instant) : Rounding :=
  { mode := rndMode (x.rnd.getD .dyn) x.mode, sat := x.sat, key := x.key, site := site, inst := inst }

/-- The register site of an accumulator (R267). -/
def accSite (c : Ctx) (lane : Nat) : BitVec 48 :=
  (c.taskIdx.setWidth 48 <<< 16) ^^^ (((c.pc.extractLsb' 2 22).setWidth 48) <<< 7) ^^^ .ofNat 48 lane

/-- G: a group's result as an FP32 code (R264, R266). -/
def groupResult (a b : Group) : Nat :=
  if a.special || b.special then nanCode .f32
  else
    let v := ((a.q.zip b.q).map fun p => p.1 * p.2).sum
    toFloat .f32 .rne 0 false (.fin (decide (v < 0)) v.natAbs (a.x + b.x))

/-- FP32 addition under RNE. -/
def add32 (a b : Nat) : Nat := toFloat .f32 .rne 0 false ((floatVal .f32 a).add false (floatVal .f32 b))

/-- P(r, n, s): the slice partial (R267). -/
def partial_ (row : ARow) (m : Macro) (col first g : Nat) : Nat :=
  let r := fun (j : Nat) =>
    groupResult (Table.get {} row.groups (first + j)) (Table.get {} m.groups (col * 8 + g + j))
  add32 (add32 (r 0) (r 1)) (add32 (r 2) (r 3))

/-- The slices an MMA takes for a row, in ascending global order (R267): global slice, macro, slice in it. -/
def mmaSlices (cls : CellClass) (macs : BitVec 2) : List (Fin 4 × Fin 2 × Fin 2) :=
  let l : List (Fin 4 × Fin 2 × Fin 2) := match cls with
    | .wide => [(0, 0, 0), (1, 1, 0)]
    | .narrow => [(0, 0, 0), (1, 0, 1), (2, 1, 0), (3, 1, 1)]
    | .none => []
  l.filter fun t => macs.getLsbD t.2.1

/-- One accumulator's update over the slices (R267): its code and its roundings so far. -/
def mmaAcc (a : MatArray) (row : ARow) (rd : Rounding) (col : Nat) :
    List (Fin 4 × Fin 2 × Fin 2) → Nat × Nat → Nat × Nat
  | [], acc => acc
  | (gs, mac, j) :: r, (v, k) =>
    let m := a.macros[mac]
    let sa := row.slices[gs]
    let sb := m.slices[j]
    if sa.tag = 3 ∨ sb.tag = 3 then mmaAcc a row rd col r (v, k)
    else
      let t1 := rd.val k .f32 ((floatVal .f32 sa.scale.toNat).mul (floatVal .f32 sb.scale.toNat))
      let t2 := rd.val (k + 1) .f32 (t1.mul (floatVal .f32 (partial_ row m col (4 * gs) (4 * j))))
      let v := rd.code (k + 2) .f32 ((floatVal .f32 v).add (rd.mode == .rdn) t2)
      mmaAcc a row rd col r (v, k + 3)

/-- Changes each accumulator (r, n) of a tile by a function of its code and its roundings so far. -/
def eachAcc (m n : Nat) (f : (r c : Nat) → Nat × Nat → Nat × Nat) (a : MatArray) (x : ListRun) : MatArray × ListRun :=
  ((List.range m).flatMap fun r => (List.range n).map fun c => (r, c)).foldl (fun (ax : MatArray × ListRun) rc =>
    let key := rc.1 * 128 + rc.2
    let (v, k) := f rc.1 rc.2 ((Table.get 0 ax.1.acc key).toNat, Table.get 0 ax.2.accs key)
    ({ ax.1 with acc := Table.set ax.1.acc key (.ofNat 32 v) }, { ax.2 with accs := Table.set ax.2.accs key k })) (a, x)

/-- Bit transitions of an aligned element as its planes are broadcast (R287). -/
def transitions (w : Nat) (q : Int) : Nat :=
  let v := bitsOf w q
  ((List.range w).filter fun b => v.testBit b != (b != 0 && v.testBit (b - 1))).length

/-- U: the energy units of a burst (R287). -/
def burstUnits (a : MatArray) (m n : Nat) (macs : BitVec 2) : Nat :=
  n * ((List.range m).map fun r =>
    let row := Table.get {} a.rows r
    ((List.range 2).map fun mac =>
      let per := if row.cls = .narrow then 8 else 4
      if macs.getLsbD mac then
        ((List.range per).map fun g =>
          ((Table.get {} row.groups (per * mac + g)).q.map (transitions row.width)).sum).sum
      else 0).sum).sum

/-- The cap of a die's tokens, in energy units (R291). -/
def DieUnit.capUnits (u : DieUnit) : Nat := u.cap.toNat * 256

/-- The place of a token that lets a burst of U units start in a cluster (R288). -/
def DieUnit.tokenFor (u : DieUnit) (cluster units : Nat) : Option Nat :=
  u.tokens.findIdx? fun t =>
    decide (t.at_ = cluster) && decide (min units u.capUnits ≤ t.credit) && decide (t.kept < 16)

/-- The burst that a core's list starts next, once nothing but a token and the arbiter holds it: its partition and its units. -/
def State.nextBurst (s : State) (core : Nat) : Option (Fin 8 × Nat) :=
  let a := s.arrayAt core
  match a.run with
  | none => none
  | some x =>
    match x.cmds[x.idx]? with
    | some (.mma m n macs) =>
      if s.listReady core x then some ((s.slotAt x.slot).part, burstUnits a (x.ext m) (x.ext n) macs) else none
    | _ => none

/-- The bursts that the cores of a cluster start next. -/
def State.nextBursts (s : State) (cluster : Nat) : List (Fin 8 × Nat) :=
  ((List.range 16).map (cluster * 16 + ·)).filterMap s.nextBurst

/-- A partition waits for the surge arbiter of a cluster: a token lets one of its bursts start there. -/
def State.surgeWaits (s : State) (cluster : Nat) (p : Fin 8) : Bool :=
  (s.nextBursts cluster).any fun b => b.1 == p && ((s.dieAt (cluster / 16)).tokenFor (cluster % 16) b.2).isSome

/-- One more than the cycle of the last burst that a partition started in a cluster; 0 before the first. -/
def State.lastBurst (s : State) (cluster : Nat) (p : Fin 8) : Nat :=
  (((s.portAt cluster).bursts.find? fun b => b.1 == p).map (·.2 + 1)).getD 0

/-- The surge arbiter lets a burst start (R289): with others of its partition in one cycle, else 8 cycles after the last one of every
other partition, the partition that has waited longest since its last burst first (log entry 107). -/
def State.surgeOk (s : State) (cluster : Nat) (p : Fin 8) : Bool :=
  let last := s.lastBurst cluster
  last p == s.cyc + 1 || (List.finRange 8).all fun q =>
    q == p || ((last q == 0 || decide (last q + 7 ≤ s.cyc))
      && (!s.surgeWaits cluster q || decide (last p < last q) || (last p == last q && decide (p < q))))

/-- MMA (R278): its burst starts with a Garnet token (R288). -/
def execMma (m n : Ext) (macs : BitVec 2) (s : State) : Host.Outcome State Fault Refusal :=
  runTile (fun s core a x =>
    let m := x.ext m
    let n := x.ext n
    let p := (s.slotAt x.slot).part
    let row := fun (r : Nat) => Table.get {} a.rows r
    let clash := (List.range m).any fun r => (List.finRange 2).any fun mac =>
      let c := (a.macros[mac]).cls
      macs.getLsbD mac && c != .none && (row r).cls != .none && c != (row r).cls
    if m = 0 ∨ 128 < m ∨ n = 0 ∨ 128 < n ∨ clash = true then tileShape s x
    else
      let die := s.dieAt (core / 256)
      let units := burstUnits a m n macs
      match die.tokenFor (core / 16 % 16) units with
      | none => .stay s
      | some j =>
        if s.surgeOk (core / 16) p = false then .stay s
        else
          let use_ := fun (t : Token) => { t with credit := t.credit - units, kept := t.kept + 1 }
          let s := s.setDieAt (core / 256) { die with tokens := die.tokens.modify j use_ }
          let port := s.portAt (core / 16)
          let s := s.setPortAt (core / 16) { port with bursts := (p, s.cyc) :: port.bursts.filter fun b => b.1 != p }
          let c := (s.slotAt x.slot).ctx
          let f := fun (r col : Nat) (vk : Nat × Nat) =>
            mmaAcc a (row r) (x.rounding (accSite c (r * 128 + col)) x.rel) col (mmaSlices (row r).cls macs) vk
          let (a, x) := eachAcc m n f a x
          .done s a x (8 + ((List.range m).map fun r => (row r).width).sum)) s

/-- The accumulators with those of the first m rows and n columns zeroed (R278, R279). -/
def zeroAccs (acc : Table Half) (m n : Nat) : Table Half :=
  acc.map fun e => if e.1 / 128 < m ∧ e.1 % 128 < n then (e.1, 0) else e

/-- MZERO (R278). -/
def execMzero (m n : Ext) (s : State) : Host.Outcome State Fault Refusal :=
  runTile (fun s _ a x =>
    let m := x.ext m
    let n := x.ext n
    if m = 0 ∨ 128 < m ∨ n = 0 ∨ 128 < n then tileShape s x
    else
      .done s { a with acc := zeroAccs a.acc m n } x 4) s

/-- MSCL (R280). It changes nothing where no accumulator or no scale is named; rows and columns from 128 on do not exist, and it raises
TILE-SHAPE for them (log entry 126). -/
def execMscl (m n : Ext) (sr sc : BitVec 48) (s : State) : Host.Outcome State Fault Refusal :=
  runTile (fun s core a x =>
    let m := x.ext m
    let n := x.ext n
    if m = 0 ∨ n = 0 ∨ (sr = 0 ∧ sc = 0) then .done s a x (8 + m)
    else if 128 < m ∨ 128 < n then tileShape s x
    else
      let offs := fun (k : Nat) => (List.range k).map (4 * ·)
      needLines s core x ((scaleLines sr (offs m) 4 ++ scaleLines sc (offs n) 4).eraseDups) x.rel fun ls =>
        let at_ := fun (base : BitVec 48) (j : Nat) => floatVal .f32 (bytesIn ls (ownAddr base + .ofNat 64 (4 * j)) 4)
        let c := (s.slotAt x.slot).ctx
        let f := fun (r col : Nat) (vk : Nat × Nat) =>
          let rd := x.rounding (accSite c (r * 128 + col)) x.rel
          let (v, k) := vk
          let (v, k) := if sr = 0 then (v, k) else (rd.code k .f32 ((floatVal .f32 v).mul (at_ sr r)), k + 1)
          if sc = 0 then (v, k) else (rd.code k .f32 ((floatVal .f32 v).mul (at_ sc col)), k + 1)
        let (a, x) := eachAcc m n f a x
        .done s a x (8 + m)) s

/-! ### MST (R279) -/

/-- Roundings made so far of a drained value (R88). -/
def ListRun.drawn (x : ListRun) (va : Word) (i : Instant) : Nat :=
  ((x.drained.find? fun e => e.1 == va && e.2.1 == i).map (·.2.2)).getD 0

/-- The count of a drained value set. -/
def ListRun.draw (x : ListRun) (va : Word) (i : Instant) (k : Nat) : ListRun :=
  { x with drained := (va, i, k) :: x.drained.filter fun e => !(e.1 == va && e.2.1 == i) }

/-- One drained value (R279): its code in the format, with the list's rounding counts. -/
def drainOne (x : ListRun) (fmt : Elem) (acc : Nat) (scale : Option Nat) (va : Word) (i : Instant) : Nat × ListRun :=
  let rd := x.rounding (va.setWidth 48) i
  let k := x.drawn va i
  let (y, k) := match scale with
    | some c => (rd.code k .f32 ((floatVal .f32 acc).mul (floatVal .f32 c)), k + 1)
    | none => (acc, k)
  (rd.code k fmt (floatVal .f32 y), x.draw va i (k + 1))

/-- MST (R279): each line is a piece, written in an order the spec leaves open, once ORD is taken and the scale is read; the command
ends when every piece is accepted, slipped or discarded. -/
def execMst (_h : BitVec 32) (m n : Ext) (fmt : Elem) (clr : Bool) (sc : BitVec 48) (vsi : InstField)
    (s : State) : Host.Outcome State Fault Refusal :=
  runTile (fun s core a x =>
    match (x.shapes[x.idx]?).join with
    | none => .fail s Cause.handleStale.code (.ofNat 64 x.idx)
    | some sh =>
      let m := x.ext m
      let n := x.ext n
      let v := instField vsi x.vis x.rel x.now
      let r0 := x.rep * m
      if sh.fmt ≠ fmt ∨ m = 0 ∨ 128 < m ∨ n = 0 ∨ 128 < n ∨ sh.covers (r0 + m) n = false then tileShape s x
      else
        let slot := s.slotAt x.slot
        let first := sh.at_ r0 0
        let firstI := match slot.dataSeg first with
          | some g => g.i
          | none => false
        match x.ord with
        | none =>
          if firstI then
            if slot.ctx.seqNo = 0xFFFF then .fail s Cause.instantMiss.code first
            else .stay ((s.setSlotAt x.slot { slot with ctx := slot.ctx.nextOrd }).setRun core
              { x with ord := some slot.ctx.ord })
          else .stay (s.setRun core { x with ord := some slot.ctx.ord })
        | some ord => needLines s core x (scaleLines sc [0] 4) x.rel fun ls =>
          let bytes := rowBytes fmt n
          let per := (bytes + 63) / 64
          let left := (List.range (m * per)).filter fun j => !x.written.contains j
          if left.isEmpty then
            if x.out ≠ 0 then .stay s
            else
              .done s (if clr then { a with acc := zeroAccs a.acc m n } else a) x (16 + m * per)
          else
            let (pk, s) := s.pick left.length
            let j := left.getD pk 0
            let r := j / per
            let va := sh.at_ (r0 + r) 0 + .ofNat 64 (64 * (j % per))
            let nb := min 64 (bytes - 64 * (j % per))
            let w := elemBits fmt / 8
            let inst := if (writeNeed slot va).i then v else x.rel
            let scale := if sc = 0 then none else some (bytesIn ls (ownAddr sc) 4)
            let (line, y) := (List.range (nb / w)).foldl (fun (lx : Nat × ListRun) e =>
              let col := 64 * (j % per) / w + e
              let (c, z) := drainOne lx.2 fmt (Table.get 0 a.acc (r * 128 + col)).toNat scale
                (va + .ofNat 64 (e * w)) inst
              (lx.1 + 2 ^ (8 * w * e) * c, z)) (0, x)
            let y := { y with written := j :: y.written }
            match s.unitWrite slot core va nb (.ofNat 512 line) v ord slot.ctx.pol x.stamp with
            | .ok (.done s) => .stay (s.setRun core y)
            | .ok (.sent s) => .stay (s.setRun core { y with out := y.out + 1 })
            | .error (.page b kind) => .stay (s.unitFault (core / 16) slot.part b kind x.stamp)
            | .error (.trap c b) => .fail s c b) s

/-! ### MFMT, MREP and MEND (R281 to R283) -/

/-- MFMT (R283). -/
def execMfmt (rnd : Option Rnd) (wide : Bool) (sat : Option Bool) (s : State) : Host.Outcome State Fault Refusal :=
  runTile (fun s _ a x =>
    .done s a { x with
      wide := wide, sat := sat.getD x.sat
      rnd := match rnd with
        | some r => some r
        | none => x.rnd } 0) s

/-- MREP (R281): the body runs c times in all. -/
def execMrep (c : Ext) (len : BitVec 32) (s : State) : Host.Outcome State Fault Refusal :=
  runTile (fun s core a x =>
    if x.ext c = 0 then tileShape s x
    else if x.rep + 1 < x.ext c then
      .stay (s.setArrayAt core { a with run := some { x with
        idx := x.idx - len.toNat, rep := x.rep + 1, ready := s.cycles (core / 16)
        lines := [], written := [], hold := none, ord := none } })
    else .done s a { x with rep := 0 } 0) s

/-- MEND (R279, R282): the list ends once the invalidations it caused toward the router are applied. -/
def execMend (s : State) : Host.Outcome State Fault Refusal :=
  runTile (fun s core _ x =>
    if x.out ≠ 0 ∨ s.owes (core / 16) = true then .stay s
    else
      let t := { s.endList core x with cur := x.slot }
      match x.lost with
      | some va =>
        let t := t.setSlot { t.slot with tstatus := tstatusWord x.miss x.idx Cause.instantMiss.code true true }
        .stay { t.trap Cause.instantMiss.code va with cur := s.cur }
      | none =>
        let t := t.setSlot { t.slot with tstatus := tstatusWord x.miss x.idx 0 false true, ahead := [] }
        .stay { settle t (.seq t) with cur := s.cur }) s

/-- A piece of a list has been accepted, slipped or discarded (R279). -/
def ListRun.landed (x : ListRun) (l : Landing) (va : Word) : ListRun :=
  match l with
  | .accepted false => { x with out := x.out - 1 }
  | .accepted true => { x with out := x.out - 1, miss := x.miss + 1 }
  | .missed => { x with out := x.out - 1, miss := x.miss + 1, lost := some (x.lost.getD va) }
  | .full | .failed => x

/-! ## The Garnet ring (R288) -/

/-- A core of the cluster waits to start a burst that a token lets start. -/
def State.burstWaits (s : State) (cluster : Nat) (t : Token) (cap : Nat) : Bool :=
  (s.nextBursts cluster).any fun b => decide (min b.2 cap ≤ t.credit)

/-- GARNET_TOKEN_HOP (R288): a token hops every 8 cycles unless its cluster keeps it; at cluster 0 it is refilled first, and
waits there while the pool is too small to fill it. -/
def execGarnetTokenHop (die tok : Nat) (s : State) : Host.Outcome State Fault Refusal :=
  let u := s.dieAt die
  match u.tokens[tok]? with
  | none => .next s
  | some t =>
    if s.cyc < t.hop + 8 then .next s
    else if t.kept < 16 ∧ s.burstWaits (die * 16 + t.at_) t u.capUnits = true then .next s
    else
      let need := if t.at_ = 0 then u.capUnits - t.credit else 0
      let k := min need u.pool
      let t := { t with credit := t.credit + k }
      let t := if k < need then t else { t with at_ := (t.at_ + 1) % 16, hop := s.cyc, kept := 0 }
      .next (s.setDieAt die { u with pool := u.pool - k, tokens := u.tokens.set tok t })

end Sys2Proof.Machine
end

