-- ==== Sys2Proof/Machine/Ordering.lean ====
section
/-! DEFINITION. The ordering instructions (08_ordering, R172 to R177) but for STSYNC, which looks at the engines, and the
packets that drains and invalidations are. -/

namespace Sys2Proof.Machine

/-- LDAQ (R173): made at the home bank; its reply replaces the router's entry for the line (R169). As an
acquire it lets no word fetched ahead be run (R69, R178; log entry 109). -/
def execLdaq (g : Guard) (d a : Reg) (c : Scope) (z : DSize) (x : Bool) (o : BitVec 9) (s : State) :
    Host.Outcome State Fault Refusal :=
  issue (.ldaq g d a c z x o) g 0 false (fun s =>
    let n := dsizeBytes z
    let va := ea (s.g a) o n
    .bind (s.access va n { r := true, n := true }) fun t =>
      reach (.ldaq g d a c z x o) true va t (.read va · n .replace) (some (.w4read · n)) (.load d (dsizeSize z) x) s.dropAhead) s

/-- STRL (R174): checks 1 to 5 and CHOICE-ESCAPE before the drain, every check after it. -/
def execStrl (g : Guard) (d a : Reg) (c : Scope) (z : DSize) (o : BitVec 9) (s : State) :
    Host.Outcome State Fault Refusal :=
  issue (.strl g d a c z o) g 0 false (fun s =>
    let n := dsizeBytes z
    let va := ea (s.g a) o n
    .bind (checkSeg s.slot va n { w := true, n := true }) fun () =>
    .bind (s.checkWin s.coreIdx s.slot.part va n) fun _ =>
      if s.slot.open_ && !s.slot.inArena va n then .stop (.of .choiceEscape va)
      else drain (.strl g d a c z o) c (fun s =>
        .bind (s.access va n { w := true, n := true }) fun t =>
          writeNow (.strl g d a c z o) va n ((low n (s.g d)).setWidth 512) t
            (s.setSlot { s.slot with prog := { s.slot.prog with drained := true } })) s) s

/-- The thread's fetched-ahead words are discarded (R175). -/
def forgetAhead (s : State) : Out := .seq s.dropAhead

/-- FENCE.full (R175). -/
def execFenceFull (g : Guard) (c : Scope) (s : State) : Host.Outcome State Fault Refusal :=
  issue (.fenceFull g c) g 0 false (drain (.fenceFull g c) c forgetAhead) s

/-- FENCE.acq (R175). -/
def execFenceAcq (g : Guard) (c : Scope) (s : State) : Host.Outcome State Fault Refusal :=
  issue (.fenceAcq g c) g 0 false forgetAhead s

/-- FENCE.rel (R175). -/
def execFenceRel (g : Guard) (c : Scope) (s : State) : Host.Outcome State Fault Refusal :=
  issue (.fenceRel g c) g 0 false (drain (.fenceRel g c) c forgetAhead) s

/-- DRAIN_TOKEN (R172): a token reaches its router behind the invalidations; the last one ends its drain. -/
def execDrainToken (k : Nat) (s : State) : Host.Outcome State Fault Refusal :=
  match s.takePacket k with
  | some (⟨_, .token n _⟩, t) =>
    let x := t.slotAt n
    match x.run with
    | .waiting (.drain m) =>
      .next (t.setSlotAt n (if m ≤ 1 then { x with run := .runnable, prog := { x.prog with drained := true } }
        else { x with run := .waiting (.drain (m - 1)) }))
    | _ => .next t
  | _ => .next s

/-- An invalidation is acknowledged to the saved thread of a slot (R171). -/
def State.acknowledgeSaved (s : State) (p : Fin 8) (n : Nat) : State :=
  let y := s.partAt p
  let k := Table.get {} y.kept n
  s.setPartAt p { y with kept := y.kept.map fun e => if e.1 = n then (n, { k with unacked := k.unacked - 1 }) else e }

/-- An invalidation is acknowledged to a writing slot (R171): a thread that waited to be settled goes on. -/
def State.acknowledge (s : State) (n : Nat) : State :=
  let x := s.slotAt n
  let u := x.unacked - 1
  s.setSlotAt n { x with
    unacked := u
    run := if u = 0 ∧ x.run = .waiting .settle then .runnable else x.run }

/-- INVALIDATION (R170): every entry the router holds for the home line is dropped. -/
def execInvalidation (k : Nat) (s : State) : Host.Outcome State Fault Refusal :=
  match s.takePacket k with
  | some (⟨p, .inval line r w⟩, t) =>
    let t := t.dropLine r line
    match w with
    | some n => .next (if n < 2 ^ 20 then t.acknowledge n else t.acknowledgeSaved p (slotKey n))
    | none => .next t
  | _ => .next s

end Sys2Proof.Machine
end

