-- ==== Sys2Proof/Machine/Engine.lean ====
section
/-! DEFINITION. Engine commands (13_engine, R292 to R309): their issue, the accesses that commands make (R296), copies and
fills, and collectives; and STSYNC (R176), which waits for them. -/

namespace Sys2Proof.Machine

/-! ## Commands -/

/-- Every command of the device. -/
def State.commands (s : State) : List Cmd :=
  s.copiers.flatMap (·.2) ++ s.collectors.flatMap (·.2) ++ s.sphinxes.flatMap (·.2.queue) ++ s.copies ++ s.merges

/-- Changes the command with a stamp. -/
def State.mapCmd (s : State) (stamp : Nat) (f : Cmd → Cmd) : State :=
  let each := fun (l : List Cmd) => l.map fun c => if c.stamp = stamp then f c else c
  { s with
    copiers := s.copiers.map fun e => (e.1, each e.2)
    collectors := s.collectors.map fun e => (e.1, each e.2)
    sphinxes := s.sphinxes.map fun e => (e.1, { e.2 with queue := each e.2.queue })
    copies := each s.copies
    merges := each s.merges }

/-- Threads in STSYNC look again (R176). -/
def State.wakeSync (s : State) : State :=
  { s with slots := s.slots.map fun e =>
      (e.1, if e.2.run = .waiting .stsync then { e.2 with run := .runnable } else e.2) }

/-- The command as it has become. -/
def State.putCmd (s : State) (c : Cmd) : State := (s.mapCmd c.stamp fun _ => c).wakeSync

/-- The command is gone. -/
def State.dropCmd (s : State) (stamp : Nat) : State :=
  let rest := fun (l : List Cmd) => l.filter fun c => c.stamp != stamp
  State.wakeSync { s with
    copiers := s.copiers.map fun e => (e.1, rest e.2)
    collectors := s.collectors.map fun e => (e.1, rest e.2)
    sphinxes := s.sphinxes.map fun e => (e.1, { e.2 with queue := rest e.2.queue })
    copies := rest s.copies
    merges := rest s.merges }

/-- The command's Instant-domain writes are all accepted, slipped or discarded (R176). -/
def Cmd.instDone (c : Cmd) : Bool := !c.inst || (c.stage == .ended && c.out == 0 && c.flight.isNone)

/-- A command ends by a fault found while it runs (R302): its further pieces are not made. One that a fault has ended keeps its cause. -/
def Cmd.failed (c : Cmd) (cause : Byte) (tval : Word) : Cmd :=
  if c.stage = .ended ∧ c.status ≠ 0 then c
  else { c with stage := .ended, piece := none, status := cause, tval := tval }

/-- A piece of n bytes has been accepted, slipped or discarded (R302). -/
def Cmd.landed (c : Cmd) (l : Landing) (va : Word) (n : Nat) : Cmd :=
  match l with
  | .accepted false => { c with out := c.out - 1, bytes := c.bytes + n }
  | .accepted true => { c with out := c.out - 1, bytes := c.bytes + n, miss := c.miss + 1, slipped := true }
  | .missed => { c with out := c.out - 1, miss := c.miss + 1, lost := some (c.lost.getD va) }
  | .full | .failed => c

/-- A task's record is changed while the task runs. -/
def State.onLive (s : State) (p : Fin 8) (task : Option (Nat × Nat)) (f : TaskRec → TaskRec) : State :=
  match task with
  | none => s
  | some (id, t) =>
    if (s.partAt p).launches.any fun l => l.id == id && l.live.any fun e => e.1 == t then s.onTask p task f else s

/-- A slip of a command's piece sets the slipped flags of its task and of the thread that issued it (R153). -/
def State.slipCmd (s : State) (c : Cmd) : State :=
  let s := s.onLive c.part c.task fun t => { t with slip := true, slips := t.slips + 1 }
  { s with slots := s.slots.map fun e =>
      (e.1, if e.2.cmds.contains c.stamp then { e.2 with ctx := e.2.ctx.setSlip true } else e.2) }

/-- The core beside which a command runs: the issuing one, cluster 0 of the target die for Monarch's copy (R359), and of the
lowest enabled die for its merge (R361). -/
def State.cmdCore (s : State) (c : Cmd) : Nat :=
  match c.work with
  | .rcopy _ _ die .. => die * 256
  | .rmerge .. => s.firstDie * 256
  | _ => c.core

/-- The completion message (R301): KIND 01 to the low inbox of the issuing core. -/
def State.completeCmd (s : State) (c : Cmd) : State :=
  let lost := decide (c.status = 0) && c.lost.isSome
  let status := if lost then Cause.instantMiss.code else c.status
  let w2 := 2 ^ 48 * min c.miss 0xFFFF + 2 ^ 40 * c.unit + 2 ^ 32 * c.eng + 2 ^ 8 * c.slipped.toNat + status.toNat
  s.postDone c.part (s.cmdCore c) c.core c.stamp (vecOf [c.hnd,
    header false 1 s.ownIdx (c.ord.extractLsb' 16 32) (c.ord.extractLsb' 0 16), .ofNat 64 w2, c.tag,
    if lost then c.lost.getD 0 else c.tval, .ofNat 64 (c.count.getD c.bytes), c.cid, 0])

/-- The copy engine that performs a command, by its cluster (R295, R359). -/
def Cmd.copier (c : Cmd) : Option Nat :=
  match c.work with
  | .copy .. => some (c.core / 16)
  | .rcopy _ _ die .. => some (die * 16)
  | _ => none

/-- A copy engine performs its commands and Monarch's copies one at a time, in order of acceptance (R295, R359). -/
def State.engineTurn (s : State) (c : Cmd) : Bool :=
  c.copier.isNone || s.commands.all fun d => d.copier != c.copier || decide (c.stamp ≤ d.stamp)

/-- The command may go on: its partition runs, it is its engine's oldest, and it waits for nothing. -/
def State.cmdReady (s : State) (c : Cmd) : Bool :=
  s.running c.part && c.flight.isNone && !s.unitBlocked (s.cmdCore c / 16) c.stamp && s.engineTurn c
    && (match c.hold with
      | some i => decide (i.toNat ≤ (s.partAt c.part).now.toNat)
      | none => true)

/-! ## A command's accesses (R296) -/

/-- What one access of a command comes to. -/
inductive Did
  | ok (v : Nat) (s : State) (c : Cmd)
  | wait (s : State) (c : Cmd)
  | fail (s : State) (c : Cmd)

/-- A slot with the segments that the command holds. -/
def Cmd.slot (c : Cmd) : Slot := { seg := c.seg.getD (.replicate 8 {}), part := c.part }

/-- The line is in the Instant domain (R296, R349). -/
def Cmd.instAt (c : Cmd) (va : Word) : Bool := c.seg.isNone || (readNeed c.slot va).i

/-- Where a command's access is made, once its checks have passed. -/
def State.cmdPlace (s : State) (c : Cmd) (va : Word) (n : Nat) (w : Bool) : Except Stop Target :=
  let q := if w then writeNeed c.slot va else readNeed c.slot va
  match (if c.seg.isNone then alignTo va n else partSeg c.slot va n q) with
  | .error e => .error e
  | .ok () =>
    match s.locate (s.cmdCore c) c.part va n 6 with
    | .ok (.here pl) =>
      if c.instAt va && pl.so then .error (.of .segRights va)
      else if !s.pathOk (s.cmdCore c / 256) (pl.home / 256) then .error (.of .copyFail va)
      else .ok (.here pl)
    | .ok (.reg _) => .error (.of .segBound va)
    | r => r

/-- The command is a collective. -/
def Cmd.isColl (c : Cmd) : Bool :=
  match c.work with
  | .coll .. => true
  | _ => false

/-- A command's access that does not pass: it waits for a page (KIND 6), is held with a fabric fault record while no
channel joins the dies and FLTH is 1 (R418), or the command fails. -/
def State.cmdStop (s : State) (c : Cmd) : Stop → Did
  | .page va k => .wait (s.unitFault (s.cmdCore c / 16) c.part va k c.stamp) c
  | .trap cause v =>
    if cause = Cause.copyFail.code ∧ s.dev.hamode.getLsbD 4 = true then
      let b : Body := .unitRequest c.stamp (.read v ⟨0, 0, false⟩ 1 .plain)
      let die := match s.locate (s.cmdCore c) c.part v 1 6 with
        | .ok (.here pl) => pl.home / 256
        | _ => s.cmdCore c / 256
      .wait (s.postFabric ⟨⟨c.part, b⟩, true, s.ownIdx, die, 0, 0, none⟩) { c with flight := some (v, 0, false) }
    else .fail s (c.failed (if cause = Cause.copyFail.code ∧ c.isColl = true then Cause.fabricUnreachable.code else cause) v)

/-- A read of n bytes of one line. -/
def cmdRead (va : Word) (n : Nat) (s : State) (c : Cmd) : Did :=
  match c.got with
  | some (a, r) =>
    let c := { c with got := none }
    match r with
    | .fail cause v => .fail s (c.failed cause v)
    | .slipped => .wait s c
    | .ok v => if a = va then .ok v.toNat s c else .wait s c
  | none =>
    match s.cmdPlace c va n false with
    | .error e => s.cmdStop c e
    | .ok (.here pl) =>
      if c.instAt va then
        if (s.partAt c.part).now.toNat < c.rdi.toNat then .wait s { c with hold := some c.rdi }
        else match s.versionAt c.part va pl n c.rdi with
          | .ok v => .ok v s { c with hold := none }
          | .error e => s.cmdStop c e
      else match s.readAt va pl n with
        | .ok v => .ok v s c
        | .error e => s.cmdStop c e
    | .ok (.away d) =>
      let r : Req := if c.instAt va then .version va ⟨0, 0, false⟩ n c.rdi else .read va ⟨0, 0, false⟩ n .plain
      .wait (s.export d ⟨c.part, .unitRequest c.stamp r⟩) { c with flight := some (va, n, false) }
    | .ok (.reg _) => .fail s (c.failed Cause.segBound.code va)

/-- Bytes that a mask names. -/
def maskBytes (m : BitVec 64) : Nat := ((List.range 64).filter fun k => m.getLsbD k).length

/-- A piece of n bytes of one line, those that the mask names: written at its home, or on its way there. -/
def cmdWrite (va : Word) (n : Nat) (mask : BitVec 64) (v : Nat) (s : State) (c : Cmd) : Did :=
  let st : Store := {
    va := va, pl := ⟨0, 0, false⟩, n := n, x := .ofNat 512 v, mask := mask, v := c.vsi, ord := c.ord, slip := c.slip }
  match s.cmdPlace c va n true with
  | .error e => s.cmdStop c e
  | .ok (.here pl) =>
    if c.instAt va then
      .ok 0 (s.send c.part (.store (.cmd c.stamp) { st with pl := pl })) { c with out := c.out + 1 }
    else match s.unitNow c.part (s.cmdCore c) va pl n v with
      | .ok s => .ok 0 s { c with bytes := c.bytes + n }
      | .error e => s.cmdStop c e
  | .ok (.away d) =>
    let b : Body := if c.instAt va then .store (.cmd c.stamp) st
      else .unitRequest c.stamp (.write va ⟨0, 0, false⟩ n (.ofNat 512 v))
    let count := maskBytes (mask &&& BitVec.ofNat 64 (2 ^ n - 1))
    .ok 0 (s.export d ⟨c.part, b⟩) { c with flight := some (va, count, true), out := c.out + 1 }
  | .ok (.reg _) => .fail s (c.failed Cause.segBound.code va)

/-- Sends the piece that has been gathered. -/
def cmdFlush (s : State) (c : Cmd) : Did :=
  match c.piece with
  | none => .ok 0 s c
  | some (line, mask, x) =>
    let on := (List.range 64).filter fun k => mask.getLsbD k
    let a := on.headD 0
    let n := on.getLastD 0 + 1 - a
    match cmdWrite (line + .ofNat 64 a) n (mask >>> a) (x.toNat / 2 ^ (8 * a) % 2 ^ (8 * n)) s c with
    | .ok v s c => .ok v s { c with piece := none }
    | r => r

/-- Writes `size` bytes of `data` from an address, one piece a step, in ascending order. -/
def writeOut (dst : Word) (s : State) (c : Cmd) : Did :=
  if c.size ≤ c.pos then .ok 0 s { c with stage := .ended }
  else
    let va := dst + .ofNat 64 c.pos
    let n := min (64 - va.toNat % 64) (c.size - c.pos)
    match cmdWrite va n (.allOnes 64) (c.data / 2 ^ (8 * c.pos) % 2 ^ (8 * n)) s c with
    | .ok v s c => .ok v s { c with pos := c.pos + n, stage := if c.pos + n = c.size then .ended else c.stage }
    | r => r

/-- One step of a command that is its engine's head: while pieces are left it makes one; then it waits for them, for the
invalidations toward its router (R181), and sends its completion. -/
def State.runCmd (s : State) (c : Cmd) (f : State → Cmd → Did) : State :=
  if c.stage = .ended then
    if c.out ≠ 0 ∨ c.flight.isSome ∨ s.owes (s.cmdCore c / 16) = true ∨ s.running c.part = false then s
    else (s.completeCmd c).dropCmd c.stamp
  else if s.cmdReady c = false then s
  else match f s c with
    | .ok _ s c => s.putCmd c
    | .wait s c => s.putCmd c
    | .fail s c => s.putCmd c

/-! ## Copies and fills (R298 to R300) -/

/-- An element's address, or the byte's that holds it. -/
def View.at_ (v : View) (i0 i1 i2 : Nat) : Word :=
  v.base + .ofNat 64 i2 * v.p2 + .ofNat 64 i1 * v.p1 + .ofNat 64 (i0 * elemBits v.fmt / 8)

/-- The element that is written for one read (R90, R298). The site is the address without its device index (R88; log entry 97). -/
def Cmd.convert (c : Cmd) (t u : Elem) (va : Word) (x : Nat) : Nat :=
  if t = u then x
  else
    let rd : Rounding := {
      mode := rmodeOf c.mode, sat := c.sat, key := c.key, site := va.setWidth 48
      inst := if c.instAt va then c.vsi else c.rel }
    rd.code 0 u (elemVal t x)

/-- Writes a byte of an element, or an element of half a byte: at once in the Now domain of this device, else into the
piece. -/
def putByte (va : Word) (w half x : Nat) (s : State) (c : Cmd) : Did :=
  let b := x / 2 ^ (8 * c.sub) % 256
  if !c.instAt va && s.onDevice va then
    match s.cmdPlace c va 1 true with
    | .error e => s.cmdStop c e
    | .ok (.here pl) =>
      let old := (s.mem.byte pl.phys).toNat
      let b := if w ≠ 4 then b else if half = 0 then old / 16 * 16 + x % 16 else old % 16 + x % 16 * 16
      match s.unitNow c.part (s.cmdCore c) va pl 1 b with
      | .ok s => .ok 0 s { c with bytes := c.bytes + (if w = 4 ∧ half = 0 then 0 else 1) }
      | .error e => s.cmdStop c e
    | .ok _ => .fail s (c.failed Cause.segBound.code va)
  else
    let k := va.toNat % 64
    let (mask, old) := match c.piece with
      | some (_, m, y) => (m, y)
      | none => (0, 0)
    let b := if w ≠ 4 then b else x % 16 * (if half = 0 then 1 else 16)
    .ok 0 s { c with piece := some (vline va, mask ||| (1#64 <<< k), old ||| .ofNat 512 (b * 2 ^ (8 * k))) }

/-- The next byte of the element at hand, or the next element. -/
def Cmd.advance (c : Cmd) (w : Nat) : Cmd :=
  if c.sub + 1 < w / 8 then { c with sub := c.sub + 1 } else { c with sub := 0, elem := none, pos := c.pos + 1 }

/-- Elements in order up to the end of a piece (R298): each is read after every earlier one has been written. A piece on
another device's Now domain ends with each whole element. -/
def copyPiece (src : Option View) (dst : View) (x0 x1 x2 : Nat) (fill line : Word) : Nat → State → Cmd → Did
  | 0, s, c => cmdFlush s c
  | f + 1, s, c =>
    if x0 * x1 * x2 ≤ c.pos then
      match cmdFlush s c with
      | .ok v s c => .ok v s { c with stage := .ended }
      | r => r
    else
      let i0 := c.pos % x0
      let i1 := c.pos / x0 % x1
      let i2 := c.pos / (x0 * x1)
      let w := elemBits dst.fmt
      let va := dst.at_ i0 i1 i2
      let a := va + .ofNat 64 c.sub
      if vline a ≠ line then cmdFlush s c
      else match c.elem with
        | none =>
          match src with
          | none => copyPiece src dst x0 x1 x2 fill line f s { c with elem := some (fill.toNat % 2 ^ w) }
          | some u =>
            match cmdRead (u.at_ i0 i1 i2) (max 1 (elemBits u.fmt / 8)) s c with
            | .ok v s c =>
              let v := if u.fmt = .i4 then v / 2 ^ (4 * (i0 % 2)) % 16 else v
              copyPiece src dst x0 x1 x2 fill line f s { c with elem := some (c.convert u.fmt dst.fmt va v) }
            | r => r
        | some x =>
          match putByte a w (i0 % 2) x s c with
          | .ok _ s c =>
            let c := c.advance w
            if c.piece.isSome && !c.instAt a && c.sub == 0 && (w != 4 || c.pos % 2 == 0) then cmdFlush s c
            else copyPiece src dst x0 x1 x2 fill line f s c
          | r => r

/-- One piece of a copy or a fill. -/
def copyStep (s : State) (c : Cmd) : Did :=
  match c.work with
  | .copy src dst x0 x1 x2 fill =>
    let next := dst.at_ (c.pos % x0) (c.pos / x0 % x1) (c.pos / (x0 * x1)) + .ofNat 64 c.sub
    let line := match c.piece with
      | some (l, _, _) => l
      | none => vline next
    copyPiece src dst x0 x1 x2 fill line 512 s c
  | _ => .fail s (c.failed 0 0)

def State.copierAt (s : State) (cluster : Nat) : List Cmd := Table.get [] s.copiers cluster
def State.collectorAt (s : State) (die : Nat) : List Cmd := Table.get [] s.collectors die

/-- A step of a copy engine whose head is of a kind (R295). -/
def State.runCopier (s : State) (cluster eng : Nat) : State :=
  match (s.copierAt cluster).head? with
  | some c => if c.eng = eng then s.runCmd c copyStep else s
  | none => s

/-- CPY_EXECUTE (R298). -/
def execCpyExecute (cluster : Nat) (s : State) : Host.Outcome State Fault Refusal := .next (s.runCopier cluster 0)

/-- CPYR_EXECUTE (R299). -/
def execCpyrExecute (cluster : Nat) (s : State) : Host.Outcome State Fault Refusal := .next (s.runCopier cluster 1)

/-- FILL_EXECUTE (R300). -/
def execFillExecute (cluster : Nat) (s : State) : Host.Outcome State Fault Refusal := .next (s.runCopier cluster 2)

/-! ## Issue (R294) -/

/-- The parts of lines that n bytes from an address lie in. -/
def partsOf (va : Word) (n : Nat) : List (Word × Nat) :=
  if n = 0 then []
  else
    let o := va.toNat % 64
    (List.range ((o + n + 63) / 64)).map fun k =>
      let lo := if k = 0 then 0 else 64 * k - o
      (va + .ofNat 64 lo, min (64 * (k + 1) - o) n - lo)

/-- Checks 1 to 5 of one part of a line that a command reads or writes. -/
def State.checkPart (s : State) (va : Word) (n : Nat) (w : Bool) : Except Stop Unit :=
  let x := s.slot
  match partSeg x va n (if w then writeNeed x va else readNeed x va) with
  | .error e => .error e
  | .ok () =>
    match s.checkWin s.coreIdx x.part va n with
    | .error e => .error e
    | .ok .w4 => .error (.of .segBound va)
    | .ok _ => .ok ()

/-- The checks of every line of a command, spans given by address, bytes and whether they are written: the lowest failing
address decides (R294). -/
def State.checkSpans (s : State) (l : List (Word × Nat × Bool)) : Except Stop Unit :=
  let bad := l.flatMap fun e => (partsOf e.1 e.2.1).filterMap fun a =>
    match s.checkPart a.1 a.2 e.2.2 with
    | .error f => some (a.1, f)
    | .ok () => none
  match bad.foldl (fun (b : Option (Word × Stop)) e => match b with
      | none => some e
      | some f => if e.1.toNat < f.1.toNat then some e else some f) none with
  | none => .ok ()
  | some (_, e) => .error e

/-- Some written line is in the Instant domain. -/
def State.writesInst (s : State) (l : List (Word × Nat × Bool)) : Bool :=
  l.any fun e => e.2.2 && (partsOf e.1 e.2.1).any fun a => (writeNeed s.slot a.1).i

/-- The instant fields of a block (R72): read and visibility instants, or none when a form is reserved. -/
def blockInsts (w : Word) : Option (InstField × InstField) :=
  match InstField.ofCode (w.toNat / 2 ^ 16 % 2 ^ 16), InstField.ofCode (w.toNat % 2 ^ 16) with
  | some r, some v => some (r, v)
  | _, _ => none

/-- A command of the thread that acts, as it is accepted (R294): what is sampled, and the block's words. -/
def State.newCmd (s : State) (unit eng : Nat) (rdi vsi : InstField) (hnd tag cid : Word) (work : Work) (inst : Bool) : Cmd :=
  let c := s.ctx
  let r := s.part.regs
  { stamp := s.stamp, unit := unit, eng := eng, part := s.slot.part, core := s.coreIdx, task := s.slot.task
    seg := some s.slot.seg, ord := c.ord, slip := c.pol, rel := c.rel
    rdi := instField rdi c.rel c.rel s.part.now, vsi := instField vsi c.vis c.rel s.part.now
    mode := r.rmode, sat := r.fmt.getLsbD 0, key := r.srkey, hnd := hnd, tag := tag, cid := cid, work := work
    inst := inst }

/-- The thread's record of commands that STSYNC waits for. -/
def State.noteCmd (s : State) (stamp : Nat) : State :=
  s.setSlot { s.slot with cmds := s.slot.cmds ++ [stamp] }

/-- The end of an issue (R294): ORD, the queue, and p[d]. -/
def accept (d : Pred) (va : Word) (queue : List Cmd) (put : State → State) (s : State) : Out :=
  if s.ctx.seqNo = 0xFFFF then .stop (.of .instantMiss va)
  else if s.share64 ≤ (queue.filter fun c => c.part == s.slot.part).length ∨ 64 ≤ queue.length then .setP d false s
  else
    let t := (put s).noteCmd s.stamp
    .setP d true (t.setCtx t.ctx.nextOrd).bump

/-- The head of every issue: no choice point, and the block. -/
def withCommand (i : Instr) (a : Reg) (k : Vec → State → Out) (s : State) : Out :=
  if s.slot.open_ then .stop (.of .choiceEscape (s.g a))
  else withBlock i 0 (s.g a) 64 { r := true, n := true } k s

/-- A handle field through its k-reference (R269). -/
def State.handleOf (s : State) (h : Nat) : Nat := if 0xFFFFFFF8 ≤ h then s.slot.k[h % 8]!.toNat else h

/-- Three 20-bit fields. -/
def triple (w : Word) : Nat × Nat × Nat := (w.toNat % 2 ^ 20, w.toNat / 2 ^ 20 % 2 ^ 20, w.toNat / 2 ^ 40 % 2 ^ 20)

/-- A handle's tile from an origin, where R297 accepts it. -/
def Shape.tile (h : Shape) (o x : Nat × Nat × Nat) : Option View :=
  let z := max 1 (elemBits h.fmt / 8)
  if o.1 + x.1 ≤ h.e0 ∧ o.2.1 + x.2.1 ≤ h.e1 ∧ o.2.2 + x.2.2 ≤ h.e2 ∧ h.base.toNat % z = 0 ∧ h.p1.toNat % z = 0
      ∧ h.p2.toNat % z = 0 ∧ (h.fmt = .i4 → o.1 % 2 = 0 ∧ x.1 % 2 = 0) then
    some ⟨h.fmt, View.at_ ⟨h.fmt, h.base, h.p1, h.p2⟩ o.1 o.2.1 o.2.2, h.p1, h.p2⟩
  else none

/-- The rows of a tile as spans. -/
def View.spans (v : View) (x : Nat × Nat × Nat) (w : Bool) : List (Word × Nat × Bool) :=
  (List.range x.2.2).flatMap fun i2 => (List.range x.2.1).map fun i1 => (v.at_ 0 i1 i2, rowBytes v.fmt x.1, w)

/-- The block of CPY (ENG 0), CPYR (1) and FILL (2), checked and accepted (R294, R297): SH, then DH, then the shapes (log entry 127). -/
def copyIssue (eng : Nat) (d : Pred) (a : Reg) (b : Vec) (s : State) : Out :=
  let va := s.g a
  let bad := Out.stop (.of .tileShape va)
  let sh := (dw b 0).toNat / 2 ^ 32
  let dh := (dw b 0).toNat % 2 ^ 32
  let top := fun (w : Word) => decide (w.toNat / 2 ^ 60 = 0)
  let e := triple (dw b 3)
  let x := (e.1 + 1, e.2.1 + 1, e.2.2 + 1)
  let reserved := top (dw b 1) && top (dw b 3) && decide ((dw b 4).toNat / 2 ^ 32 = 0) && (eng == 1 || top (dw b 2))
    && (eng != 0 || dw b 7 == 0) && (eng != 1 || dh == 0) && (eng != 2 || (sh == 0 && dw b 1 == 0))
  match blockInsts (dw b 4) with
  | none => bad
  | some (rdi, vsi) =>
    if !reserved then bad
    else
      let src := if eng = 2 then none else s.part.shape (s.handleOf sh)
      let dst := if eng = 1 then none else s.part.shape (s.handleOf dh)
      if eng ≠ 2 ∧ src.isNone then .stop (.of .handleStale (.ofNat 64 (s.handleOf sh)))
      else if eng ≠ 1 ∧ dst.isNone then .stop (.of .handleStale (.ofNat 64 (s.handleOf dh)))
      else
        let from_ := src.bind fun h => h.tile (triple (dw b 1)) x
        let dp1 := (dw b 2).toNat % 2 ^ 32
        let dp2 := (dw b 2).toNat / 2 ^ 32
        let to_ := if eng = 1 then
            from_.bind fun v =>
              if dp1 < rowBytes v.fmt x.1 ∨ (1 < x.2.2 ∧ dp2 < dp1 * x.2.1) then none
              else some ⟨v.fmt, dw b 7, .ofNat 64 dp1, .ofNat 64 dp2⟩
          else dst.bind fun h => h.tile (triple (dw b 2)) x
        match to_ with
        | none => bad
        | some v =>
          if src.isSome ∧ from_.isNone then bad
          else
            let spans := (match from_ with
              | some u => u.spans x false
              | none => []) ++ v.spans x true
            .bind (s.checkSpans spans) fun () =>
              let q := s.copierAt s.cluster
              accept d va q (fun s =>
                let c := s.newCmd 0 eng rdi vsi (dw b 5) (dw b 6) 0
                  (.copy from_ v x.1 x.2.1 x.2.2 (dw b 7)) (s.writesInst spans)
                { s with copiers := Table.set s.copiers s.cluster (q ++ [c]) }) s

/-- CPY (R294, R298). -/
def execCpy (g : Guard) (p : Pred) (a : Reg) (s : State) : Host.Outcome State Fault Refusal :=
  issue (.cpy g p a) g 0 false (withCommand (.cpy g p a) a (copyIssue 0 p a)) s

/-- CPYR (R294, R299). -/
def execCpyr (g : Guard) (p : Pred) (a : Reg) (s : State) : Host.Outcome State Fault Refusal :=
  issue (.cpyr g p a) g 0 false (withCommand (.cpyr g p a) a (copyIssue 1 p a)) s

/-- FILL (R294, R300). -/
def execFill (g : Guard) (p : Pred) (a : Reg) (s : State) : Host.Outcome State Fault Refusal :=
  issue (.fill g p a) g 0 false (withCommand (.fill g p a) a (copyIssue 2 p a)) s

/-! ## Collectives (R304 to R308) -/

/-- Reads n doublewords of a communicator record, from its j-th block on. -/
def withRecord (i : Instr) (va : Word) (k : List Word → State → Out) : Nat → Nat → List Word → State → Out
  | 0, _, acc => k acc
  | n + 1, j, acc => withBlock i (j + 1) (va + .ofNat 64 (8 * j)) 8 { r := true, n := true } fun v =>
      withRecord i va k n (j + 1) (acc ++ [dw v 0])

/-- A rank's input bytes and output bytes (R305). -/
def CollDesc.lens (d : CollDesc) (ranks : Nat) : Nat × Nat :=
  let n := rowBytes d.t d.count
  (if d.op = .rscatter then ranks * n else n, if d.op = .allgather then ranks * n else n)

/-- COLL with its block and its record read (R304 to R306); the engine numbers a contribution by a record of another device when it
comes to it (log entry 48). A count, a root or a device count out of its range raises TILE-SHAPE (log entry 121). -/
def collIssue (d : Pred) (a : Reg) (op : CollOp) (t : Elem) (red : Red) (b : Vec) (rec_ : List Word) (s : State) : Out :=
  let va := s.g a
  let comm := dw b 0
  let cid := rec_.getD 0 0
  let ndev := cid.toNat / 2 ^ 51 + 1
  let dies : Byte := cid.extractLsb' 43 8
  let devs := (List.range ndev).map fun m => (rec_.getD (2 + m / 4) 0).toNat / 2 ^ (16 * (m % 4)) % 2 ^ 16
  let die := s.coreIdx / 256
  let per := countDies dies
  let ranks := ndev * per
  let count := (dw b 3).toNat
  let root := (dw b 7).toNat
  let z := max 1 (elemBits t / 8)
  if dies = 0 ∨ dies &&& ~~~ s.dev.dies ≠ 0 ∨ dies.getLsbD die = false ∨ 6144 < ndev
      ∨ (devs.filter (· == s.ownIdx)).length ≠ 1 ∨ (rec_.getD 1 0).toNat % 2 ^ 32 ≠ 0 then .stop (.of .tileShape comm)
  else match blockInsts (dw b 4) with
  | none => .stop (.of .tileShape va)
  | some (rdi, vsi) =>
    if count = 0 ∨ 2 ^ 28 < count ∨ (t = .i4 ∧ count % 2 = 1) ∨ ranks ≤ root ∨ (op ≠ .reduce ∧ root ≠ 0) then
      .stop (.of .tileShape va)
    else
      let j := ((List.range die).filter fun k => dies.getLsbD k).length
      let rank := devs.findIdx (· == s.ownIdx) * per + j
      let desc : CollDesc := ⟨op, t, red, count, root⟩
      let lens := desc.lens ranks
      let writes := op ≠ .reduce ∨ rank = root
      if (dw b 1).toNat % z ≠ 0 then .stop (.of .align (dw b 1))
      else if writes ∧ (dw b 2).toNat % z ≠ 0 then .stop (.of .align (dw b 2))
      else
        let spans := (dw b 1, lens.1, false) :: (if writes then [(dw b 2, lens.2, true)] else [])
        let calls := comm + 12
        .bind (s.checkSpans ((comm + 8, 8, true) :: spans)) fun () =>
        .bind (s.access (comm + 8) 8 { w := true, n := true }) fun where_ =>
          let q := s.collectorAt die
          let go := fun (num : Half) (entry : Word) (put : State → State) =>
            accept d va q (fun s =>
              let part : CollPart := { cid := cid, num := num, rank := rank, desc := desc, data := 0, fail := none }
              let c : Cmd := { s.newCmd 0 3 rdi vsi (dw b 5) (dw b 6) cid
                (.coll (dw b 1) lens.1 (dw b 2) part ranks devs per) (s.writesInst spans) with size := lens.2, entry := entry }
              { put s with collectors := Table.set s.collectors die (q ++ [c]) }) s
          match where_ with
          | .here pl =>
            let at_ : Place := { pl with phys := pl.phys + 4 }
            .bind (s.readAt calls at_ 4) fun num =>
              go (.ofNat 32 num) 0 fun s => match s.unitNow s.slot.part s.coreIdx calls at_ 4 ((num + 1) % 2 ^ 32) with
                | .ok s => s
                | .error _ => s
          | .away _ => go 0 calls id
          | .reg _ => .stop (.of .segBound (comm + 8))

/-- COLL's issue: its block, then its communicator record. -/
def collective (i : Instr) (d : Pred) (a : Reg) (op : CollOp) (t : Elem) (red : Red) : State → Out :=
  withCommand i a fun b s =>
    let clear := fun (w : Word) (n : Nat) => decide (w.toNat / 2 ^ n = 0)
    if !(clear (dw b 3) 32 && clear (dw b 4) 32 && clear (dw b 7) 16) then .stop (.of .tileShape (s.g a))
    else withBlock i 1 (dw b 0) 8 { r := true, n := true } (fun v s =>
      let ndev := (dw v 0).toNat / 2 ^ 51 + 1
      withRecord i (dw b 0) (fun l s => collIssue d a op t red b (dw v 0 :: l) s) (1 + (ndev + 3) / 4) 1 [] s) s

/-- COLL.reduce (R305, R307). -/
def execCollReduce (g : Guard) (p : Pred) (a : Reg) (t : Elem) (r : Red) (s : State) :
    Host.Outcome State Fault Refusal :=
  issue (.collReduce g p a t r) g 0 false (collective (.collReduce g p a t r) p a .reduce t r) s

/-- COLL.allreduce (R305, R307). -/
def execCollAllreduce (g : Guard) (p : Pred) (a : Reg) (t : Elem) (r : Red) (s : State) :
    Host.Outcome State Fault Refusal :=
  issue (.collAllreduce g p a t r) g 0 false (collective (.collAllreduce g p a t r) p a .allreduce t r) s

/-- COLL.rscatter (R305, R307). -/
def execCollRscatter (g : Guard) (p : Pred) (a : Reg) (t : Elem) (r : Red) (s : State) :
    Host.Outcome State Fault Refusal :=
  issue (.collRscatter g p a t r) g 0 false (collective (.collRscatter g p a t r) p a .rscatter t r) s

/-- COLL.allgather (R305). -/
def execCollAllgather (g : Guard) (p : Pred) (a : Reg) (t : Elem) (s : State) : Host.Outcome State Fault Refusal :=
  issue (.collAllgather g p a t) g 0 false (collective (.collAllgather g p a t) p a .allgather t .sum) s

/-- op of a reduction on two element codes (R307). -/
def redOp (t : Elem) (r : Red) (x y : Nat) : Nat :=
  let w := elemBits t
  if elemFloat t then
    let f := match r with
      | .sum => Num.add false
      | .max => Num.max
      | .min => Num.min
    toFloat t .rne 0 false (f (floatVal t x) (floatVal t y))
  else
    let a := sint w x
    let b := sint w y
    bitsOf w (match r with
      | .sum => a + b
      | .max => max a b
      | .min => min a b)

/-- part(m): the members' dies in ascending order (R307). -/
def collMember (t : Elem) (r : Red) (per : Nat) (x : Nat → Nat) (m : Nat) : Nat :=
  (List.range (per - 1)).foldl (fun v j => redOp t r v (x (m * per + j + 1))) (x (m * per))

/-- ctree over n members from `lo` (R307). -/
def collTree (t : Elem) (r : Red) (part : Nat → Nat) : Nat → Nat → Nat → Nat
  | 0, lo, _ => part lo
  | f + 1, lo, n =>
    if n ≤ 1 then part lo
    else
      let h := 2 ^ Nat.log2 (n - 1)
      redOp t r (collTree t r part f lo h) (collTree t r part f (lo + h) (n - h))

/-- The bytes that a rank receives (R305, R307). -/
def collResult (d : CollDesc) (parts : List CollPart) (per rank : Nat) : Nat :=
  let w := elemBits d.t
  let x := fun (k q : Nat) => (parts[q]?).elim 0 fun p => p.data / 2 ^ (w * k) % 2 ^ w
  let red := fun (k : Nat) => collTree d.t d.red (collMember d.t d.red per (x k)) 14 0 (parts.length / per)
  let reduced := fun (first : Nat) => (List.range d.count).foldr (fun k a => red (first + k) + 2 ^ w * a) 0
  match d.op with
  | .reduce => if rank = d.root then reduced 0 else 0
  | .allreduce => reduced 0
  | .rscatter => reduced (rank * d.count)
  | .allgather => parts.foldr (fun p a => p.data + 2 ^ (w * d.count) * a) 0

/-- A contribution is there (R306). -/
def State.joinColl (s : State) (p : Fin 8) (c : CollPart) : State :=
  let mine := fun (g : CollGroup) => g.part == p && g.cid == c.cid && g.num == c.num
  let add := fun (g : CollGroup) => if mine g then { g with parts := Table.set g.parts c.rank c } else g
  if s.groups.any mine then { s with groups := s.groups.map add }
  else { s with groups := s.groups ++ [⟨p, c.cid, c.num, [(c.rank, c)], 0⟩] }

/-- A rank of this device has its result; the last one ends the collective here. -/
def State.leaveColl (s : State) (p : Fin 8) (c : CollPart) (per : Nat) : State :=
  let mine := fun (g : CollGroup) => g.part == p && g.cid == c.cid && g.num == c.num
  let groups := s.groups.map fun g => if mine g then { g with taken := g.taken + 1 } else g
  { s with groups := groups.filter fun g => !(mine g && decide (per ≤ g.taken)) }

/-- A contribution joins here and goes to the other member devices. -/
def State.contribute (s : State) (p : Fin 8) (devs : List Nat) (c : CollPart) : State :=
  (devs.filter (· != s.ownIdx)).foldl (fun s d => s.export d ⟨p, .collPart c⟩) (s.joinColl p c)

/-- What all contributions give a rank (R306): a cause and an address, or its bytes. -/
def collOutcome (parts : List CollPart) (per rank : Nat) : Except (Byte × Word) Nat :=
  match parts.find? fun c => c.fail.isSome, parts with
  | some c, _ => match c.fail with
    | some (cause, va) => .error (cause, if c.rank = rank then va else 0)
    | none => .error (0, 0)
  | none, c :: r => if r.all fun e => e.desc == c.desc then .ok (collResult c.desc parts per rank)
    else .error (Cause.tileShape.code, 0)
  | none, [] => .ok 0

/-- Numbers a contribution by its record on another device, which then counts it (R306; log entry 48). -/
def numberColl (s : State) (c : Cmd) : Did :=
  match c.work, s.cmdPlace c c.entry 4 true with
  | .coll src bytes dst part ranks devs per, .ok (.away e) =>
    match cmdRead c.entry 4 s c with
    | .ok v s c =>
      let num : Half := .ofNat 32 v
      .wait (s.export e ⟨c.part, .unitRequest c.stamp (.write c.entry ⟨0, 0, false⟩ 4 ((num + 1).setWidth 512))⟩)
        { c with entry := 0, flight := some (c.entry, 0, true), out := c.out + 1
                 work := .coll src bytes dst { part with num := num } ranks devs per }
    | r => r
  | _, .error x => s.cmdStop c x
  | _, _ => .fail s (c.failed Cause.segBound.code c.entry)

/-- One step of a collective's command (R306). -/
def collStep (s : State) (c : Cmd) : Did :=
  match c.work with
  | .coll src bytes dst part ranks devs per =>
    match c.stage with
    | .begin_ =>
      if c.entry ≠ 0 then numberColl s c
      else if s.net.any fun p => match p.body with
          | .inval .. => true
          | _ => false
      then .wait s c else .wait s { c with stage := .read }
    | .read =>
      if bytes ≤ c.pos then
        let part := { part with data := c.data }
        .wait (s.contribute c.part devs part) { c with stage := .join, pos := 0, data := 0 }
      else
        let va := src + .ofNat 64 c.pos
        let n := min (64 - va.toNat % 64) (bytes - c.pos)
        match cmdRead va n s c with
        | .ok v s c => .wait s { c with pos := c.pos + n, data := c.data + 2 ^ (8 * c.pos) * v }
        | .wait s c => .wait s c
        | .fail s e =>
          let part := { part with fail := some (e.status, e.tval) }
          .wait (s.contribute c.part devs part) { c with stage := .join, pos := 0, data := 0, got := none, hold := none }
    | .join =>
      let parts := ((s.groups.find? fun g => g.part == c.part && g.cid == part.cid && g.num == part.num).elim []
        fun g => g.parts).map (·.2)
      if parts.length < ranks then
        if devs.any fun d => d != s.ownIdx && (s.reachOf d).isNone
            && ((List.range per).any fun j => !parts.any fun p => p.rank == devs.findIdx (· == d) * per + j) then
          .fail s (c.failed Cause.fabricUnreachable.code 0)
        else .wait s c
      else
        let s := s.leaveColl c.part part per
        match collOutcome parts per part.rank with
        | .error (cause, va) => .fail s (c.failed cause va)
        | .ok v =>
          let none_ := part.desc.op = .reduce ∧ part.rank ≠ part.desc.root
          .wait s { c with stage := .write, data := v, size := if none_ then 0 else c.size }
    | .write => writeOut dst s c
    | .ended => .wait s c
  | _ => .fail s (c.failed 0 0)

/-- COLL_EXECUTE (R306, R307). -/
def execCollExecute (die : Nat) (s : State) : Host.Outcome State Fault Refusal :=
  match (s.collectorAt die).head? with
  | some c => .next (s.runCmd c collStep)
  | none => .next s

/-! ## STSYNC (R176) -/

/-- STSYNC (R176): the Instant-domain writes of the thread's commands, then a drain. -/
def execStsync (g : Guard) (c : Scope) (s : State) : Host.Outcome State Fault Refusal :=
  issue (.stsync g c) g 0 false (fun s =>
    if s.commands.any fun e => s.slot.cmds.contains e.stamp && !e.instDone then .stay (s.await (.stsync g c) .stsync)
    else drain (.stsync g c) c .seq s) s

end Sys2Proof.Machine
end

