-- ==== Sys2Proof/Machine/Grammar.lean ====
section
/-! DEFINITION. Grammar and sampling (14_grammar, R310 to R330): the automaton and the trie, MASK on the Sphinx engine, PADV,
SAMPLE and ARGMX. A walk is a function of what has been read of the image; what it lacks is read next. -/

namespace Sys2Proof.Machine

/-! ## Reading -/

/-- What has been read: address, bytes and value. -/
abbrev Cache := List (Word × Nat × Nat)

/-- Why a walk stops: it lacks a read, or the image breaks its layout (R311). -/
inductive Hitch
  | need (va : Word) (n : Nat)
  | format
  deriving DecidableEq, Repr

/-- A value that has been read. -/
def Cache.look (c : Cache) (va : Word) (n : Nat) : Except Hitch Nat :=
  match c.find? fun e => e.1 == va && e.2.1 == n with
  | some e => .ok e.2.2
  | none => .error (.need va n)

/-- A test that the layout asks for. -/
def Hitch.unless (b : Bool) : Except Hitch Unit := if b then .ok () else .error .format

/-- The j-th read of the instruction (R294): n bytes by request, at an instant where the segment grants I. -/
def withPart (i : Instr) (j : Nat) (va : Word) (n : Nat) (inst : Instant) (k : Nat → State → Out) (s : State) : Out :=
  match s.slot.prog.got[j]? with
  | some v => k v.toNat s
  | none =>
    let q := readNeed s.slot va
    let keep := fun (v : Nat) (s : State) =>
      let p := s.slot.prog
      k v (s.setSlot { s.slot with prog := { p with got := p.got ++ [.ofNat 512 v] } })
    .bind (s.access va n q) fun t =>
      match t with
      | .reg _ => .stop (.of .segBound va)
      | .away d => requestAway i d (if q.i then .version va ⟨0, 0, false⟩ n inst else .read va ⟨0, 0, false⟩ n .plain) .block s
      | .here pl =>
        if q.i then
          if s.part.now.toNat < inst.toNat then .stay (s.await i (.instant inst))
          else .bind (s.versionAt s.slot.part va pl n inst) fun v => keep v s
        else .bind (s.readAt va pl n) fun v => keep v s

/-- Goes on with what a walk finds, reading what it lacks from the j-th read on; it tells how many reads there were. -/
def withWalk {α : Type} (i : Instr) (inst : Instant) (f : Cache → Except Hitch α) (bad : Stop) (k : α → Nat → State → Out) :
    Nat → Nat → Cache → State → Out
  | 0, _, _, _ => .stop bad
  | m + 1, j, c, s =>
    match f c with
    | .ok x => k x j s
    | .error .format => .stop bad
    | .error (.need va n) =>
      withPart i j va n inst (fun v s => withWalk i inst f bad k m (j + 1) (c ++ [(va, n, v)]) s) s

/-- No walk makes more reads: each is of one byte or one doubleword that it has not read before. -/
def walkReads : Nat := 2 ^ 65 + 1

/-! ## The image (R312 to R317) -/

/-- The header's fields (R313). -/
structure Image where
  cap : Nat
  nsymm : Nat
  nstm : Nat
  states : Word
  trans : Word
  trie : Word
  toktab : Word
  hasEot : Bool
  eot : Nat
  ntokm : Nat
  deriving DecidableEq, Repr

/-- A header that keeps its layout. -/
def imageOf (h : Vec) : Option Image :=
  let f := fun (w lo n : Nat) => (dw h w).toNat / 2 ^ lo % 2 ^ n
  if f 0 48 16 ≠ 0 ∨ f 0 24 8 ≠ 0 ∨ f 5 53 11 ≠ 0 ∨ f 5 20 12 ≠ 0 ∨ dw h 6 ≠ 0 ∨ dw h 7 ≠ 0 ∨ f 0 32 16 = 0
      ∨ f 1 0 3 ≠ 0 ∨ f 2 0 3 ≠ 0 ∨ f 3 0 3 ≠ 0 ∨ f 4 0 3 ≠ 0 then none
  else some {
    cap := f 0 32 16, nsymm := f 0 16 8, nstm := f 0 0 16, states := dw h 1, trans := dw h 2, trie := dw h 3
    toktab := dw h 4, hasEot := f 5 52 1 = 1, eot := f 5 32 20, ntokm := f 5 0 20 }

/-- A configuration with its overlay: symbols pushed, newest first (R312, R320). -/
structure Pda where
  state : Nat
  depth : Nat
  written : List (Nat × Nat) := []
  deriving DecidableEq, Repr

/-- A state's entry (R314): whether it accepts, its first transition and their number. -/
def Image.entry (m : Image) (c : Cache) (s : Nat) : Except Hitch (Bool × Nat × Nat) := do
  let w ← c.look (m.states + .ofNat 64 (8 * s)) 8
  Hitch.unless (w / 2 ^ 48 % 2 ^ 15 = 0)
  return (w / 2 ^ 63 = 1, w % 2 ^ 32, w / 2 ^ 32 % 2 ^ 16)

/-- The symbol at a position of the stack, through the overlay. -/
def Pda.symbol (x : Pda) (c : Cache) (stk : Word) (pos : Nat) : Except Hitch Nat :=
  match x.written.find? fun e => e.1 == pos with
  | some e => .ok e.2
  | none => c.look (stk + .ofNat 64 pos) 1

/-- What a step by one byte gives (R315): the next configuration and the depth after any pop, or why there is none. -/
inductive Move
  | goes (x : Pda) (low : Nat)
  | noMatch
  | under
  | overflow
  deriving DecidableEq, Repr

/-- The scan of a state's transitions from x on (R315). -/
def Image.scan (m : Image) (c : Cache) (stk : Word) (q : Pda) (b : Nat) : Nat → Nat → Except Hitch Move
  | 0, _ => .ok .noMatch
  | n + 1, x => do
    let w ← c.look (m.trans + .ofNat 64 (8 * x)) 8
    let f := fun (lo k : Nat) => w / 2 ^ lo % 2 ^ k
    let next := f 48 16
    let psym := f 32 8
    let top := f 16 8
    Hitch.unless (decide (f 40 8 = 0) && decide (f 28 4 = 0) && decide (f 24 2 ≠ 3) && decide (f 0 8 ≤ f 8 8)
      && decide (next ≤ m.nstm) && decide (top ≤ m.nsymm) && decide (psym ≤ m.nsymm))
    if b < f 0 8 ∨ f 8 8 < b then m.scan c stk q b n (x + 1)
    else
      let holds ← match f 24 2 with
        | 0 => if q.depth = 0 then pure false else do
            let y ← q.symbol c stk (q.depth - 1)
            pure (decide (y = top))
        | 1 => pure true
        | _ => pure (decide (q.depth = 0))
      if !holds then m.scan c stk q b n (x + 1)
      else
        let pops := decide (2 ≤ f 26 2)
        let pushes := decide (f 26 2 % 2 = 1)
        if pops && q.depth == 0 then return .under
        else
          let low := q.depth - pops.toNat
          if pushes && low == m.cap then return .overflow
          else
            let q := if pushes then { state := next, depth := low + 1, written := (low, psym) :: q.written }
              else ({ state := next, depth := low, written := q.written } : Pda)
            let _ ← m.entry c next
            return .goes q low

/-- A step by one byte (R315). -/
def Image.step (m : Image) (c : Cache) (stk : Word) (q : Pda) (b : Nat) : Except Hitch Move := do
  let (_, first, n) ← m.entry c q.state
  m.scan c stk q b n first

/-- A trie node's header (R316): whether a token ends there, its id, and its children. -/
def Image.node (m : Image) (c : Cache) (va : Word) : Except Hitch (Bool × Nat × Nat) := do
  let w ← c.look va 8
  let t := decide (w / 2 ^ 63 = 1)
  let tok := w / 2 ^ 32 % 2 ^ 20
  Hitch.unless (decide (w / 2 ^ 52 % 2 ^ 11 = 0) && decide (w / 2 ^ 9 % 2 ^ 23 = 0) && decide (w % 2 ^ 9 ≤ 256)
    && (!t || decide (tok ≤ m.ntokm)))
  return (t, tok, w % 2 ^ 9)

/-- The walk from a node with n children (R320): the bits set, added to those before. The first argument bounds the depth of
a node by 64. -/
def Image.walk (m : Image) (c : Cache) (stk : Word) : Nat → Word → Nat → Pda → Nat → Except Hitch Nat
  | 0, _, _, _, _ => .error .format
  | d + 1, va, n, q, bits => do
    let r ← (List.range n).foldlM (fun (a : Nat × Option Nat) k => do
      let w ← c.look (va + .ofNat 64 (8 * (k + 1))) 8
      let b := w % 256
      Hitch.unless (decide (w / 256 % 8 = 0) && (match a.2 with
        | some p => decide (p < b)
        | none => true))
      match ← m.step c stk q b with
      | .goes x _ =>
        let child := m.trie + .ofNat 64 (w / 256)
        let (t, tok, kids) ← m.node c child
        let bits ← m.walk c stk d child kids x (if t then a.1 ||| 2 ^ tok else a.1)
        return (bits, some b)
      | _ => return (a.1, some b)) (bits, none)
    return r.1

/-- All of MASK's walk (R320): the mask's bits. The stack's bytes are read first. -/
def Image.mask (m : Image) (stk : Word) (cfg : Word) (c : Cache) : Except Hitch Nat := do
  let q : Pda := { state := cfg.toNat % 2 ^ 16, depth := cfg.toNat / 2 ^ 16 % 2 ^ 16 }
  let _ ← (List.range q.depth).mapM fun k => c.look (stk + .ofNat 64 k) 1
  let (acc, _, _) ← m.entry c q.state
  let (t, _, kids) ← m.node c m.trie
  Hitch.unless (!t)
  let bits := if m.hasEot && acc && q.depth == 0 && decide (m.eot ≤ m.ntokm) then 2 ^ m.eot else 0
  m.walk c stk 65 m.trie kids q bits

/-- The mask's bytes (R318). -/
def Image.maskSize (m : Image) : Nat := (m.ntokm + 64) / 64 * 8

/-- A configuration that R319 and R323 accept. -/
def Image.accepts (m : Image) (cfg : Word) : Bool :=
  decide (cfg.toNat / 2 ^ 32 = 0) && decide (cfg.toNat % 2 ^ 16 ≤ m.nstm) && decide (cfg.toNat / 2 ^ 16 ≤ m.cap)

/-! ## The Sphinx engine (R310, R320 to R322) -/

def State.sphinxAt (s : State) (cluster : Nat) : Sphinx := Table.get {} s.sphinxes cluster
def State.setSphinxAt (s : State) (cluster : Nat) (x : Sphinx) : State :=
  { s with sphinxes := Table.set s.sphinxes cluster x }

/-- A slot that has asked for the engine waits for it, or its PADV or MASK is being performed (R310, R321). -/
def State.asking (s : State) (n : Nat) : Bool :=
  let x := s.slotAt n
  (match x.run with
    | .waiting .unit | .waiting .reply | .waiting (.instant _) | .runnable => true
    | _ => false) && (match x.prog.word.bind decode with
    | some (.padv ..) | some (.mask ..) => true
    | _ => false)

/-- Bits set of the first n. -/
def countBits (x n : Nat) : Nat := ((List.range n).filter x.testBit).length

/-- One step of a MASK (R320). -/
def maskStep (s : State) (c : Cmd) : Did :=
  match c.work with
  | .mask blk hdr =>
    match imageOf hdr with
    | none => .fail s (c.failed Cause.pdaFormat.code 0)
    | some m =>
      match c.stage with
      | .begin_ =>
        if (s.sphinxAt (c.core / 16)).asks.any s.asking then .wait s c else .wait s { c with stage := .read }
      | .read =>
        match m.mask (dw blk 1) (dw blk 2) c.cache with
        | .error .format => .fail s (c.failed Cause.pdaFormat.code 0)
        | .error (.need va n) =>
          match cmdRead va n s c with
          | .ok v s c => .wait s { c with cache := c.cache ++ [(va, n, v)] }
          | r => r
        | .ok bits =>
          .wait s { c with
            stage := .write, data := bits, size := m.maskSize, pos := 0, count := some (countBits bits (m.ntokm + 1)) }
      | .write => writeOut (dw blk 3) s c
      | .join | .ended => .wait s c
  | _ => .fail s (c.failed 0 0)

/-- MASK_WALK (R320): the engine's head. -/
def execMaskWalk (cluster : Nat) (s : State) : Host.Outcome State Fault Refusal :=
  match (s.sphinxAt cluster).queue.head? with
  | none => .next s
  | some c => .next (s.runCmd c maskStep)

/-- A command of the engine is in progress. -/
def Sphinx.working (x : Sphinx) : Bool := x.queue.head?.any fun c => c.stage != .begin_

/-- The instruction that has asked first goes on when no command is in progress (R310). -/
def State.offerSphinxes (s : State) : State :=
  s.sphinxes.foldl (fun s e =>
    let asks := e.2.asks.filter s.asking
    let s := s.setSphinxAt e.1 { e.2 with asks := asks }
    match asks with
    | n :: _ => if !e.2.working && (s.slotAt n).run == .waiting .unit then s.resumeSlot n else s
    | [] => s) s

/-- The engine performs an instruction of the thread that acts, once the command in progress has ended, and after those that
have asked before it (R310, R321). -/
def withSphinx (i : Instr) (k : State → Out) (s : State) : Out :=
  let x := s.sphinxAt s.cluster
  let asks := x.asks.filter fun n => n == s.cur || s.asking n
  let x := { x with asks := if asks.contains s.cur then asks else asks ++ [s.cur] }
  let s := s.setSphinxAt s.cluster x
  if x.working || x.asks.head? != some s.cur then .stay (s.await i .unit) else k s

/-- The block and the header, checked as MASK and PADV do (R319, R323). -/
def withGrammar (i : Instr) (a : Reg) (inst : Option InstField → State → Instant) (k : Vec → Image → State → Out) :
    State → Out :=
  fun s =>
    let bad := Stop.of .pdaFormat (s.g a)
    withBlock i 0 (s.g a) 64 { r := true, n := true } (fun b s =>
      match blockInsts (dw b 4) with
      | none => .stop bad
      | some (rdi, _) =>
        let at_ := s.instOr (inst (some rdi) s)
        withPart i 1 (dw b 0) 64 at_ (fun h s =>
          match imageOf (.ofNat 512 h) with
          | none => .stop bad
          | some m => if (dw b 4).toNat / 2 ^ 32 ≠ 0 ∨ dw b 7 ≠ 0 then .stop bad else k b m s) (s.keepInst at_)) s

/-- Writes doublewords of the arena by mem_write, trailed (R321). -/
def writeDwords (va : Word) (x : Nat) : Nat → State → Except Stop State
  | 0, s => .ok s
  | n + 1, s =>
    (writeDwords va x n s).bind fun s =>
      let a := va + .ofNat 64 (8 * n)
      (guardArena a 8 s).bind fun s =>
        (s.access a 8 { w := true, n := true }).bind fun t => match t with
          | .here pl => s.storeAt a pl 8 (x / 2 ^ (64 * n) % 2 ^ 64)
          | _ => .error (.of .choiceEscape va)

/-- MASK (R319, R321). -/
def execMask (g : Guard) (p : Pred) (a : Reg) (s : State) : Host.Outcome State Fault Refusal :=
  let i : Instr := .mask g p a
  issue i g 0 true (withGrammar i a (fun f s => instField (f.getD .dflt) s.ctx.rel s.ctx.rel s.part.now) fun b m s =>
    let va := s.g a
    let mout := dw b 3
    let cfg := dw b 2
    let written := [(mout, m.maskSize, true)]
    if mout.toNat % 64 ≠ 0 ∨ m.accepts cfg = false then .stop (.of .pdaFormat va)
    else .bind (s.checkSpans [(dw b 1, cfg.toNat / 2 ^ 16, false)]) fun () =>
      .bind (s.checkSpans written) fun () =>
      if s.ctx.seqNo = 0xFFFF then .stop (.of .instantMiss va)
      else if s.slot.open_ then
        if !s.slot.inArena mout m.maskSize || (writeNeed s.slot mout).i then .stop (.of .choiceEscape mout)
        else withSphinx i (fun s =>
          withWalk i (s.instOr s.ctx.rel) (m.mask (dw b 1) cfg) (.of .pdaFormat va) (fun bits _ s =>
            .bind (writeDwords mout bits (m.maskSize / 8) s) fun s => .setP p true s) walkReads 2 [] s) s
      else
        let x := s.sphinxAt s.cluster
        match blockInsts (dw b 4) with
        | none => .stop (.of .pdaFormat va)
        | some (rdi, vsi) =>
          accept p va x.queue (fun s =>
            let hdr := s.slot.prog.got[1]?.getD 0
            let c := s.newCmd 1 0 rdi vsi (dw b 5) (dw b 6) cfg (.mask b hdr) (s.writesInst written)
            s.setSphinxAt s.cluster { x with queue := x.queue ++ [c] }) s) s

/-! ## PADV (R323) -/

/-- The token's bytes from the token table (R317). -/
def Image.token (m : Image) (c : Cache) (tok : Nat) : Except Hitch (List Nat) := do
  Hitch.unless (m.toktab != 0)
  let w ← c.look (m.toktab + .ofNat 64 (8 * tok)) 8
  let len := w / 2 ^ 56
  Hitch.unless (decide (0 < len) && decide (len ≤ 64) && decide (w / 2 ^ 48 % 256 = 0))
  (List.range len).mapM fun k => c.look (m.toktab + .ofNat 64 (w % 2 ^ 48 + k)) 1

/-- What PADV comes to: the new configuration, or all ones, or a stack fault. -/
inductive Advance
  | goes (x : Pda) (low : Nat)
  | rejected
  | stack
  deriving DecidableEq, Repr

/-- The token's bytes, in order. -/
def Image.run (m : Image) (c : Cache) (stk : Word) : List Nat → Pda → Nat → Except Hitch Advance
  | [], q, low => .ok (.goes q low)
  | b :: r, q, low => do
    match ← m.step c stk q b with
    | .noMatch => return .rejected
    | .under | .overflow => return .stack
    | .goes x l => m.run c stk r x (min low l)

/-- PADV's walk. -/
def Image.advance (m : Image) (stk : Word) (cfg tok : Nat) (c : Cache) : Except Hitch Advance := do
  let q : Pda := { state := cfg % 2 ^ 16, depth := cfg / 2 ^ 16 }
  if m.hasEot && tok == m.eot then
    let (acc, _, _) ← m.entry c q.state
    return if acc && q.depth == 0 then .goes q q.depth else .rejected
  else
    let bs ← m.token c tok
    let _ ← m.entry c q.state
    m.run c stk bs q q.depth

/-- The checks of R73 of the stack bytes that PADV writes, in ascending order, with translation and check 8 where they lie on this
device. -/
def State.checkStack (s : State) (stk : Word) : List Nat → Except Stop Unit
  | [] => .ok ()
  | p :: r =>
    let va := stk + .ofNat 64 p
    match s.access va 1 { w := true, n := true } with
    | .error e => .error e
    | .ok (.reg _) => .error (.of .segBound va)
    | .ok (.here pl) => if s.badAt pl.phys then .error (.of .eccUncorrectable va) else s.checkStack stk r
    | .ok (.away _) => s.checkStack stk r

/-- The lines of the stack that lie on another device, from the j-th read on: each is translated there for a write and read for its
check 8, before PADV's first write (R323). -/
def withStack (i : Instr) (k : State → Out) : List (Word × Nat) → Nat → State → Out
  | [], _, s => k s
  | (va, n) :: r, j, s =>
    .bind (s.access va 1 { w := true, n := true }) fun t =>
      match t, s.slot.prog.got[j]?, s.slot.prog.got[j + 1]? with
      | .away d, none, _ => requestAway i d (.ask va n 1 false) .block s
      | .away d, some _, none => requestAway i d (.read va ⟨0, 0, false⟩ n .plain) .block s
      | .away _, some _, some _ => withStack i k r (j + 2) s
      | _, _, _ => withStack i k r j s

/-- Writes the overlay's bytes in ascending order; on another device by request, one after the other. -/
def padvWrite (i : Instr) (d : Reg) (stk : Word) (q : Pda) (v : Word) : List Nat → State → Out
  | [], s => .setG d v s
  | p :: r, s =>
    let va := stk + .ofNat 64 p
    let b := (q.written.find? fun e => e.1 == p).elim 0 (·.2)
    .bind (guardArena va 1 s) fun s =>
    .bind (s.access va 1 { w := true, n := true }) fun t =>
      match t with
      | .here pl => .bind (s.storeAt va pl 1 b) (padvWrite i d stk q v r)
      | .away dv => requestAway i dv (.write va ⟨0, 0, false⟩ 1 (.ofNat 512 b)) (.lane 1) s
      | .reg _ => .stop (.of .segBound va)

/-- PADV (R323), which reads the header at REL like the rest of its image (log entry 122). Every check of R73 of the bytes that it writes
comes before CHOICE-ESCAPE. -/
def execPadv (g : Guard) (d a b : Reg) (s : State) : Host.Outcome State Fault Refusal :=
  let i : Instr := .padv g d a b
  issue i g 0 true (withGrammar i a (fun _ s => s.ctx.rel) fun blk m s =>
    let bad := Stop.of .pdaFormat (s.g a)
    let cfg := s.g d
    let tok := s.g b
    let stk := dw blk 1
    if m.accepts cfg = false ∨ m.ntokm < tok.toNat then .stop bad
    else withSphinx i (fun s =>
      withWalk i s.ctx.rel (m.advance stk cfg.toNat tok.toNat) bad (fun r j s =>
        match r with
        | .rejected => .setG d (.allOnes 64) s
        | .stack => .stop (.of .pdaStack tok)
        | .goes q low =>
          let ps := (List.range (q.depth - low)).map (low + ·)
          .bind (s.checkStack stk ps) fun () =>
            withStack i (fun s => match ps.find? fun p => s.slot.open_ && !s.slot.inArena (stk + .ofNat 64 p) 1 with
              | some p => .stop (.of .choiceEscape (stk + .ofNat 64 p))
              | none => padvWrite i d stk q (.ofNat 64 (2 ^ 16 * q.depth + q.state)) (ps.drop s.slot.prog.lanes) s)
              (partsOf (stk + .ofNat 64 low) (q.depth - low)) j s) walkReads 2 [] s) s) s

/-! ## SAMPLE and ARGMX (R325 to R330) -/

/-- Reads the parts of a block one by one, and goes on with all of its bytes. -/
def withParts (i : Instr) (inst : Instant) (k : Nat → State → Out) : List (Word × Nat) → Nat → Nat → Nat → State → Out
  | [], _, _, acc => k acc
  | (va, n) :: r, j, at_, acc => withPart i j va n inst fun v =>
      withParts i inst k r (j + 1) (at_ + n) (acc + 2 ^ (8 * at_) * v)

/-- rne32 of a value. -/
def rne32 (x : Num) : Num := floatVal .f32 (toFloat .f32 .rne 0 false x)

/-- T(j) (R327): the integer nearest to 2^(31 + j ÷ 256). -/
def tableT (j : Nat) : Nat :=
  if j = 256 then 2 ^ 32 else (exp2Frac 8 j (2 * 2 ^ prec) (2 ^ prec) * 2 ^ 32 / 2 ^ prec + 1) / 2

/-- ⌊x × 2^16⌋ of a finite value. -/
def floor16 : Num → Int
  | .fin s m e => scaled s m (e + 16).toNat / (2 ^ (-(e + 16)).toNat : Nat)
  | _ => 0

/-- The value is above zero. -/
def Num.pos : Num → Bool
  | .fin s m _ => !s && m != 0
  | .inf s => !s
  | .nan => false

/-- w(i) (R327, steps 3 and 4). -/
def weightOf (l m tau : Num) : Nat :=
  let d := rne32 ((rne32 ((rne32 (l.add false m.neg)).mul tau)).mul (floatVal .f32 0x3FB8AA3B))
  let d := if d = .nan || d.pos then .fin false 0 0 else d
  match d with
  | .fin .. =>
    let F := floor16 d
    if d.cmp (.fin true 32 0) = .lt then 0
    else
      let e := F / 65536
      let f := (F % 65536).toNat
      let j := f / 256
      (tableT j + (tableT (j + 1) - tableT j) * (f % 256) / 256) / 2 ^ (-e).toNat
  | _ => 0

/-- gen (R328). -/
def gen (key ctr : Word) : Word :=
  let x := (key ^^^ ctr) * 0xB5E37A914C2D86F3
  let x := (x ^^^ (x >>> 29)) * 0x9A4FD1C3E2876B25
  x ^^^ (x >>> 32)

/-- The first of the tokens whose running sum exceeds t. -/
def pickToken (t : Nat) : List (Nat × Nat) → Nat → Nat
  | [], _ => 0
  | (i, w) :: r, sum => if t < sum + w then i else pickToken t r (sum + w)

/-- What SAMPLE and ARGMX share (R327, steps 1 and 2): the legal tokens with their logits, and the largest logit. -/
def sampling (i : Instr) (d a : Reg) (e : Pred) (k : Vec → List (Nat × Num) → Num → Nat) : State → Out :=
  fun s =>
    let va := s.g a
    let msk := s.slot.prog.msk.getD (s.part.regs.msk.getLsbD 0)
    let s := s.setSlot { s.slot with prog := { s.slot.prog with msk := some msk } }
    withBlock i 0 va 64 { r := true, n := true } (fun b s =>
      let n := (dw b 2).toNat % 2 ^ 20 + 1
      let log := dw b 0
      let mask := dw b 1
      if (dw b 2).toNat / 2 ^ 20 % 2 ^ 12 ≠ 0 ∨ dw b 5 ≠ 0 ∨ dw b 6 ≠ 0 ∨ dw b 7 ≠ 0 ∨ log.toNat % 64 ≠ 0
          ∨ mask.toNat % 64 ≠ 0 then .stop (.of .pdaFormat va)
      else
        let mp := partsOf mask ((n + 63) / 64 * 8)
        withParts i s.ctx.rel (fun bits =>
          withParts i s.ctx.rel (fun logits s =>
            let legal := (List.range n).filterMap fun t =>
              let x := floatVal .f32 (logits / 2 ^ (32 * t) % 2 ^ 32)
              if bits.testBit t && x != .nan then some (t, x) else none
            match legal with
            | [] =>
              if msk then .stop (.of .noLegalToken va)
              else .bind (setG d 0xFFFFFFFF s) fun s => .setP e false s
            | (_, x) :: r =>
              let m := r.foldl (fun m y => if m.cmp y.2 = .lt then y.2 else m) x
              .bind (setG d (.ofNat 64 (k b legal m)) s) fun s => .setP e true s)
            (partsOf log (4 * n)) (1 + mp.length) 0 0) mp 1 0 0 s) s

/-- SAMPLE (R327). -/
def execSample (g : Guard) (d a : Reg) (p : Pred) (s : State) : Host.Outcome State Fault Refusal :=
  issue (.sample g d a p) g 0 false (sampling (.sample g d a p) d a p fun b legal m =>
    let tau := floatVal .f32 ((dw b 2).toNat / 2 ^ 32)
    let ws := legal.map fun x => (x.1, weightOf x.2 m tau)
    let sum := (ws.map (·.2)).sum
    pickToken ((gen (dw b 4) (dw b 3)).toNat * sum / 2 ^ 64) ws 0) s

/-- ARGMX (R329). -/
def execArgmx (g : Guard) (d a : Reg) (p : Pred) (s : State) : Host.Outcome State Fault Refusal :=
  issue (.argmx g d a p) g 0 false (sampling (.argmx g d a p) d a p fun _ legal m =>
    (legal.find? fun x => x.2.cmp m = .eq).elim 0 (·.1)) s

end Sys2Proof.Machine
end

