-- ==== Sys2Proof/Machine/Choice.lean ====
section
/-! DEFINITION. Choice points (15_choice, R331 to R346): TRY, FAIL, CUT, CPD, COMMIT and STEAL, and the records that end or
release a thief. -/

namespace Sys2Proof.Machine

/-- The thread's trail entries, in the hardware trail and its tail (R333). -/
def Slot.trailCount (x : Slot) : Nat := x.trail.length + x.tail.length

/-- The arena segment that TRY and STEAL ask for (R332, R339). -/
def arenaOf (x : Slot) (va : Word) : Except Stop Seg :=
  match x.arena with
  | none => .error (.of .segRights va)
  | some g => if g.arenaOk then .ok g else .error (.of .segBound g.base)

/-- TRY (R339). -/
def execTryPoint (g : Guard) (d a b : Reg) (s : State) : Host.Outcome State Fault Refusal :=
  let i : Instr := .tryPoint g d a b
  issue i g 0 true (fun s =>
    let n := s.g b
    let va := s.g a
    let q : Need := { r := true, n := true }
    if n = 0 ∨ 256 < n.toNat then .stop (.of .choiceDepth n)
    else if 64 ≤ s.slot.points.length then .stop (.of .choiceDepth 64)
    else if va.toNat % 8 ≠ 0 then .stop (.of .align va)
    else .bind (arenaOf s.slot va) fun _ =>
      withBlock i 0 va 8 q (fun t => withBlock i 1 (va + 8) 8 q fun v s =>
        let x := s.slot
        let cp : Point := {
          tab := va, thf := 0, next := 1, naltm := n.toNat - 1, dreg := d, prov := (s.provOf s.cur).length, wf := x.wf
          loops := x.ctx.loops, trl := x.trailCount }
        .bind (setG d (dw v 0) (s.setSlot { x with points := cp :: x.points })) fun s => .jump s (dw t 0)) s) s

/-! ## Undoing the trail -/

/-- OLD goes back to an entry's place (R333): no entry is pushed. A window that is not the current one is gone, and what was written
in it is not undone (R341; log entry 111). -/
def State.undoEntry (s : State) (e : TrailEnt) : State :=
  match e.at_ with
  | .greg n => if e.wf.all fun w => w == s.slot.wf then s.putG n e.old else s
  | .pred n => s.putP n (e.old.getLsbD 0)
  | .arena va z => s.nowWrite s.slot.part (localPhys s.coreIdx va) (sizeBytes z) e.old.toNat (some s.cur) none

/-- The address of a slot's i-th entry in the trail tail (R333). -/
def tailAt (g : Seg) (i : Nat) : Word := g.base + .ofNat 64 (g.limit.toNat - 16 * (i + 1))

/-- A slot's trail entries newer than the first `keep`, newest first: those of the hardware trail, then those of the tail. -/
def State.newer (s : State) (n keep : Nat) : List TrailEnt :=
  let x := s.slotAt n
  let k := x.trailCount - keep
  x.trail.take k ++ match x.arena with
    | some g => (x.tail.take (k - x.trail.length)).zipIdx.map fun e =>
      { trailOf (s.mem.read (localPhys (n / 16) (tailAt g (x.tail.length - 1 - e.2))) 16) with wf := e.1 }
    | none => []

/-- The first line that undoing them reads or writes whose data fails its check (R4). -/
def State.badUndo (s : State) (n keep : Nat) : Option Word :=
  let x := s.slotAt n
  let tail := match x.arena with
    | some g => (List.range (x.trailCount - keep - x.trail.length)).map fun j => tailAt g (x.tail.length - 1 - j)
    | none => []
  let arena := (s.newer n keep).filterMap fun e => match e.at_ with
    | .arena va _ => some va
    | _ => none
  (tail ++ arena).find? fun va => s.badAt (localPhys (n / 16) va)

/-- Undoes the acting thread's trail entries down to `keep`, newest first. -/
def State.undoTo (s : State) (keep : Nat) : State :=
  let x := s.slot
  let k := x.trailCount - keep
  (s.newer s.cur keep).foldl State.undoEntry
    (s.setSlot { x with trail := x.trail.drop k, tail := x.tail.drop (k - x.trail.length) })

/-- Points are popped, newest first, down to a depth, and their thieves released (R340, R345). -/
def State.releaseTo (s : State) (depth : Nat) : State :=
  let x := s.slot
  let gone := x.points.take (x.points.length - depth)
  (gone.flatMap fun q => q.thieves s.coreIdx).foldl State.releaseThief
    (s.setSlot { x with points := x.points.drop (x.points.length - depth) })

/-! ## FAIL (R340) -/

/-- The thread ends in failure (R340): a bound thief drops its entries and is bound no more; another task is marked FAILED. -/
def endFailed (i : Instr) (s : State) : Out :=
  if s.slot.bind.isSome then exitThread (.exit 0) false ((s.unbind s.cur).dropProv s.coreIdx fun e => e.slot == s.cur)
  else exitThread i false (s.onLive s.slot.part s.slot.task fun t => { t with failed := true })

/-- The cached window at a frame address (R124): its place among the older windows, newest first. -/
def Slot.cachedAt (x : Slot) (wf : Word) : Option Nat :=
  (List.range x.windows.length).find? fun j => x.ctx.wsp - .ofNat 64 (64 * (x.windows.length - j)) == wf

/-- The window at a point's frame, read by request when it has been spilled (R124). -/
def withWindow (i : Instr) (j : Nat) (x : Slot) (wf : Word) (k : Window → State → Out) (s : State) : Out :=
  if x.wf = wf then k x.ctx.window s
  else match x.cachedAt wf with
    | some n => k (x.windows.getD n x.ctx.window) s
    | none => withBlock i j wf 64 { r := true, n := true } (fun v s => k (windowOf v.toNat) s) s

/-- Makes the window at a frame current (R124). -/
def Slot.toWindow (x : Slot) (wf : Word) (w : Window) : Slot :=
  if x.wf = wf then x
  else match x.cachedAt wf with
    | some n => { x with windows := x.windows.drop (n + 1), ctx := x.ctx.setWindow w }
    | none => { x with windows := [], ctx := { x.ctx.setWindow w with wsp := wf + 64 } }

/-- Drops the thread's provisional entries placed after the first n (R340). -/
def State.dropAfter (s : State) (n : Nat) : State :=
  let gone := (s.provOf s.cur).drop n
  s.dropProv s.coreIdx fun e => gone.contains e

/-- FAIL (R340). -/
def execFail (g : Guard) (s : State) : Host.Outcome State Fault Refusal :=
  let i : Instr := .fail g
  issue i g 0 false (fun s =>
    let x := s.slot
    let q : Need := { r := true, n := true }
    if x.points.isEmpty then endFailed i s
    else match x.points.findIdx? fun p => decide (p.next ≤ p.naltm) with
      | none =>
        match s.badUndo s.cur 0 with
        | some va => .stop (.of .eccUncorrectable va)
        | none =>
        let s := s.undoTo 0
        let s := s.dropProv s.coreIdx fun e => e.slot == s.cur
        endFailed i (s.releaseTo 0)
      | some k =>
        match x.points[k]? with
        | none => .seq s
        | some cp =>
          let va := cp.tab + .ofNat 64 (16 * cp.next)
          withBlock i 0 va 8 q (fun t => withBlock i 1 (va + 8) 8 q fun v =>
            withWindow i 2 x cp.wf fun w s =>
              match s.badUndo s.cur cp.trl with
              | some va => .stop (.of .eccUncorrectable va)
              | none =>
              let s := s.releaseTo (x.points.length - k)
              let y := s.slot.toWindow cp.wf w
              let s := s.setSlot { y with ctx := { y.ctx with loops := cp.loops } }
              let s := (s.undoTo cp.trl).dropAfter cp.prov
              let y := s.slot
              let s := s.setSlot { y with points := y.points.modifyHead fun p => { p with next := p.next + 1 } }
              .bind (setG cp.dreg (dw v 0) s) fun s => .jump s (dw t 0)) s) s

/-! ## CPD, CUT and COMMIT (R342, R343) -/

/-- CPD (R342). -/
def execCpd (g : Guard) (d : Reg) (s : State) : Host.Outcome State Fault Refusal :=
  issue (.cpd g d) g 0 false (fun s => .setG d (.ofNat 64 s.slot.points.length) s) s

/-- CUT (R342). -/
def execCut (g : Guard) (a : Reg) (s : State) : Host.Outcome State Fault Refusal :=
  issue (.cut g a) g 0 false (fun s =>
    let s := s.cutTo s.cur (s.g a).toNat
    if s.slot.points.isEmpty && s.slot.bind.isNone && !(s.provOf s.cur).isEmpty then sendEntries (.cut g a) s
    else match s.slot.prog.lost with
      | some (c, va) => .stop (.trap c va)
      | none => .seq s) s

/-- COMMIT (R343). -/
def execCommit (g : Guard) (s : State) : Host.Outcome State Fault Refusal :=
  issue (.commit g) g 0 false (fun s =>
    let x := s.slot
    if x.bind.isSome then .stop (.of .choiceEscape 0)
    else if !(s.provOf s.cur).isEmpty then
      sendEntries (.commit g) (s.setSlot { x with points := x.points.map fun p => { p with prov := 0 } })
    else match x.prog.lost with
      | some (c, va) => .stop (.trap c va)
      | none => .seq s) s

/-! ## STEAL (R344, R346) -/

/-- A slot may issue (R217): it is runnable, has not issued in the previous three cycles, and no instruction of it is in progress. -/
def State.between (s : State) (n : Nat) : Bool :=
  let x := s.slotAt n
  x.run == .runnable && decide (x.ready ≤ s.cycles (n / 256)) && x.prog.word.isNone

/-- The victim that a STEAL finds (R344): its slot, and its oldest point with an untried alternative by its number. -/
def State.victim (s : State) (mask : Nat) (limit : BitVec 48) : Option (Nat × Nat) :=
  ((List.range 16).filterMap fun i =>
    let n := s.coreIdx * 16 + i
    let x := s.slotAt n
    if mask.testBit i = false ∨ n = s.cur ∨ x.part ≠ s.slot.part ∨ s.between n = false then none
    else match x.points.reverse.findIdx? fun p => decide (p.next ≤ p.naltm), x.arena with
      | some k, some g => if g.limit = limit then some (n, k) else none
      | _, _ => none).head?

/-- A slot that a STEAL of another thread of its core holds (R346). -/
def State.heldByTheft (s : State) (n : Nat) : Bool :=
  (List.range 16).any fun i => match (s.slotAt (n / 16 * 16 + i)).prog.theft with
    | some (v, _) => v == n
    | none => false

/-- The word in progress is a STEAL. -/
def Slot.inSteal (x : Slot) : Bool :=
  match x.prog.word.bind decode with
  | some (.steal ..) => true
  | _ => false

/-- A STEAL of another slot of the core is in progress, or waits and was issued before the acting thread's (R344, R346). -/
def State.stealing (s : State) : Bool :=
  (List.range 16).any fun i =>
    let x := s.slotAt (s.coreIdx * 16 + i)
    decide (s.coreIdx * 16 + i ≠ s.cur) && (x.prog.theft.isSome
      || (x.inSteal && x.prog.since.any fun t => s.slot.prog.since.all fun u => decide (t < u)))

/-- A value of n bytes with the z bytes at an offset replaced. -/
def spliced (x off z v : Nat) : Nat :=
  let hi := x / 2 ^ (8 * (off + z))
  x % 2 ^ (8 * off) + 2 ^ (8 * off) * (v % 2 ^ (8 * z)) + 2 ^ (8 * (off + z)) * hi

/-- The registers, predicates and arena that a victim had when its point opened (R344), one entry of its trail further back: the
window is the point's, so that only entries of that window are undone in it (R341; log entry 111). -/
def rewound (wf base : Word) (r : Vector Word 16 × Byte × Nat) (e : TrailEnt) : Vector Word 16 × Byte × Nat :=
  let (g, p, m) := r
  match e.at_ with
  | .greg n => (if e.wf.all fun w => w == wf then g.set n e.old else g, p, m)
  | .pred n => (g, if e.old.getLsbD 0 then p ||| (1#8 <<< n.val) else p &&& ~~~ (1#8 <<< n.val), m)
  | .arena va z => (g, p, spliced m (va - base).toNat (sizeBytes z) e.old.toNat)

/-- Writes n bytes of a core's own store, 16 at a time. -/
def State.writeLocal (s : State) (va : Word) (x : Nat) : Nat → State
  | 0 => s
  | k + 1 =>
    let t := s.writeLocal va x k
    t.nowWrite t.slot.part (localPhys t.coreIdx (va + .ofNat 64 (16 * k))) 16 (x / 2 ^ (128 * k) % 2 ^ 128) (some t.cur) none

/-- The thief takes the alternative (R344). -/
def takeAlternative (n k : Nat) (cp : Point) (a va : Seg) (t v : Word) (w : Window) (s : State) : Out :=
  let y := s.slotAt n
  let half := va.limit.toNat / 2
  let phys := localPhys s.coreIdx va.base
  let bad := fun (base : Word) => (List.range (half / 16)).any fun j => s.badAt (localPhys s.coreIdx base + 16 * j)
  match s.badUndo n cp.trl with
  | some at_ => .stop (.of .eccUncorrectable at_)
  | none =>
  if bad va.base then .stop (.of .eccUncorrectable va.base)
  else if bad a.base then .stop (.of .eccUncorrectable a.base)
  else
    let g0 := (y.ctx.setWindow w).g
    let (g, p, m) := (s.newer n cp.trl).foldl (rewound cp.wf va.base) (g0, y.ctx.p, s.mem.read phys half)
    let s := s.writeLocal a.base m (half / 16)
    let j := y.points.length - 1 - k
    let mark := fun (q : Point) => { q with next := q.next + 1, thf := q.thf ||| (1#16 <<< (s.cur % 16)) }
    let y := s.slotAt n
    let s := s.setSlotAt n { y with points := y.points.modify j mark }
    let g := (g.set 14 (g[14] - va.base + a.base)).set 15 0
    let x := s.slot
    let c := { x.ctx with g := g.set cp.dreg v, p := p &&& 0xFE, loops := cp.loops }
    .jump (s.setSlot { x with ctx := c, windows := [], bind := some (n, k) }) t

/-- STEAL (R344). -/
def execSteal (g : Guard) (p : Pred) (a : Reg) (s : State) : Host.Outcome State Fault Refusal :=
  let i : Instr := .steal g p a
  issue i g 0 true (fun s =>
    let x := s.slot
    let q : Need := { r := true, n := true }
    if x.open_ then .stop (.of .choiceEscape (s.g a))
    else .bind (arenaOf x (s.g a)) fun own =>
      if s.stealing then .stay (s.stamped.keepWord i)
      else
        let found := if x.prog.theft.isSome then x.prog.theft else s.victim (s.g a).toNat own.limit
        match found with
        | none => .setP p false s
        | some (n, k) =>
          let y := s.slotAt n
          match y.points[y.points.length - 1 - k]?, y.arena with
          | some cp, some va =>
            let s := s.setSlot { x with prog := { x.prog with theft := found } }
            let at_ := cp.tab + .ofNat 64 (16 * cp.next)
            withBlock i 0 at_ 8 q (fun t => withBlock i 1 (at_ + 8) 8 q fun v =>
              withWindow i 2 y cp.wf fun w => takeAlternative n k cp own va (dw t 0) (dw v 0) w) s
          | _, _ => .setP p false s) s

/-! ## Records to thieves (R345) -/

/-- A kill lets a division (R100) and a list (R282) end first. -/
def Run.busy : Run → Bool
  | .waiting .divider | .waiting .list => true
  | _ => false

/-- KILL_MESSAGE (R345): the thief's entries are dropped, its own points pruned, what it waits for is forgotten (log entry 53), and it
ends as by an EXIT. -/
def execKillMessage (k : Nat) (s : State) : Host.Outcome State Fault Refusal :=
  match s.takePacket k with
  | some (⟨_, .kill n⟩, t) =>
    if (t.slotAt n).bind.isNone then .next t
    else if (t.slotAt n).run.busy then .next s
    else
      let u := (((t.cutTo n 0).unbind n).dropProv (n / 16) fun e => e.slot == n).forget n
      .next (u.setSlotAt n { u.slotAt n with run := .runnable, prog := { word := encodeWord (.exit 0) } })
  | _ => .next s

/-- THIEF_RELEASE (R345): the thief is bound no more; one that waits in EXIT goes on. -/
def execThiefRelease (k : Nat) (s : State) : Host.Outcome State Fault Refusal :=
  match s.takePacket k with
  | some (⟨_, .release n⟩, t) =>
    let x := t.slotAt n
    let t := t.setSlotAt n { x with bind := none }
    .next (if x.run = .waiting .bound then t.resumeSlot n else t)
  | _ => .next s

/-- Entries that the slot has begun to send, or the discard of one, are still to be settled (R337). -/
def State.midSend (s : State) (n : Nat) : Bool := (s.slotAt n).prog.lost.isSome || (s.provOf n).any (·.sent)

/-- A thread that is speculative no more sends the provisional entries it has left at its next instruction boundary (R337);
a discard raises there. None when the boundary is passed. -/
def State.boundarySend (s : State) : Option State :=
  let x := s.slot
  if x.prog.word.isSome || x.speculative then none
  else if !(s.provOf s.cur).isEmpty then
    some ((s.setSlot { x with run := .waiting .sending }).sendNext s.cur (s.provOf s.cur).length.succ)
  else x.prog.lost.map fun l => s.trap l.1 l.2

end Sys2Proof.Machine
end

