-- ==== Sys2Proof/Config.lean ====
section
/-! DEFINITION. What the spec leaves to the part and its surroundings: measurements, the contents of the signed record, and the
cryptographic functions that the spec names by their standards (log entries 7 and 18). Nothing can be proved of their values. -/

namespace Sys2Proof.Config

/-- MEAS at a reference count (R392): the non-matrix module power in watts. -/
opaque measuredPower (refcnt : Nat) : BitVec 16

/-- A ring monitor's reading at a reference count (R415, R416): the port, the lane, and whether it is the filter ring's. -/
opaque monitor (refcnt port lane : Nat) (filter : Bool) : BitVec 12

/-- The cluster whose router terminates a fibre port (R139; log entry 94): the spec names none. -/
opaque fibreRouter (port : Nat) : Nat

/-- A byte of the configuration record that the spec does not fix (R405): the identity, the keys and the signature. -/
opaque recordByte (offset : Nat) : Byte

/-- The SHA-512 of the firmware image, and of the whole record of a part with these dies (R405, R407). -/
opaque firmwareDigest : BitVec 512
opaque recordDigest (dies : Byte) : BitVec 512

/-- SIGR and SIGS over the 264 bytes of a report, as the bytes are stored (R407, R422). -/
opaque reportSignature (report : BitVec 2112) : BitVec 1056

/-- The job key that a key block unwraps to (R419, R422): the job id, the ephemeral key and the wrapped key; none when the
integrity check fails. -/
opaque unwrapKey (job : BitVec 48) (ephemeral : BitVec 1064) (wrapped : BitVec 320) : Option (BitVec 256)

end Sys2Proof.Config
end

