-- ==== Sys2Proof/Machine/Replica.lean ====
section
/-! DEFINITION. Replica placement (16_replica, R347 to R364): the table and the areas, counting, routing, publications, copies
and merges, records, and Monarch's part in a step of the counter. -/

namespace Sys2Proof.Machine

/-! ## The table and the pool (R347, R348) -/

def mnIv (w : Word) : Nat := w.toNat / 2 ^ 48
def mnNexpm (w : Word) : Nat := w.toNat / 2 ^ 36 % 2 ^ 12
def mnHot (w : Word) : Nat := w.toNat / 2 ^ 16 % 2 ^ 16
def mnCold (w : Word) : Nat := w.toNat % 2 ^ 16
def mnNareaM (w : Word) : Nat := w.toNat / 2 ^ 58
def mnAsz (w : Word) : Nat := w.toNat / 2 ^ 32 % 2 ^ 16
def mnWsz (w : Word) : Nat := w.toNat / 2 ^ 16 % 2 ^ 16
def mnLag (w : Word) : Nat := w.toNat % 2 ^ 16

/-- A slot of an entry: live, its die, and its area's local address (R347). -/
def entLive (ent : Vec) (k : Nat) : Bool := (dw ent k).getLsbD 63
def entDie (ent : Vec) (k : Nat) : Nat := (dw ent k).toNat / 2 ^ 60 % 8
def entAddr (ent : Vec) (k : Nat) : Nat := (dw ent k).toNat % 2 ^ 48

/-- The live slots, ascending. -/
def entSlots (ent : Vec) : List Nat := (List.range 8).filter (entLive ent)

/-- An address of this device in its own form. -/
def ownWord (a : Nat) : Word := .ofNat 64 (0x1FFF * 2 ^ 48 + a % 2 ^ 48)

/-- The entry with slot k changed and its version advanced (R347, R357). -/
def entWith (ent : Vec) (k : Nat) (w : Word) : Vec :=
  let l := (List.range 8).map fun j => if j = k then w else dw ent j
  let w0 := (l.getD 0 0).toNat
  let v := w0 / 2 ^ 48 % 2 ^ 12
  vecOf (.ofNat 64 (w0 - v * 2 ^ 48 + (v + 1) % 2 ^ 12 * 2 ^ 48) :: l.drop 1)

/-- The address of area (d, k) (R348). -/
def PartRegs.areaAt (r : PartRegs) (d k : Nat) : Word :=
  r.mnarea + .ofNat 64 ((d * (mnNareaM r.mngeo + 1) + k) * mnAsz r.mngeo * 65536)

/-- The pool areas at any of some local addresses. -/
def PartRegs.areasAt (r : PartRegs) (l : List Nat) : List (Nat × Nat) :=
  (List.range 8).flatMap fun d => (List.range (mnNareaM r.mngeo + 1)).filterMap fun k =>
    if l.contains (localAddr (r.areaAt d k)) then some (d, k) else none

/-- The pool areas that a mark takes and frees, by the registers of the step that applies it (R356, R357). -/
def Mark.takes (r : PartRegs) (k : Mark) : List (Nat × Nat) :=
  (k.image.map fun img => r.areasAt ((entSlots img).map (entAddr img))).getD []
def Mark.frees (r : PartRegs) (k : Mark) : List (Nat × Nat) := r.areasAt k.retired.toList

/-- The address of entry e. -/
def PartRegs.entryAt (r : PartRegs) (e : Nat) : Word := r.mntab + .ofNat 64 (64 * e)

def State.monarch (s : State) (p : Fin 8) : Monarch := (s.partAt p).monarch
def State.setMonarch (s : State) (p : Fin 8) (m : Monarch) : State := s.setPartAt p { s.partAt p with monarch := m }

/-- The expert has a pending mark (R350). -/
def Monarch.marked (m : Monarch) (e : Nat) : Bool := m.marks.any fun k => k.expert == e

/-- The area is free. -/
def Monarch.free (m : Monarch) (d k : Nat) : Bool := !m.taken.contains (d, k)

/-- The home of a line that Monarch reaches (R349): the checks of R73 but those of the segments. -/
def State.monarchPlace (s : State) (p : Fin 8) (va : Word) : Except Stop Place :=
  if va.toNat % 64 ≠ 0 then .error (.of .align va)
  else match s.locate s.deviceCore p va 64 6 with
    | .error x => .error x
    | .ok (.here pl) => if pl.so then .error (.of .segRights va) else .ok pl
    | .ok _ => .error (.of .segBound va)

/-- The entry at an address as of an instant, read at device privilege at its home port (R349). -/
def State.entryOf (s : State) (p : Fin 8) (va : Word) (i : Instant) : Except Stop Vec :=
  (s.monarchPlace p va).bind fun pl => (s.versionAt p va pl 64 i).map (.ofNat 512 ·)

/-- Entry e as of an instant. -/
def State.entry (s : State) (p : Fin 8) (e : Nat) (i : Instant) : Except Stop Vec :=
  s.entryOf p ((s.partAt p).regs.entryAt e) i

/-- A publication of an entry, sent to its port (R349). -/
def State.sendEntry (s : State) (p : Fin 8) (e : Nat) (va : Word) (pl : Place) (img : Vec) (v ord : Instant) (slip : Bool)
    (slot : Option Nat) : State :=
  s.send p (.store (.publish slot e)
    { va := va, pl := pl, n := 64, x := img, mask := .allOnes 64, v := v, ord := ord, slip := slip })

/-- A publication that Monarch makes of the entry at an address (R349, R356). -/
def State.publish (s : State) (p : Fin 8) (e : Nat) (va : Word) (img : Vec) (v ord : Instant) (slip : Bool) (slot : Option Nat) :
    Except Stop State :=
  (s.monarchPlace p va).map fun pl => s.sendEntry p e va pl img v ord slip slot

/-- An access that Monarch makes for an instruction (R349): its page fault is queued at Monarch's port with KIND 6, and the thread
waits while Monarch waits for the wake. -/
def monarchGet {α : Type} (i : Instr) (r : Except Stop α) (k : α → Out) (s : State) : Out :=
  match r with
  | .ok a => k a
  | .error (.page va kind) =>
    match s.addFault (s.deviceCore / 16) s.slot.part va kind (.slot s.cur) with
    | some t => .stay (t.await i .unit)
    | none => .stay (s.keepWord i)
  | .error e => .stop e

/-! ## Records (R362, R363) -/

/-- A record's 16 bytes (R363). -/
def recordOf (kind status : Nat) (i : Instant) (count e die live : Nat) : Nat :=
  kind * 2 ^ 60 + status % 16 * 2 ^ 56 + i.toNat + 2 ^ 64 * (count % 2 ^ 32 * 2 ^ 32 + e * 2 ^ 20 + die * 2 ^ 8 + live)

/-- A record for the queue, which holds 256; a full one discards it (R362). -/
def State.postRecord (s : State) (p : Fin 8) (r : Nat) : State :=
  let m := s.monarch p
  if m.records.length < 256 then (s.setMonarch p { m with records := m.records ++ [r] }).signal 3
  else s.setMonarch p { m with ovf := true }

/-- The live slots of an entry as bits. -/
def liveBits (ent : Vec) : Nat := (entSlots ent).foldl (fun a k => a + 2 ^ k) 0

/-! ## Counting and routing (R351, R354, R355) -/

/-- The checks that begin the class's instructions (R353). -/
def withExpert (a : Reg) (k : Nat → State → Out) (s : State) : Out :=
  if s.slot.open_ then .stop (.of .choiceEscape (s.g a))
  else if mnNexpm s.part.regs.mncfg < (s.g a).toNat then .stop (.of .replicaStale (s.g a))
  else k (s.g a).toNat s

/-- ECNT (R354): a posted update. -/
def execEcnt (g : Guard) (a b : Reg) (s : State) : Host.Outcome State Fault Refusal :=
  issue (.ecnt g a b) g 0 false (withExpert a fun e s => .seq (s.send s.slot.part (.ecnt e ((s.g b).setWidth 32)))) s

/-- ECNT_UPDATE (R351): the counter saturates. -/
def execEcntUpdate (k : Nat) (s : State) : Host.Outcome State Fault Refusal :=
  match s.takePacket k with
  | some (⟨p, .ecnt e n⟩, t) =>
    let m := t.monarch p
    let c := (Table.get 0 m.counts e).toNat + n.toNat
    .next (t.setMonarch p { m with counts := Table.set m.counts e (.ofNat 32 (min c (2 ^ 32 - 1))) })
  | _ => .next s

/-- RLOOK (R355). -/
def execRlook (g : Guard) (d a b : Reg) (s : State) : Host.Outcome State Fault Refusal :=
  issue (.rlook g d a b) g 0 false (fun s =>
    let e := s.g a
    if mnNexpm s.part.regs.mncfg < e.toNat then .stop (.of .replicaStale e)
    else
      let va := s.part.regs.entryAt e.toNat
      .bind (s.access va 64 { r := true, i := true }) fun t =>
        readInstant (.rlook g d a b) va 64 t s.ctx.rel (.rlook d e (s.g b)) s) s

/-! ## Publication and retirement (R356, R357) -/

/-- An image that R356 accepts. -/
def imageOk (img : Vec) : Bool :=
  ((List.range 7).all fun j => decide ((dw img (j + 1)).toNat / 2 ^ 48 % 2 ^ 12 = 0))
    && (entSlots img).all (fun k => decide (entAddr img k % 65536 = 0))
    && decide (((entSlots img).map (entDie img)).Nodup)

/-- The thread waits for its publication (R153, R356), its expert marked. -/
def publishFor (i : Instr) (e : Nat) (img : Vec) (image : Option Vec) (retired : Option Nat) (s : State) : Out :=
  let c := s.ctx
  let p := s.slot.part
  monarchGet i (s.publish p e (s.part.regs.entryAt e) img c.vis c.ord c.pol (some s.cur)) (fun s =>
    let m := s.monarch p
    let k : Mark := { expert := e, v := c.vis, image := image, retired := retired }
    .stay ((s.setMonarch p { m with marks := m.marks ++ [k] }).await i .reply (some .accepted))) s

/-- RPUB (R356). -/
def execRpub (g : Guard) (a b : Reg) (s : State) : Host.Outcome State Fault Refusal :=
  let i : Instr := .rpub g a b
  issue i g 1 true (withExpert a fun e s =>
    withBlock i 0 (s.g b) 64 { r := true, n := true } (fun img s =>
      if !imageOk img then .stop (.of .replicaStale (s.g b))
      else if (s.monarch s.slot.part).marked e then .stop (.of .replicaStale (s.g a))
      else if s.ctx.seqNo = 0xFFFF then .stop (.of .instantMiss (s.g b))
      else publishFor i e img (some img) none s) s) s

/-- RRET (R357). -/
def execRret (g : Guard) (a b : Reg) (s : State) : Host.Outcome State Fault Refusal :=
  let i : Instr := .rret g a b
  issue i g 1 true (withExpert a fun e s =>
    monarchGet i (s.entry s.slot.part e s.part.now) (fun ent =>
      let k := (s.g b).toNat
      if k = 0 ∨ 7 < k ∨ entLive ent k = false ∨ (s.monarch s.slot.part).marked e = true then
        .stop (.of .replicaStale (s.g a))
      else if s.ctx.seqNo = 0xFFFF then .stop (.of .instantMiss (s.part.regs.entryAt e))
      else
        let w := dw ent k &&& 0x7FFFFFFFFFFFFFFF
        publishFor i e (entWith ent k w) none (some (entAddr ent k)) s) s) s

/-! ## Copies (R358 to R360) -/

/-- The head of RCOPY and RMERGE. -/
def withMonarch (i : Instr) (a : Reg) (k : Vec → State → Out) (s : State) : Out :=
  if s.slot.open_ then .stop (.of .choiceEscape (s.g a))
  else withBlock i 0 (s.g a) 64 { r := true, n := true } k s

/-- A copy, from its entry as of now. -/
def copyWork (r : PartRegs) (ent : Vec) (e die area : Nat) (held : Option Nat := some area) : Work :=
  .rcopy e (((List.range 8).find? fun k => !entLive ent k).getD 0) die held (r.areaAt die area) (ownWord (entAddr ent 0))
    (mnWsz r.mngeo * 65536)

/-- Marks the expert and takes the area of an accepted copy (R358), if it is one of the areas of now. -/
def State.beginCopy (s : State) (c : Cmd) (e die : Nat) (held : Option Nat) : State :=
  let m := s.monarch c.part
  let m := { m with marks := m.marks ++ [{ expert := e, v := c.vsi }], taken := m.taken ++ held.toList.map (die, ·) }
  { s.setMonarch c.part m with copies := s.copies ++ [c] }

/-- RCOPY (R358). -/
def execRcopy (g : Guard) (p : Pred) (a : Reg) (s : State) : Host.Outcome State Fault Refusal :=
  let i : Instr := .rcopy g p a
  issue i g 1 true (withMonarch i a fun b s =>
    let f := fun (w lo n : Nat) => (dw b w).toNat / 2 ^ lo % 2 ^ n
    let e := f 0 0 12
    let die := f 1 0 3
    let area := f 1 8 6
    let v : Instant := .ofNat 48 (f 2 0 48)
    let r := s.part.regs
    let m := s.monarch s.slot.part
    let stale := Out.stop (.of .replicaStale (.ofNat 64 e))
    let reserved := f 0 12 52 ≠ 0 ∨ f 1 14 50 ≠ 0 ∨ f 1 3 5 ≠ 0 ∨ f 2 48 16 ≠ 0 ∨ f 3 32 32 ≠ 0 ∨ f 3 0 16 ≠ 0
      ∨ dw b 6 ≠ 0 ∨ dw b 7 ≠ 0
    match InstField.ofCode (f 3 16 16) with
    | none => .stop (.of .replicaStale (s.g a))
    | some rdi =>
      if reserved then .stop (.of .replicaStale (s.g a))
      else if mnNexpm r.mncfg < e ∨ m.marked e = true then stale
      else monarchGet i (s.entry s.slot.part e s.part.now) (fun ent =>
        if entLive ent 0 = false ∨ (entSlots ent).length = 8 ∨ s.dieOn die = false
            ∨ ((entSlots ent).any fun k => entDie ent k == die) = true ∨ mnNareaM r.mngeo < area
            ∨ m.free die area = false ∨ v.toNat ≤ s.part.now.toNat then stale
        else if s.ctx.seqNo = 0xFFFF then .stop (.of .instantMiss (s.g a))
        else if 8 ≤ s.copies.length then .setP p false s
        else
          let c := s.newCmd 2 0 rdi .dflt (dw b 4) (dw b 5) 0 (copyWork r ent e die area) true
          let c := { c with seg := none, vsi := v, slip := false, entry := r.entryAt e, wsz := mnWsz r.mngeo }
          let s := s.beginCopy c e die (some area)
          .setP p true (s.setCtx s.ctx.nextOrd).bump) s) s

/-- A copy has failed (R359): its publication is cancelled, its pending pieces are withdrawn, its mark is cleared, and its area becomes
free at the step to V + 1. -/
def State.abortCopy (s : State) (c : Cmd) : State :=
  match c.work with
  | .rcopy e _ die held _ _ _ =>
    let mine := fun (q : Pending) => q.part == c.part && q.v == c.vsi && q.task == c.ord.extractLsb' 16 32 && !q.host
    let cut := fun (q : Pending) =>
      if mine q then { q with bytes := q.bytes.filter fun b => b.2.1 != c.ord.extractLsb' 0 16 } else q
    let own := fun (o : Origin) => o == .cmd c.stamp || (c.published && o == .publish none e)
    let keep := fun (q : Packet) => match q.body with
      | .store o _ => q.part != c.part || !own o
      | _ => true
    let ports := s.ports.map fun x => (x.1, { x.2 with
      pending := (x.2.pending.map cut).filter fun q => !q.bytes.isEmpty
      stalled := x.2.stalled.filter fun t => t.1 != c.part || !own t.2.1, saved := x.2.saved.filter keep })
    let fabric := s.dev.fabric.filter fun f => keep f.packet
    let s := { s with ports := ports, net := s.net.filter keep, dev := { s.dev with fabric := fabric } }
    let m := s.monarch c.part
    let s := s.setMonarch c.part { m with
      marks := m.marks.filter fun k => k.expert != e
      freeing := m.freeing ++ held.toList.map fun k => (die, k, c.vsi + 1, false) }
    match c.review with
    | none => s
    | some (count, live) => s.postRecord c.part (recordOf 4 c.status.toNat c.vsi count e die live)
  | _ => s

/-- No channel joins the copy's die to the port of its entry, so that it cannot publish (R359, R435). -/
def State.entryCut (s : State) (c : Cmd) : Bool :=
  match s.cmdPlace c c.entry 64 true with
  | .error (.trap cause _) => cause == Cause.copyFail.code
  | _ => false

/-- One piece of a copy, or its publication once every piece has been accepted (R359). -/
def rcopyStep (s : State) (c : Cmd) : Did :=
  match c.work with
  | .rcopy e slot die _ dst src size =>
    match c.stage with
    | .begin_ | .read => .wait s { c with stage := .write }
    | .write =>
      if c.miss ≠ 0 then .fail s (c.failed Cause.instantMiss.code (c.lost.getD 0))
      else if c.pos < size then
        let va := dst + .ofNat 64 c.pos
        match cmdRead (src + .ofNat 64 c.pos) 64 s c with
        | .ok x s c =>
          match s.cmdPlace c va 64 true with
          | .ok (.here pl) =>
            if pl.home / 256 ≠ die then .fail s (c.failed Cause.copyFail.code va)
            else match cmdWrite va 64 (.allOnes 64) x s c with
              | .ok v s c => .ok v s { c with pos := c.pos + 64 }
              | r => r
          | .ok _ => .fail s (c.failed Cause.segBound.code va)
          | .error x => s.cmdStop c x
        | r => r
      else match s.cmdPlace c c.entry 64 true with
        | .error x => if c.out ≠ 0 ∧ s.entryCut c = false then .wait s c else s.cmdStop c x
        | .ok (.here pl) =>
          if c.out ≠ 0 then .wait s c
          else match s.versionAt c.part c.entry pl 64 (s.partAt c.part).now with
          | .error x => s.cmdStop c x
          | .ok v =>
            let img := entWith (.ofNat 512 v) slot (.ofNat 64 (2 ^ 63 + die * 2 ^ 60 + localAddr dst))
            .ok 0 (s.sendEntry c.part e c.entry pl img c.vsi c.ord false none)
              { c with stage := .join, published := true, cid := dw img 0 }
        | .ok _ => .fail s (c.failed Cause.segBound.code c.entry)
    | .join | .ended => .wait s c
  | _ => .fail s (c.failed 0 0)

/-- RCOPY_EXECUTE (R359, R360): a copy that reaches V before its publication is accepted fails, with COPY-FAIL when the path to its
entry's port is gone (R435); one that has ended sends its
completion, or leaves its record when a review started it. -/
def execRcopyExecute (k : Nat) (s : State) : Host.Outcome State Fault Refusal :=
  match s.copies[k]? with
  | none => .next s
  | some c =>
    let fail := fun (s : State) (c : Cmd) =>
      let c := { c with out := 0, cid := 0, lost := none, flight := none }
      (s.abortCopy c).putCmd c
    if c.stage = .ended then
      if s.owes (s.cmdCore c / 16) || !s.running c.part then .next s
      else .next ((if c.review.isSome then s else s.completeCmd c).dropCmd c.stamp)
    else if c.vsi.toNat ≤ (s.partAt c.part).now.toNat then
      let cut := !s.dev.hamode.getLsbD 4 && s.entryCut c
      .next (fail s (if cut then c.failed Cause.copyFail.code c.entry else c.failed Cause.instantMiss.code 0))
    else if s.cmdReady c = false then .next s
    else match rcopyStep s c with
      | .ok _ s c | .wait s c => .next (s.putCmd c)
      | .fail s c => .next (fail s c)

/-- A publication has reached its port (R153, R350, R356): a discarded one clears its mark; an accepted one is logged (R393),
and ends the copy or posts the record that it belongs to. -/
def State.published (s : State) (p : Fin 8) (slot : Option Nat) (e : Nat) (st : Store) (l : Landing) : State :=
  let m := s.monarch p
  let isCopy := fun (c : Cmd) => c.part == p && c.stage == .join && (match c.work with
    | .rcopy x _ _ _ _ _ _ => x == e
    | _ => false)
  let copy := if slot.isNone then s.copies.find? isCopy else none
  let discard := fun (cause : Cause) =>
    match copy with
    | some c =>
      let c := { c.failed cause.code st.va with cid := 0 }
      (s.abortCopy c).putCmd c
    | none => s.clearMarks p fun k => k.expert == e
  match l with
  | .full => s
  | .missed => discard .instantMiss
  | .failed => discard .eccUncorrectable
  | .accepted slipped =>
    let v := if slipped then (s.partAt p).now + 1 else st.v
    let s := s.setMonarch p { m with
      marks := m.marks.map fun k =>
        if k.expert = e then { k with accepted := true, v := v, at_ := some (st.pl.phys / 64, st.ord) } else k }
    let s := s.log p 4 v (.ofNat 64 e) 64 st.x.toNat
    let s := match (m.marks.find? fun k => k.expert == e).bind (·.record) with
      | some r => s.postRecord p r
      | none => s
    match copy with
    | none => s
    | some c =>
      let s := s.putCmd { c with stage := .ended }
      match c.work, c.review with
      | .rcopy _ _ die _ _ _ _, some (count, live) => s.postRecord p (recordOf 2 0 v count e die live)
      | _, _ => s

/-! ## Merging (R361) -/

/-- RMERGE (R361). -/
def execRmerge (g : Guard) (p : Pred) (a : Reg) (s : State) : Host.Outcome State Fault Refusal :=
  let i : Instr := .rmerge g p a
  issue i g 0 true (withMonarch i a fun b s =>
    let f := fun (w lo n : Nat) => (dw b w).toNat / 2 ^ lo % 2 ^ n
    let r := s.part.regs
    let e := f 0 0 12
    let count := f 1 0 32
    let stale := Out.stop (.of .replicaStale (s.g a))
    match blockInsts (dw b 2) with
    | none => stale
    | some (rdi, vsi) =>
      if f 0 12 52 ≠ 0 ∨ f 1 32 32 ≠ 0 ∨ f 2 32 32 ≠ 0 ∨ dw b 5 ≠ 0 ∨ dw b 6 ≠ 0 ∨ dw b 7 ≠ 0 ∨ mnNexpm r.mncfg < e
          ∨ count = 0 ∨ (mnAsz r.mngeo - mnWsz r.mngeo) * 16384 < count then stale
      else
        accept p (s.g a) s.merges (fun s =>
          let c := s.newCmd 2 0 rdi vsi (dw b 3) (dw b 4) 0 (.rmerge e count) true
          { s with merges := s.merges ++ [{ c with seg := none, entry := r.entryAt e, wsz := mnWsz r.mngeo }] }) s) s

/-- One step of a merge (R361): the entry, then the lines of every buffer, piece by piece. -/
def mergeStep (s : State) (c : Cmd) : Did :=
  match c.work with
  | .rmerge _ count =>
    match c.stage with
    | .begin_ =>
      match cmdRead c.entry 64 s c with
      | .ok v s c =>
        if entLive (.ofNat 512 v) 0 then .wait s { c with data := v, stage := .write }
        else .fail s (c.failed Cause.replicaStale.code 0)
      | r => r
    | .write =>
      let ent : Vec := .ofNat 512 c.data
      let base := fun (k : Nat) => ownWord (entAddr ent k + c.wsz * 65536)
      let order := (List.range 8).flatMap fun d => (entSlots ent).filter fun k => entDie ent k == d
      let n := min 16 (count - c.pos)
      let at_ := fun (k : Nat) => base k + .ofNat 64 (4 * c.pos)
      match order.find? fun k => !c.cache.any fun x => x.1 == at_ k with
      | some k =>
        match cmdRead (at_ k) (4 * n) s c with
        | .ok v s c => .wait s { c with cache := c.cache ++ [(at_ k, 4 * n, v)] }
        | r => r
      | none =>
        let line := fun (k : Nat) => ((c.cache.find? fun x => x.1 == at_ k).map (·.2.2)).getD 0
        let el := fun (k j : Nat) => floatVal .f32 (line k / 2 ^ (32 * j) % 2 ^ 32)
        let one := fun (j : Nat) => match order with
          | [] => 0
          | k :: r => (r.foldl (fun (a : Nat) k => toFloat .f32 .rne 0 false ((floatVal .f32 a).add false (el k j)))
              (line k / 2 ^ (32 * j) % 2 ^ 32))
        let out := (List.range n).foldr (fun j a => one j + 2 ^ 32 * a) 0
        match cmdWrite (at_ 0) (4 * n) (.allOnes 64) out s c with
        | .ok v s c =>
          .ok v s { c with cache := [], pos := c.pos + n, stage := if count ≤ c.pos + n then .ended else .write }
        | r => r
    | .read | .join | .ended => .wait s c
  | _ => .fail s (c.failed 0 0)

/-- RMERGE_EXECUTE (R361): Monarch performs its merges one at a time. -/
def execRmergeExecute (_k : Nat) (s : State) : Host.Outcome State Fault Refusal :=
  match s.merges.head? with
  | some c => .next (s.runCmd c mergeStep)
  | none => .next s

/-! ## RSTAT (R362) -/

/-- The oldest record leaves the queue, and the thread holds it while it writes it. -/
def State.takeRecord (s : State) (r : Nat) : State :=
  let p := s.slot.part
  let m := s.monarch p
  let s := s.setMonarch p { m with records := m.records.drop 1 }
  s.setSlot { s.slot with prog := { s.slot.prog with got := [.ofNat 512 r] } }

/-- Writes the two doublewords of a record, those from the n-th on: a fault leaves the record queued. -/
def writeRecord (i : Instr) (va : Word) (r : Nat) (k : State → Out) : Nat → State → Out
  | 0, s => k s
  | n + 1, s =>
    let j := 1 - n
    let a := va + .ofNat 64 (8 * j)
    let x : Vec := .ofNat 512 (r / 2 ^ (64 * j) % 2 ^ 64)
    let fail := fun (e : Stop) => match e with
      | .trap c v => Out.stay ((s.backRecord r).trap c v)
      | .page va kind => .stay ((s.backRecord r).pageFault s.cur va kind)
    match s.access a 8 { w := true, n := true } with
    | .error e => fail e
    | .ok (.here pl) => match s.storeAt a pl 8 x.toNat with
      | .error e => fail e
      | .ok s => writeRecord i va r k n s
    | .ok (.away dv) => requestAway i dv (.write a ⟨0, 0, false⟩ 8 x) (.record r) s
    | .ok (.reg off) => request i (.w4write off 8 x) (.record r) s

/-- RSTAT (R362): the record that it takes is no other RSTAT's and not the host's. -/
def execRstat (g : Guard) (d a : Reg) (s : State) : Host.Outcome State Fault Refusal :=
  let i : Instr := .rstat g d a
  issue i g 1 true (fun s =>
    let va := s.g a
    if s.slot.open_ then .stop (.of .choiceEscape va)
    else
      let write := fun (r : Nat) (s : State) => writeRecord i va r (fun s =>
        let p := s.slot.part
        let m := s.monarch p
        .setG d (.ofNat 64 (2 ^ 63 * m.ovf.toNat + m.records.length)) (s.setMonarch p { m with ovf := false }))
        (2 - s.slot.prog.lanes) s
      match s.slot.prog.got, (s.monarch s.slot.part).records with
      | v :: _, _ => write v.toNat s
      | [], [] => .setG d (.allOnes 64) s
      | [], r :: _ =>
        .bind (s.access va 8 { w := true, n := true }) fun _ =>
        .bind (s.access (va + 8) 8 { w := true, n := true }) fun _ => write r (s.takeRecord r)) s

/-! ## Monarch's part in a step (R350, R351, R357) -/

/-- A task released before an instant has not retired (R357). -/
def Part.oldTask (x : Part) (v : Instant) : Bool :=
  x.launches.any fun l => (List.range (descCrews l.desc)).any fun c =>
    decide ((crewRel l.desc c).toNat < v.toNat) && (!l.started.contains c
      || l.live.any fun t => t.1 / (descCrew l.desc * descTeam l.desc) == c)

/-- Publications that the step has applied clear their marks; areas whose time has come become free. -/
def State.settleMarks (s : State) (p : Fin 8) : State :=
  let x := s.partAt p
  let m := x.monarch
  let done := m.marks.filter fun k => k.accepted && decide (k.v.toNat ≤ x.now.toNat)
  let freeing := m.freeing ++ done.flatMap fun k => (k.frees x.regs).map fun a => (a.1, a.2, k.v, true)
  let free := fun (f : Nat × Nat × Instant × Bool) =>
    decide (f.2.2.1.toNat ≤ x.now.toNat) && (!f.2.2.2 || !x.oldTask f.2.2.1)
  s.setMonarch p { m with
    marks := m.marks.filter fun k => !done.contains k
    taken := (m.taken ++ done.flatMap (·.takes x.regs)).filter fun a =>
      !freeing.any fun f => free f && f.1 == a.1 && f.2.1 == a.2
    freeing := freeing.filter fun f => !free f }

/-- The ordinal of Monarch's own publications (R349). -/
def Monarch.ord (m : Monarch) : Instant := .ofNat 48 (0xFFFFFFFE * 2 ^ 16 + m.pubs % 2 ^ 16)

/-- load(d) (R351). -/
def loadOf (ents : List (Nat × Vec)) (c : Nat → Nat) (d : Nat) : Nat :=
  (ents.map fun e => if (entSlots e.2).any fun k => entDie e.2 k == d then c e.1 / (entSlots e.2).length else 0).sum

/-- The enabled die of least load that holds no replica of the expert and has a free area, and that area (R351). -/
def State.roomFor (s : State) (p : Fin 8) (r : PartRegs) (ent : Vec) (load : Nat → Nat) : Option (Nat × Nat) :=
  let m := s.monarch p
  let areas := List.range (mnNareaM r.mngeo + 1)
  let ok := fun (d : Nat) => s.dieOn d && !((entSlots ent).any fun k => entDie ent k == d) && areas.any (m.free d)
  let best := ((List.range 8).filter ok).foldl (fun (b : Option Nat) d => match b with
    | none => some d
    | some x => if load d < load x then some d else some x) none
  best.map fun d => (d, (areas.find? (m.free d)).getD 0)

/-- A copy that a review starts (R351, R358), by its step's registers. Its area is taken if it is still one of the partition's. -/
def State.reviewCopy (s : State) (p : Fin 8) (r : Review) (e count : Nat) (ent : Vec) (d k : Nat) : State :=
  let x := s.partAt p
  let now := r.inst
  let v := now + .ofNat 48 (mnLag r.regs.mngeo)
  let held := if x.regs.mnarea = r.regs.mnarea ∧ x.regs.mngeo = r.regs.mngeo then some k else none
  let c : Cmd := {
    stamp := s.stamp, unit := 2, eng := 0, part := p, core := s.deviceCore, task := none, seg := none
    ord := x.monarch.ord, slip := false, rel := now, rdi := now, vsi := v, mode := r.regs.rmode, sat := false
    key := r.regs.srkey, hnd := 0, tag := 0, cid := 0, work := copyWork r.regs ent e d k held, inst := true
    review := some (count, liveBits ent), entry := r.regs.entryAt e, wsz := mnWsz r.regs.mngeo }
  let s := (s.beginCopy c e d held).bump
  s.setMonarch p { s.monarch p with pubs := x.monarch.pubs + 1 }

/-- A retirement that a review makes (R351, R357). -/
def State.reviewRetire (s : State) (p : Fin 8) (r : Review) (e count : Nat) (ent : Vec) : Except Stop State :=
  let v := r.inst + .ofNat 48 (mnLag r.regs.mngeo)
  let k := (entSlots ent).getLastD 0
  let img := entWith ent k (dw ent k &&& 0x7FFFFFFFFFFFFFFF)
  (s.publish p e (r.regs.entryAt e) img v (s.monarch p).ord false none).map fun s =>
    let m := s.monarch p
    let mark : Mark := {
      expert := e, v := v, retired := some (entAddr ent k), record := some (recordOf 3 0 v count e (entDie ent k) (liveBits ent)) }
    s.setMonarch p { m with marks := m.marks ++ [mark], pubs := m.pubs + 1 }

/-- Reads the entries that a review has left, as of its instant, until one waits for its page (R349). An entry that fails another check
is left as it stands (log entry 57). -/
def State.readEntries (s : State) (p : Fin 8) : List Nat → Review → State × Review
  | [], r => (s, { r with left := [], todo := some r.ents })
  | e :: l, r =>
    match s.entryOf p (r.regs.entryAt e) r.inst with
    | .ok v => s.readEntries p l (if entLive v 0 then { r with ents := r.ents ++ [(e, v)] } else r)
    | .error (.page va k) => (s.unitFault (s.deviceCore / 16) p va k r.stamp, { r with left := e :: l })
    | .error _ => s.readEntries p l r

/-- What a review does about one expert (R351), by the registers and the mode of its step. -/
def State.reviewOne (s : State) (p : Fin 8) (r : Review) (e : Nat) (ent : Vec) : Except Stop State :=
  let cfg := r.regs.mncfg
  let c := fun (e : Nat) => (Table.get 0 r.counts e).toNat
  let n := (entSlots ent).length
  let hot := decide (n < 8) && decide (mnHot cfg * n ≤ c e)
  let cold := decide (1 < n) && decide (c e < mnCold cfg * (n - 1))
  let post := fun (kind : Nat) => s.postRecord p (recordOf kind 0 r.inst (c e) e 0 (liveBits ent))
  if (s.monarch p).marked e then .ok s
  else if r.plch then .ok (if hot then post 0 else if cold then post 1 else s)
  else if hot then
    .ok (match s.roomFor p r.regs ent (loadOf r.ents c) with
      | none => post 0
      | some (d, k) => if 8 ≤ s.copies.length then post 0 else s.reviewCopy p r e (c e) ent d k)
  else if cold then s.reviewRetire p r e (c e) ent
  else .ok s

/-- What a review does about the experts that are left, until one waits for its page; those that are left then. -/
def State.reviewAll (s : State) (p : Fin 8) (r : Review) : List (Nat × Vec) → State × List (Nat × Vec)
  | [] => (s, [])
  | ev :: l =>
    match s.reviewOne p r ev.1 ev.2 with
    | .ok t => t.reviewAll p r l
    | .error (.page va k) => (s.unitFault (s.deviceCore / 16) p va k r.stamp, ev :: l)
    | .error _ => s.reviewAll p r l

/-- A partition's oldest review goes on, unless it waits for a page. -/
def State.goReview (s : State) (p : Fin 8) : State :=
  match (s.monarch p).reviews with
  | [] => s
  | r :: rest =>
    if s.unitBlocked (s.deviceCore / 16) r.stamp then s
    else
      let (s, r) := if r.todo.isNone then s.readEntries p r.left r else (s, r)
      let (s, left) := match r.todo with
        | none => (s, [r])
        | some l => match s.reviewAll p r l with
          | (s, []) => (s, [])
          | (s, l) => (s, [{ r with todo := some l }])
      s.setMonarch p { s.monarch p with reviews := left ++ rest }

/-- The review of a step (R351): a snapshot of the counters, then the experts in order. -/
def State.review (s : State) (p : Fin 8) : State :=
  let x := s.partAt p
  let iv := mnIv x.regs.mncfg
  if iv = 0 ∨ x.now.toNat % iv ≠ 0 then s
  else
    let r : Review := {
      inst := x.now, counts := x.monarch.counts, regs := x.regs, plch := s.dev.hamode.getLsbD 3, stamp := s.stamp,
      left := List.range (mnNexpm x.regs.mncfg + 1) }
    (s.bump.setMonarch p { x.monarch with counts := [], reviews := x.monarch.reviews ++ [r] }).goReview p

end Sys2Proof.Machine
end

