-- ==== Sys2Proof/Machine/Landing.lean ====
section
/-! DEFINITION. Stores at their home ports (07_instant, R152, R153): what an accepted, slipped, discarded or stalled one means to
the thread, the engine command, the list or the publication that made it. -/

namespace Sys2Proof.Machine

/-- A slip of a thread's store counts for its task (R153, R231). -/
def State.slipTask (s : State) (n : Nat) : State :=
  s.onLive (s.slotAt n).part (s.slotAt n).task fun t => { t with slip := true, slips := t.slips + 1 }

/-- How a landing answers. -/
def Landing.reply (l : Landing) (va : Word) : Reply :=
  match l with
  | .accepted true => .slipped
  | .accepted false | .full => .ok 0
  | .missed => .fail Cause.instantMiss.code va
  | .failed => .fail Cause.eccUncorrectable.code va

/-- The bytes that a store names. -/
def Store.count (st : Store) : Nat := ((List.range st.n).filter fun k => st.mask.getLsbD k).length

/-- The core whose array runs the list with a stamp. -/
def State.listCore (s : State) (stamp : Nat) : Option Nat :=
  (s.arrays.find? fun e => match e.2.run with
    | some x => x.stamp == stamp
    | none => false).map (·.1)

/-- An engine command or a list ends because a transfer of it has failed; a piece that was on its way is so no more. -/
def State.failUnit (s : State) (stamp : Nat) (cause : Byte) (va : Word) (piece : Bool) : State :=
  match s.listCore stamp with
  | some core => match (s.arrayAt core).run with
    | some x => s.failList core x (if cause = Cause.copyFail.code then Cause.fabricUnreachable.code else cause) va
    | none => s
  | none => match s.commands.find? fun c => c.stamp == stamp with
    | none => s
    | some c =>
      let cause := if cause = Cause.copyFail.code ∧ c.isColl = true then Cause.fabricUnreachable.code else cause
      let c : Cmd := { c with
        flight := if c.flight.any fun f => f.1 == va then none else c.flight
        out := if piece then c.out - 1 else c.out }
      let d := c.failed cause va
      match c.work with
      | .rcopy .. =>
        let d := { d with out := 0, cid := 0, lost := none }
        if c.stage = .ended then s.putCmd c else (s.abortCopy d).putCmd d
      | .coll _ _ _ part _ devs _ =>
        if c.stage = .read ∨ (c.stage = .begin_ ∧ c.entry = 0) then
          let part := { part with fail := some (cause, va) }
          (s.contribute c.part devs part).putCmd { c with stage := .join, pos := 0, data := 0, got := none, hold := none }
        else s.putCmd d
      | _ => s.putCmd d

/-- A piece of a list or of an engine command has landed (R279, R302); one whose line fails its check ends it (R284, R302). -/
def State.landPiece (s : State) (stamp : Nat) (l : Landing) (va : Word) (n : Nat) : State :=
  let slipped := l == .accepted true
  if l = .failed then s.failUnit stamp Cause.eccUncorrectable.code va true
  else match s.listCore stamp with
  | some core =>
    match (s.arrayAt core).run with
    | none => s
    | some x =>
      let s := s.setRun core (x.landed l va)
      if slipped then
        let y := s.slotAt x.slot
        (s.setSlotAt x.slot { y with ctx := y.ctx.setSlip true }).slipTask x.slot
      else s
  | none =>
    match s.commands.find? fun c => c.stamp == stamp with
    | none => s
    | some c =>
      let s := s.putCmd (c.landed l va n)
      if slipped then s.slipCmd c else s

/-- A store has reached its home port (R152, R153). -/
def State.arrive (s : State) (p : Fin 8) (o : Origin) (st : Store) : State :=
  let (s, l) := s.land p st
  let port := st.pl.home / 16
  if l = .full then
    let q := s.portAt port
    s.setPortAt port { q with stalled := q.stalled ++ [(p, o, st)] }
  else
    let slip := fun (n : Nat) (s : State) => if l = .accepted true then s.slipTask n else s
    match o with
    | .slot n => (slip n s).answer p n (l.reply st.va) (.plain (st.pl.phys / 64))
    | .entry n =>
      let s := slip n s
      let x := s.slotAt n
      let s := match l with
        | .accepted true => s.setSlotAt n { x with ctx := x.ctx.setSlip true }
        | .missed => s.noteLost n Cause.instantMiss.code st.va
        | .failed => s.noteLost n Cause.eccUncorrectable.code st.va
        | _ => s
      s.sendNext n (s.provOf n).length.succ
    | .cmd k => s.landPiece k l st.va st.count
    | .publish slot e =>
      let s := s.published p slot e st l
      match slot with
      | some n => (slip n s).answer p n (l.reply st.va) (.plain (st.pl.phys / 64))
      | none => s
    | .peer d n => s.export d ⟨p, .reply n (l.reply st.va) .none⟩
    | .peerCmd d k => s.export d ⟨p, .unitReply k (l.reply st.va)⟩
    | .unit _ | .completed .. | .peerUnit .. | .host => s

/-- STORE_ARRIVAL (R152). -/
def execStoreArrival (k : Nat) (s : State) : Host.Outcome State Fault Refusal :=
  match s.takePacket k with
  | some (⟨p, .store o st⟩, s) => .next (s.arrive p o st)
  | _ => .next s

/-- Stores that wait at a port are tried again, oldest first (R152). -/
def State.retryStalled (s : State) (port : Nat) : State :=
  let q := s.portAt port
  q.stalled.foldl (fun s e => s.arrive e.1 e.2.1 e.2.2) (s.setPortAt port { q with stalled := [] })

end Sys2Proof.Machine
end

