-- ==== Sys2Proof/Machine/Sync.lean ====
section
/-! DEFINITION. Synchronisation (09_synchronisation, R196 to R213): reservation chains, local atomics, monitors and
barriers. -/

namespace Sys2Proof.Machine

/-- Checks 1 to 5 of R73 of the thread that acts. -/
def State.checks5 (s : State) (va : Word) (n : Nat) (q : Need) : Except Stop Win :=
  match checkSeg s.slot va n q with
  | .error e => .error e
  | .ok () => s.checkWin s.coreIdx s.slot.part va n

/-! ## Reservations -/

/-- RSV (R198). -/
def execRsv (g : Guard) (d a : Reg) (z : DSize) (o : BitVec 9) (s : State) : Host.Outcome State Fault Refusal :=
  issue (.rsv g d a z o) g 0 true (fun s =>
    let n := dsizeBytes z
    let va := ea (s.g a) o n
    if s.slot.open_ then .stop (.of .choiceEscape va)
    else .bind (s.checks5 va n { r := true, w := true, n := true }) fun _ =>
      if !s.onDevice va then .stop (.of .segBound va)
      else if s.ctx.rsvn = 4 then .stop (.of .rsvMisuse va)
      else .bind (s.access va n { r := true, w := true, n := true }) fun t =>
        reach (.rsv g d a z o) false va t (.rsv va · z s.ctx.taskIdx) none (.rsv d) s) s

/-- RLS and RLSN (R199): the release drains at .dev, then goes to the home. -/
def release (i : Instr) (va : Word) (z : DSize) (x : Option Word) (s : State) : Out :=
  if s.slot.open_ then .stop (.of .choiceEscape va)
  else .bind (s.checks5 va (dsizeBytes z) { w := true, n := true }) fun _ =>
    drain i .dev (fun s =>
      .bind (s.access va (dsizeBytes z) { w := true, n := true }) fun t =>
        match t with
        | .reg _ => .stop (.of .rsvMisuse va)
        | t => reach i false va t (.rls va · z s.ctx.taskIdx x) none .rls s) s

/-- RLS (R199). -/
def execRls (g : Guard) (d a : Reg) (z : DSize) (o : BitVec 9) (s : State) : Host.Outcome State Fault Refusal :=
  issue (.rls g d a z o) g 0 false (fun s =>
    release (.rls g d a z o) (ea (s.g a) o (dsizeBytes z)) z (some (low (dsizeBytes z) (s.g d))) s) s

/-- RLSN (R199). -/
def execRlsn (g : Guard) (a : Reg) (z : DSize) (o : BitVec 9) (s : State) : Host.Outcome State Fault Refusal :=
  issue (.rlsn g a z o) g 0 false (fun s => release (.rlsn g a z o) (ea (s.g a) o (dsizeBytes z)) z none s) s

/-- RSV_RESEND (R198): a request refused by a full home is sent again once its 16 ticks have passed. -/
def execRsvResend (n : Nat) (s : State) : Host.Outcome State Fault Refusal :=
  match (s.slotAt n).run with
  | .waiting (.resend t) => .next (if t ≤ s.refcnt then s.resumeSlot n else s)
  | _ => .next s

/-- An RSV-ABANDON record (R202). -/
def abandonMsg (dev : Nat) (task : Half) (e : Reservation) (v : Nat) : Vec :=
  vecOf [0, header false 3 dev task 0, 0x1E, e.va, if e.z = .d then 1 else 0, .ofNat 64 v, 0, 0]

/-- ABANDON_PACKET (R201, R202): every entry of the holder key is removed; for each word it held a record is posted and
the next waiter becomes the head. The thread that ends goes on with no reservation held. A word on a line that fails its check gives
0 in its record (log entry 106). -/
def execAbandonPacket (k : Nat) (s : State) : Host.Outcome State Fault Refusal :=
  match s.takePacket k with
  | some (⟨p, .abandon n key⟩, t) =>
    let mine := fun (e : Reservation) => e.part == p && e.key == key
    let heads := t.reservations.filter fun e => mine e && (t.queueAt e.pl.phys).head? == some e
    let t := { t with reservations := t.reservations.filter fun e => !mine e }
    let one := fun (u : State) (e : Reservation) =>
      passOn (u.queueAt e.pl.phys) (u.post p e.pl.home (n / 16) false
        (abandonMsg u.ownIdx key e (if u.badAt e.pl.phys then 0 else u.mem.read e.pl.phys (dsizeBytes e.z))))
    let t := heads.foldl one t
    let t := t.onTask p (t.slotAt n).task fun r => { r with abandon := r.abandon + heads.length }
    let x := t.slotAt n
    .next ((t.setSlotAt n { x with ctx := x.ctx.setRsvn 0 }).resumeSlot n)
  | _ => .next s

/-! ## Local atomics -/

/-- The new value of an atomic on n bytes (R204). -/
def atomicNew (o : AOp) (n : Nat) (old y cmp : Nat) : Nat :=
  let sgn := fun (v : Nat) => (BitVec.ofNat (8 * n) v).toInt
  match o with
  | .add => (old + y) % 2 ^ (8 * n)
  | .and => old &&& y
  | .or => old ||| y
  | .xor => old ^^^ y
  | .min => if sgn old ≤ sgn y then old else y
  | .max => if sgn old ≤ sgn y then y else old
  | .swap => y
  | .cas => if old = cmp then y else old

/-- The word of the core's own store that an address of W0 or W1 names (R204). -/
def State.ownWord (s : State) (va : Word) : Option Place :=
  match winOf (localAddr va), s.onDevice va with
  | some .w0, true => some ⟨localPhys s.coreIdx va, s.coreIdx, false⟩
  | some .w1, true => if localAddr va / 2 ^ 19 % 2 ^ 11 = s.coreIdx then some ⟨localPhys s.coreIdx va, s.coreIdx, false⟩ else none
  | _, _ => none

/-- LAMO on a word of the core's own store, within one issue turn (R204). -/
def lamoHere (d b : Reg) (o : AOp) (z : DSize) (va : Word) (pl : Place) (s : State) : Out :=
  let n := dsizeBytes z
  .bind (s.readAt va pl n) fun old =>
    let new := atomicNew o n old ((s.g b).toNat % 2 ^ (8 * n)) ((s.g d).toNat % 2 ^ (8 * n))
    .bind (guardArena va n s) fun s =>
    .bind (setG d (extend (dsizeSize z) true (.ofNat 64 old)) s) fun s =>
      .seq (s.nowWrite s.slot.part pl.phys n new (some s.cur) none)

/-- LAMO (R204): a roaming thread goes to the word's home first; checks 6 and 7 are made for that journey alone. -/
def execLamo (g : Guard) (d a b : Reg) (o : AOp) (z : DSize) (s : State) : Host.Outcome State Fault Refusal :=
  issue (.lamo g d a b o z) g 0 false (fun s =>
    let n := dsizeBytes z
    let va := s.g a
    let i : Instr := .lamo g d a b o z
    let q : Need := { r := true, w := true, n := true }
    let bound := Out.stop (.of .segBound va)
    .bind (s.checks5 va n q) fun _ =>
      match s.ownWord va with
      | some pl => lamoHere d b o z va pl s
      | none =>
        if !s.slot.roams || winOf (localAddr va) == some .w4 then bound
        else .bind (s.access va n q) fun t =>
          match t with
          | .reg _ => bound
          | .away dv => leaveFor i va n q dv (fun _ => bound) s
          | .here pl => if pl.home = s.coreIdx ∨ pl.so = true then bound else migrate i (encodeWord i) va pl.home s) s

/-! ## Monitors -/

/-- The monitor entry of a line, by the address under which it was armed (R206; log entry 100). -/
def Slot.monitorOf (x : Slot) (line : Word) : Option Nat :=
  x.monitors.toList.findIdx? fun m => match m with
    | some m => m.line == line
    | none => false

/-- MON (R206). -/
def execMon (g : Guard) (a : Reg) (s : State) : Host.Outcome State Fault Refusal :=
  issue (.mon g a) g 0 false (fun s =>
    let va := s.g a
    let line := vline va
    .bind (s.checks5 va 1 { r := true, n := true }) fun _ =>
      if !s.onDevice va then .stop (.of .segBound va)
      else match s.slot.monitorOf line with
        | some k =>
          let x := s.slot
          let m := (x.monitors.toList.getD k none).map fun m => { m with fired := false }
          .seq (s.setSlot { x with monitors := x.monitors.setIfInBounds k m })
        | none =>
          if s.slot.monitors.toList.all (·.isSome) then .stop (.of .monitorFull va)
          else .bind (s.access va 1 { r := true, n := true }) fun t =>
            reach (.mon g a) false va t (.mon va) none (.mon line) s) s

/-- The fired flags of a slot, entry k in bit k (R207). -/
def Slot.fired (x : Slot) : Nat :=
  x.monitors.toList.foldr (fun m b => 2 * b + (match m with
    | some m => m.fired.toNat
    | none => 0)) 0

/-- MWAIT (R207): returns at once when a flag is set, else when one is, at its deadline, or at an interrupt. -/
def execMwait (g : Guard) (d a : Reg) (s : State) : Host.Outcome State Fault Refusal :=
  issue (.mwait g d a) g 0 true (fun s =>
    let x := s.slot
    let t := (s.g a).toNat % 2 ^ 32
    let until_ := if x.prog.word.isSome then x.prog.deadline else if t = 0 then none else some (s.refcnt + t)
    let tmo := match until_ with
      | some u => decide (u ≤ s.refcnt)
      | none => false
    if x.fired = 0 ∧ tmo = false ∧ x.prog.int = false then
      .stay ((s.setSlot { x with prog := { x.prog with deadline := until_ } }).await (.mwait g d a) (.monitor until_))
    else
      let clear := x.monitors.map fun m => m.map fun m => { m with fired := false }
      .setG d (.ofNat 64 (32 * x.prog.int.toNat + 16 * tmo.toNat + x.fired)) (s.setSlot { x with monitors := clear })) s

/-- MOFF (R208). -/
def execMoff (g : Guard) (a : Reg) (s : State) : Host.Outcome State Fault Refusal :=
  issue (.moff g a) g 0 false (fun s =>
    let x := s.slot
    .seq (match x.monitorOf (vline (s.g a)) with
      | some k => s.setSlot { x with monitors := x.monitors.setIfInBounds k none }
      | none => s)) s

/-- The fired flags of a line's entries are set, and a wait for them goes on (R205, R207). -/
def Slot.notice (x : Slot) (line : Nat) : Slot :=
  let hit := fun (m : Option Monitor) => match m with
    | some m => m.home == line
    | none => false
  if x.monitors.toList.any hit then
    { x with
      monitors := x.monitors.map fun m => if hit m then m.map fun m => { m with fired := true } else m
      run := match x.run with
        | .waiting (.monitor _) => .runnable
        | r => r }
  else x

/-- MONITOR_NOTICE (R205). -/
def execMonitorNotice (k : Nat) (s : State) : Host.Outcome State Fault Refusal :=
  match s.takePacket k with
  | some (⟨_, .notice line r⟩, t) =>
    .next { t with slots := t.slots.map fun e => if e.1 / 256 = r then (e.1, e.2.notice line) else e }
  | _ => .next s

/-- MWAIT_TIMEOUT (R207). -/
def execMwaitTimeout (n : Nat) (s : State) : Host.Outcome State Fault Refusal :=
  match (s.slotAt n).run with
  | .waiting (.monitor (some t)) => .next (if t ≤ s.refcnt then s.resumeSlot n else s)
  | _ => .next s

/-! ## Barriers -/

/-- Fields of a configuration word (R210). -/
def barScope (w : Word) : Scope :=
  match w.toNat / 2 ^ 16 % 4 with
  | 0 => .core
  | 1 => .clu
  | 2 => .die
  | _ => .dev
def barN (w : Word) : Nat := w.toNat % 2 ^ 16

/-- The root router of a scope (R209). -/
def State.barRoot (s : State) (cluster : Nat) : Scope → Nat
  | .core | .clu => cluster
  | .die => cluster / 16 * 16
  | .dev => s.firstDie * 16

/-- The cores of the partition in a scope (R210). -/
def State.scopeCores (s : State) (p : Fin 8) : Scope → Nat
  | .core => 1
  | .clu => 16
  | .die => 256
  | .dev => 256 * countDies (pdefDies (s.pdefOf p))

/-- The context of an id (R209). -/
def State.barCtx (s : State) (id : Nat) : Nat := s.slot.part.val * s.share64 + id

/-- The thread's launch is resident. -/
def State.resident (s : State) : Bool :=
  match s.slot.task with
  | none => false
  | some (id, _) =>
    match s.part.launches.find? fun l => l.id == id with
    | some l => descRes l.desc
    | none => false

/-- BARI (R210, R213). -/
def execBari (g : Guard) (a b : Reg) (s : State) : Host.Outcome State Fault Refusal :=
  issue (.bari g a b) g 0 true (fun s =>
    let id := s.g a
    let w := s.g b
    let sc := barScope w
    if s.slot.open_ then .stop (.of .choiceEscape id)
    else if s.share64 ≤ id.toNat || decide (2 ^ 18 ≤ w.toNat) || decide (barN w = 0)
        || decide ((s.ordinary s.slot.part).length * s.scopeCores s.slot.part sc < barN w)
        || ((sc == .die || sc == .dev) && !s.resident) then .stop (.of .barrierMisuse id)
    else
      let c := s.barCtx id.toNat
      .stay ((s.send s.slot.part (.barReg s.cluster s.cur c w)).await (.bari g a b) (.opening c))) s

/-- A launch has lost tasks (R232). -/
def State.broken (s : State) (p : Fin 8) (id : Option Nat) : Bool :=
  (s.partAt p).launches.any fun l => some l.id == id && l.lost != 0

/-- The context of an id at the issuing core's cluster router (R213): it counts as configured from its first registration there
on, before its phase 0 is open (log entry 101). -/
def State.barHere (s : State) (id : Word) : Option Barrier :=
  if s.share64 ≤ id.toNat then none
  else ((s.portAt s.cluster).barriers.find? fun e => e.1 == s.barCtx id.toNat).map fun e => e.2

/-- Every marked port has reported its participants (R211). -/
def Barrier.full (b : Barrier) : Bool := b.ports.all fun q => decide (q.members ≤ q.arrived)

/-- The context as its next phase opens: drops leave, arrivals are counted anew. -/
def Barrier.turn (b : Barrier) (phase : BitVec 16) : Barrier :=
  { b with
    ports := (b.ports.map fun q => { q with members := q.members - q.drops, arrived := 0, drops := 0 }).filter
      fun q => decide (0 < q.members)
    phase := phase, reported := false }

/-- Arrivals at a port are counted, one that no participant registered through at none (log entry 119). -/
def Barrier.arrive (b : Barrier) (port m drops : Nat) : Barrier :=
  { b with ports := b.ports.map fun q =>
    if q.port = port then { q with arrived := q.arrived + m, drops := q.drops + drops } else q }

/-- Every participant has arrived. -/
def Barrier.complete (b : Barrier) : Bool := b.full && !b.ports.isEmpty

/-- What an arrival makes of a context (R211): a root completes its phase and opens the next, a router below it has reported. -/
def Barrier.count (b : Barrier) (root : Bool) (port m drops : Nat) : Barrier :=
  let a := b.arrive port m drops
  if !a.complete then a else if root then a.turn (a.phase + 1) else { a with reported := true }

/-- The context of a router once the packets on their way to it have come: an arrival made now counts in its open phase (R211). -/
def State.barAfter (s : State) (r c : Nat) : Option Barrier :=
  s.net.foldl (fun (o : Option Barrier) q => o.map fun b => match q.body with
    | .barDone r' c' phase opening =>
      if r' = r ∧ c' = c ∧ opening = false ∧ s.barRoot r (barScope b.config) ≠ r then b.turn phase else b
    | .barArr r' c' port m drops =>
      if r' = r ∧ c' = c then b.count (s.barRoot r (barScope b.config) == r) port m drops else b
    | _ => b) (((s.portAt r).barriers.find? fun e => e.1 == c).map fun e => e.2)

/-- BARA and BARD (R211): drain at the barrier's scope, then one arrival packet. -/
def arriveBarrier (i : Instr) (d a : Reg) (drops : Nat) (s : State) : Out :=
  let id := s.g a
  if s.slot.open_ then .stop (.of .choiceEscape id)
  else match s.barHere id with
    | none => .stop (.of .barrierMisuse id)
    | some b => drain i (barScope b.config) (fun s =>
        .setG d ((((s.barAfter s.cluster (s.barCtx id.toNat)).getD b).phase + 1).setWidth 64)
          (s.send s.slot.part (.barArr s.cluster (s.barCtx id.toNat) s.coreIdx 1 drops))) s

/-- BARA (R211). -/
def execBara (g : Guard) (d a : Reg) (s : State) : Host.Outcome State Fault Refusal :=
  issue (.bara g d a) g 0 true (arriveBarrier (.bara g d a) d a 0) s

/-- BARD (R211). -/
def execBard (g : Guard) (d a : Reg) (s : State) : Host.Outcome State Fault Refusal :=
  issue (.bard g d a) g 0 true (arriveBarrier (.bard g d a) d a 1) s

/-- Phase q has completed when c is the last completed one (R212). -/
def phaseDone (c q : BitVec 16) : Bool := decide ((c - q).toNat < 2 ^ 15)

/-- BARW (R212): a thread that would wait on a context of a launch with lost tasks raises BARRIER-MISUSE (R232). -/
def execBarw (g : Guard) (a b : Reg) (s : State) : Host.Outcome State Fault Refusal :=
  issue (.barw g a b) g 0 true (fun s =>
    let id := s.g a
    let q := (s.g b).setWidth 16
    if s.slot.open_ then .stop (.of .choiceEscape id)
    else match s.barHere id with
      | none => .stop (.of .barrierMisuse id)
      | some c =>
        if phaseDone c.phase q then forgetAhead s
        else if s.broken s.slot.part c.launch then .stop (.of .barrierMisuse id)
        else .stay (s.await (.barw g a b) (.phase (s.barCtx id.toNat) q))) s

/-- A participant more at a port of a context. -/
def Barrier.mark (b : Barrier) (port : Nat) : Barrier :=
  if b.ports.any fun q => q.port == port then
    { b with ports := b.ports.map fun q => if q.port = port then { q with members := q.members + 1 } else q }
  else { b with ports := b.ports ++ [⟨port, 1, 0, 0⟩] }

/-- A context at a router. -/
def State.barAt (s : State) (r c : Nat) : Option Barrier :=
  ((s.portAt r).barriers.find? fun e => e.1 == c).map fun e => e.2

def State.setBar (s : State) (r c : Nat) (b : Option Barrier) : State :=
  let q := s.portAt r
  s.setPortAt r { q with barriers := match b with
    | some b => Table.set q.barriers c b
    | none => q.barriers.drop c }

/-- The routers below a root's context, the root among them. -/
def Barrier.below (b : Barrier) (root : Nat) : List Nat :=
  let l := b.ports.filterMap fun q => if 2048 ≤ q.port then some (q.port - 2048) else none
  if b.ports.any fun q => decide (q.port < 2048) then root :: l else if l.contains root then l else root :: l

/-- The task of a slot's thread, or of its saved one. -/
def State.taskOf (s : State) (p : Fin 8) (n : Nat) : Option (Nat × Nat) :=
  if n < 2 ^ 20 then (s.slotAt n).task else (Table.get {} (s.partAt p).kept (slotKey n)).task

/-- BARRIER_REGISTRATION (R210, R213): a router below the root passes the packet up; the root refuses a configuration that
differs, a context already open, or one of a launch with lost tasks (R232), counts it and its port on every router of the path, and
at N opens phase 0. A leaf that holds the id for a barrier of another scope counts the member there (log entry 101). -/
def execBarrierRegistration (k : Nat) (s : State) : Host.Outcome State Fault Refusal :=
  match s.takePacket k with
  | some (⟨p, .barReg r n c w⟩, t) =>
    let core := slotKey n / 16
    let leaf := core / 16
    let root := t.barRoot leaf (barScope w)
    if r ≠ root then .next (t.send p (.barReg root n c w))
    else
      let id := c - p.val * t.share64
      let new : Barrier := ⟨w, (t.taskOf p n).map (·.1), [], 0, 0xFFFF, false, false⟩
      let b := (t.barAt root c).getD new
      if b.config ≠ w ∨ b.opened = true ∨ t.broken p b.launch = true then .next (t.answer p n (.fail Cause.barrierMisuse.code (.ofNat 64 id)))
      else
        let b := { b.mark (if leaf = root then core else 2048 + leaf) with registered := b.registered + 1 }
        let t := if leaf = root then t
          else t.setBar leaf c (some (((t.barAt leaf c).getD new).mark core))
        if b.registered < barN w then .next (t.setBar root c (some b))
        else
          let done := (b.below root).map fun q => Packet.mk p (.barDone q c 0xFFFF true)
          .next { t.setBar root c (some { b with opened := true }) with net := t.net ++ done }
  | _ => .next s

/-- BARRIER_ARRIVAL (R211): counted at its port; a full router below the root reports upward once, and passes up a drop that comes
after that; a full root completes the phase, opens the next and multicasts it. -/
def execBarrierArrival (k : Nat) (s : State) : Host.Outcome State Fault Refusal :=
  match s.takePacket k with
  | some (⟨p, .barArr r c port m dr⟩, t) =>
    match t.barAt r c with
    | none => .next t
    | some b =>
      let root := t.barRoot r (barScope b.config)
      let a := b.arrive port m dr
      let u := t.setBar r c (some (b.count (root == r) port m dr))
      let up := fun (m dr : Nat) => u.send p (.barArr root c (2048 + r) m dr)
      if root = r then
        .next (if a.complete then
          { u with net := u.net ++ (a.below root).map fun q => Packet.mk p (.barDone q c (a.phase + 1) false) }
        else u)
      else if b.reported then .next (if dr ≠ 0 ∧ b.ports.any (·.port == port) then up dr dr else u)
      else .next (if a.complete then up ((a.ports.map (·.members)).sum) ((a.ports.map (·.drops)).sum) else u)
  | _ => .next s

/-- A waiting BARI or BARW that a completion satisfies ends (R210, R212); the end of BARW is an acquire (R69). -/
def State.endBarWait (c : Nat) (phase : BitVec 16) (opening : Bool) (s : State) (n : Nat) : State :=
  let x := s.slotAt n
  let ends := match x.run with
    | .waiting (.opening c') => opening && c' == c
    | .waiting (.phase c' q) => c' == c && phaseDone phase q
    | _ => false
  if ends then (s.setSlotAt n { x with ahead := if opening then x.ahead else [] }).endWait n else s

/-- A context with no participant left at its root is freed at every router of its path (R210; log entry 102). -/
def State.freeBar (s : State) (root c : Nat) (sc : Scope) : State :=
  { s with ports := s.ports.map fun e =>
      (e.1, if s.barRoot e.1 sc = root then { e.2 with barriers := e.2.barriers.drop c } else e.2) }

/-- BARRIER_COMPLETION (R211): a router takes a completion; below the root its context turns to the next phase, and at the root one
with no participant left is freed (R210), and the waits it satisfies end. -/
def execBarrierCompletion (k : Nat) (s : State) : Host.Outcome State Fault Refusal :=
  match s.takePacket k with
  | some (⟨p, .barDone r c phase opening⟩, t) =>
    let ends := fun (t : State) =>
      ((t.slots.map (·.1)).filter fun n => n / 256 == r && (t.slotAt n).part == p).foldl (State.endBarWait c phase opening) t
    match t.barAt r c with
    | none => .next (ends t)
    | some b =>
      let sc := barScope b.config
      let b' := if opening then { b with opened := true } else if t.barRoot r sc = r then b else b.turn phase
      let t := t.setBar r c (some b')
      .next (ends (if b'.ports.isEmpty && t.barRoot r sc == r then t.freeBar r c sc else t))
  | _ => .next s

end Sys2Proof.Machine
end

