-- ==== Sys2Proof/Machine/Path.lean ====
section
/-! DEFINITION. The paths of transfers (18_fabric, R410, R418): the fibre ports and the entries by which transfers leave, the order
that packets keep, the dies between which they travel, and what happens to a transfer that cannot be delivered. -/

namespace Sys2Proof.Machine

/-! ## Ports and reach entries (R408, R410) -/

def State.optic (s : State) (p : Nat) : OptPort := Table.get {} s.dev.optics p
def State.setOptic (s : State) (p : Nat) (x : OptPort) : State :=
  { s with dev := { s.dev with optics := Table.set s.dev.optics p x } }

/-- A command joins a port controller's queue of 16 (R381); none when it is full. -/
def State.queueOptic (s : State) (p : Nat) (c : PortCmd) : Option State :=
  let q := s.optic p
  if q.queue.length < 16 then some (s.setOptic p { q with queue := q.queue ++ [c] }) else none

/-- A command darkens a lane. -/
def PortOp.isPark : PortOp → Bool
  | .park _ => true
  | _ => false

def OptPort.setLane (q : OptPort) (k : Fin 8) (x : Lane) : OptPort := { q with lanes := q.lanes.set k x }

/-- The lanes of a port that meet a test, ascending. -/
def OptPort.which (q : OptPort) (f : Lane → Bool) : List (Fin 8) := (List.finRange 8).filter fun k => f q.lanes[k]

/-- A reach entry's channel, when it is valid and names this port. -/
def routeAt (p : Nat) (e : Half) : Option (BitVec 7) :=
  if e.getLsbD 31 && decide (e.toNat / 2 ^ 16 % 64 = p) then some (.ofNat 7 e.toNat) else none

/-- The peers and channels of a port: those of its valid reach entries (R410), and those of flits queued before a write. -/
def State.reached (s : State) (p : Nat) : List (Nat × BitVec 7) :=
  ((s.dev.reach.filterMap fun e => (routeAt p e.2).map fun c => (e.1, c))
    ++ (s.dev.egress.flatMap fun e => e.2.filterMap fun q => (routeAt p q.1).map fun c => (e.1, c))
    ++ s.dev.resend.flatMap fun e => e.2.filterMap fun q => (routeAt p q.entry).map fun c => (e.1, c)).eraseDups

/-- The transfer of which a flit is a part. -/
def Packet.whole (q : Packet) : Packet :=
  match q.body with
  | .part b => { q with body := b }
  | _ => q

/-! ## Transfers that cannot be delivered (R418, R421) -/

/-- The address that a request names. -/
def Req.addr : Req → Word
  | .read va .. | .version va .. | .write va .. | .cancel va .. | .rsv va .. | .rls va .. | .mon va _ | .w4read va _
  | .w4write va .. | .ask va .. => va
  | .handle sh => sh.base

/-- A fabric fault record's KIND and VA (R418); none for what has no KIND. -/
def Body.transfer : Body → Option (Nat × Word)
  | .migration _ t => some (0, t.va)
  | .migrationTo va _ => some (0, va)
  | .via _ b | .part b => b.transfer
  | .request _ r | .peerRequest _ _ _ r => some (1, r.addr)
  | .unitRequest _ r | .peerCmd _ _ r => some (4, r.addr)
  | .store o st | .storeTo o st => match o with
    | .cmd _ | .publish none _ | .peerCmd .. => some (4, st.va)
    | _ => some (1, st.va)
  | .collPart _ => some (4, 0)
  | .reply .. | .unitReply .. => some (2, 0)
  | .message va _ _ _ o | .messageTo va _ _ o => match o with
    | .unit _ | .completed .. | .host | .peerUnit .. => some (5, va)
    | _ => some (3, va)
  | .stopReq _ _ => some (1, 0)
  | _ => none

/-- The two doublewords of a fabric fault record (R418). -/
def FabFault.words (f : FabFault) : Word × Word :=
  let (kind, va) := (f.packet.body.transfer).getD (0, 0)
  (.ofNat 64 (kind * 2 ^ 60 + f.packet.part.val * 2 ^ 57 + f.pkg.toNat * 2 ^ 56 + f.peer * 2 ^ 43 + f.die * 2 ^ 40
    + f.port * 2 ^ 32 + f.lane * 2 ^ 29), va)

/-- The oldest record goes; one that waited behind 64 is posted (R418). -/
def State.dropFabric (s : State) : State :=
  let t := { s with dev := { s.dev with fabric := s.dev.fabric.drop 1 } }
  if 64 < s.dev.fabric.length then t.signal 5 else t

/-- The flit of a held transfer is sent again, with what it delivers, under the peer's reach entry of now; so are the flits before it
that have not gone. -/
def State.resendFlit (s : State) (f : FabFault) (n : Nat) (b : Body) : State :=
  let e := Table.get 0 s.dev.reach f.peer
  let l := (Table.get [] s.dev.resend f.peer).map fun x =>
    if x.packet.body = .part f.packet.body then { x with entry := e } else x
  { s with dev := { s.dev with
    resend := Table.set s.dev.resend f.peer
      (l ++ [{ peer := f.peer, seq := n, packet := ⟨f.packet.part, b⟩, entry := e }]) } }

/-- A transfer goes back to the head of what waits for its peer, or into flight before what stands behind it. -/
def State.again (s : State) (f : FabFault) : State :=
  if f.pkg then
    match f.packet.body with
    | .unitRequest k (.read _ _ 1 .plain) => s.mapCmd k fun c => { c with flight := none }
    | _ => { s with net := f.packet :: s.net }
  else match f.seq with
    | some n => s.resendFlit f n f.packet.body
    | none => { s with dev := { s.dev with
        egress := Table.set s.dev.egress f.peer
          ((f.packet.flits.map fun q => (Table.get 0 s.dev.reach f.peer, q)) ++ Table.get [] s.dev.egress f.peer) } }

/-- A transfer is undone and what made it ends with a cause: KEY-INVALID (R421), or FABRIC-UNREACHABLE and COPY-FAIL when the
host abandons it (R418). A completion goes where it goes when its destination fails (R230). -/
def State.undoTransfer (s : State) (p : Fin 8) (b : Body) (cause unit : Byte) : State :=
  let home := fun (va : Word) (t : Thread) =>
    let ctx := match t.undo with
      | some (pc, loops) => { t.ctx with pc := pc, loops := loops }
      | none => t.ctx
    s.send p (.migration t.core { t with ctx := ctx, undo := none, word := some 0, fault := some (cause, va) })
  let fail := fun (n : Nat) (va : Word) => s.answer p n (.fail cause va)
  match b with
  | .migration _ t => home t.va t
  | .migrationTo va t => home va t
  | .request n r | .peerRequest _ n _ r => fail n r.addr
  | .stopReq (.slot n) _ => fail n 0
  | .message va _ _ _ (.slot n) | .messageTo va _ _ (.slot n) => fail n va
  | .messageTo _ _ m (.unit core) => s.post p core core false m
  | .messageTo _ _ m .host => s.record p m
  | .store o st => match o with
    | .slot n => fail n st.va
    | .entry n => (s.noteLost n cause st.va).sendNext n (s.provOf n).length.succ
    | .cmd k => s.failUnit k unit st.va true
    | .publish (some n) e =>
      (fail n st.va).clearMarks p fun k => k.expert == e
    | .publish none e => match s.copies.find? fun c => match c.work with
        | .rcopy x _ _ _ _ _ _ => c.part == p && x == e
        | _ => false with
      | some c => s.failUnit c.stamp unit st.va false
      | none => s.clearMarks p fun k => k.expert == e
    | _ => s
  | .unitRequest k r => s.failUnit k unit r.addr (!r.writes.isEmpty)
  | .collPart c => match s.commands.find? fun d => match d.work with
      | .coll _ _ _ q _ _ _ => d.part == p && q.cid == c.cid && q.num == c.num && q.rank == c.rank
      | _ => false with
    | some d => s.failUnit d.stamp unit 0 false
    | none => s
  | _ => s

/-- A transfer that is undone delivers nothing; its numbered flit still goes, since the peer takes the flits in sequence (R412). -/
def State.blank (s : State) (f : FabFault) : State :=
  match f.seq with
  | some n => s.resendFlit f n (.part f.packet.body)
  | none => s

/-- Transfers for other devices that meet a test are undone with no record: queued flits go, and numbered ones deliver nothing. -/
def State.blankFlits (s : State) (gone : Packet → Bool) : State :=
  let void := fun (x : Sent) =>
    if gone x.packet.whole then { x with packet := { x.packet with body := .part x.packet.whole.body } } else x
  let s := (s.dev.fabric.filter fun f => gone f.packet).foldl State.blank s
  { s with dev := { s.dev with
    egress := s.dev.egress.map (fun e => (e.1, e.2.filter fun q => !gone q.2.whole))
    resend := s.dev.resend.map (fun e => (e.1, e.2.map void))
    held := s.dev.held.filter (fun e => !gone e.2)
    fabric := s.dev.fabric.filter (fun f => !gone f.packet)
    waiting0 := s.dev.waiting0.filter fun q => !gone q } }

/-- The host's action on the oldest fabric fault record (R418): 1 RETRY, 2 ABANDON; a reply or a completion is never
abandoned. -/
def State.fabricAction (s : State) (v : Word) : State :=
  match s.dev.fabric with
  | [] => s
  | f :: _ =>
    let kind := ((f.packet.body.transfer).getD (0, 0)).1
    if v = 1 ∨ (v = 2 ∧ (kind = 2 ∨ kind = 5)) then s.dropFabric.again f
    else if v = 2 then
      (s.dropFabric.blank f).undoTransfer f.packet.part f.packet.body Cause.fabricUnreachable.code Cause.copyFail.code
    else s

/-! ## The order of packets in flight -/

/-- What keeps packets in order: packets that share a lane here arrive as they were sent. -/
inductive Order
  /-- Replies, invalidations and notices for one line to one router (R170, R205). -/
  | line (line router : Nat)
  /-- Messages from one place to one inbox (R223). -/
  | inbox (core : Nat) (hi : Bool) (o : Origin)
  /-- Barrier packets of one context to one router (R210). -/
  | barrier (router ctx : Nat)
  /-- Records that act on one slot (R345). -/
  | slot (n : Nat)
  /-- Stop requests (R388). -/
  | stop
  deriving DecidableEq, Repr

def Body.order : Body → Option Order
  | .reply n _ note => note.line.map fun l => .line l (slotKey n / 256)
  | .inval l r _ | .notice l r => some (.line l r)
  | .message _ core hi _ o => some (.inbox core hi o)
  | .barReg r _ c _ | .barArr r c .. | .barDone r c .. => some (.barrier r c)
  | .kill n | .release n => some (.slot n)
  | .stopReq .. => some .stop
  | _ => none

/-- The router whose invalidations a packet travels behind: a drain token (R172), and a message (R181). -/
def Body.behind : Body → Option Nat
  | .token _ r => some r
  | .message _ core .. => some (core / 16)
  | _ => none

/-- A packet stands behind an earlier one. -/
def Body.after (b a : Body) : Bool :=
  (b.order.isSome && a.order == b.order) || (match a with
    | .inval _ r _ => b.behind == some r
    | _ => false)

/-! ## Paths on the package (R418) -/

/-- The die of a physical line. -/
def dieOfLine (line : Nat) : Nat :=
  if line < 2 ^ 34 then line / 2 ^ 21 else if line < 2 ^ 35 then line / 2 ^ 23 % 8 else line / 2 ^ 30 % 32

/-- The die that a reply leaves, where its note says. -/
def LineNote.die (note : LineNote) : Option Nat :=
  match note with
  | .core c => some (c / 256)
  | note => note.line.map dieOfLine

/-- The dies that a packet travels between on the package, where its content says. -/
def State.hop (s : State) (b : Body) : Option (Nat × Nat) :=
  let src := fun (o : Origin) => match o with
    | .slot n | .entry n => some (n / 4096)
    | .publish (some _) _ => some s.firstDie
    | .unit c | .completed c _ => some (c / 256)
    | .cmd k => match s.listCore k with
      | some c => some (c / 256)
      | none => (s.commands.find? fun (c : Cmd) => c.stamp == k).map fun (c : Cmd) => s.cmdCore c / 256
    | .publish none e => match s.copies.find? fun (c : Cmd) => c.published && (match c.work with
        | .rcopy x _ _ _ _ _ _ => x == e
        | _ => false) with
      | some c => some (s.cmdCore c / 256)
      | none => some s.firstDie
    | _ => none
  match b with
  | .migration core t => some (t.core / 256, core / 256)
  | .message _ core _ _ o => (src o).map fun d => (d, core / 256)
  | .store o st => (src o).map fun d => (d, st.pl.home / 256)
  | .request n r => match r with
    | .read _ pl .. | .version _ pl .. | .write _ pl .. | .cancel _ pl .. | .rsv _ pl .. | .rls _ pl .. | .mon _ pl =>
      some (n / 4096, pl.home / 256)
    | .handle _ => some (n / 4096, s.firstDie)
    | .w4read .. | .w4write .. | .ask .. => none
  | .reply n _ note => note.die.map fun d => (d, slotKey n / 4096)
  | _ => none

/-- No channel joins the dies that the packet travels between. -/
def State.blocked (s : State) (b : Body) : Bool :=
  match s.hop b with
  | some (x, y) => !s.pathOk x y
  | none => false

/-- Packets that cannot cross the package are held with a record each, under FLTH = 1 (R418), once nothing that is not held stands
before them; those that could not while FLTH
was 0 go on waiting (R23; log entry 112). -/
def State.postBlocked (s : State) : State :=
  if s.dev.hamode.getLsbD 4 = false then
    { s with dev := { s.dev with waiting0 :=
      if s.dev.deadChans.isEmpty then [] else s.net.filter fun q => s.blocked q.body } }
  else if s.dev.deadChans.isEmpty = true then s
  else
    let stuck := fun (q : Packet) => s.blocked q.body && !s.dev.waiting0.contains q
    let first := fun (e : Packet × Nat) => stuck e.1
      && (s.net.take e.2).all fun a => stuck a || !e.1.body.after a.body
    (s.net.zipIdx.filter first).foldl (fun s e =>
      s.postFabric ⟨e.1, true, s.ownIdx, ((s.hop e.1.body).getD (0, 0)).2, 0, 0, none⟩)
      { s with net := (s.net.zipIdx.filter fun e => !first e).map (·.1) }

/-- Every lane of a port has failed. -/
def OptPort.dead (q : OptPort) : Bool := q.lanes.toList.all fun l => l.state == .failed

/-- A piece of an engine command or of a list. -/
def Body.isPiece : Body → Bool
  | .store (.cmd _) _ | .store (.publish none _) _ | .unitRequest .. | .collPart _ => true
  | _ => false

/-- What is queued for a peer at a port of which every lane has failed (R299, R418): under FLTH = 1 it is held with a record
each; under FLTH = 0 a piece ends its command, and the rest waits. -/
def State.strandPeer (s : State) (p : Nat) (c : BitVec 7) (j : Nat) : State :=
  let flth := s.dev.hamode.getLsbD 4
  let goes := fun (q : Packet) => if flth then !s.dev.waiting0.contains q.whole else q.body.isPiece
  let lane := ((s.optic p).which fun l => l.chan == c).headD 0
  let held := fun (q : Packet) (n : Option Nat) => FabFault.mk q false j 0 p lane.val n
  let back := Table.get [] s.dev.resend j
  let out := Table.get [] s.dev.egress j
  let again := fun (x : Sent) => (routeAt p x.entry).isSome && x.packet.whole == x.packet && goes x.packet
  let queued := fun (e : Half × Packet) => (routeAt p e.1).isSome && goes e.2
  let lost := (back.filter again).map (fun x => held x.packet (some x.seq))
    ++ (out.filter fun e => queued e && e.2.whole == e.2).map fun e => held e.2 none
  let stays := (back.map (·.packet) ++ out.map (·.2)).filter fun q =>
    q.whole == q && !q.body.isPiece && !s.dev.waiting0.contains q
  let s := { s with dev := { s.dev with
    resend := Table.set s.dev.resend j (back.filter fun x => !again x)
    egress := Table.set s.dev.egress j (out.filter fun e => !queued e)
    waiting0 := if flth then s.dev.waiting0 else s.dev.waiting0 ++ stays } }
  lost.foldl (fun s f =>
    if flth then s.postFabric f
    else (s.blank f).undoTransfer f.packet.part f.packet.body Cause.copyFail.code Cause.copyFail.code) s

/-- What is queued at ports whose lanes have all failed (R418). -/
def State.postStranded (s : State) : State :=
  s.dev.optics.foldl (fun s e =>
    if e.2.dead then (s.reached e.1).foldl (fun s r => s.strandPeer e.1 r.2 r.1) s else s) s

end Sys2Proof.Machine
end

