-- ==== Sys2Proof/Machine/Regs.lean ====
section
/-! DEFINITION. The system registers (17_system, R375 to R377): what each reads as, the values it allows, when a write takes
effect (R94), and partitions made and dissolved (R382). -/

namespace Sys2Proof.Machine

/-- The least privilege to read register n, and to write it: none where writes are ignored (R376). None for a number that
is not assigned. -/
def regLevel (n : Nat) : Option (Nat × Option Nat) :=
  if n = 1 then some (0, some 0)
  else if n = 2 ∨ n = 3 then some (0, some 1)
  else if n ≤ 0xB then some (0, none)
  else if 0x10 ≤ n ∧ n ≤ 0x18 then some (1, some 1)
  else if n = 0x25 ∨ n = 0x34 ∨ n = 0x40 ∨ n = 0x41 ∨ n = 0x42 ∨ n = 0x44 ∨ n = 0x45 then some (1, some 2)
  else if n = 0x2D ∨ n = 0x43 then some (1, none)
  else if 0x20 ≤ n ∧ n ≤ 0x33 then some (1, some 1)
  else if n = 0x46 then some (0, some 2)
  else if 0x48 ≤ n ∧ n ≤ 0x4F then some (2, some 2)
  else none

/-- How a write of a register ends (R375, R396): done; refused for its value, or in the present state, as ILLEGAL-OP to a thread;
or a write that a rule calls ignored, with the state after it and its WHY. -/
inductive Wr
  | done (s : State)
  | bad
  | refused
  | ignored (s : State) (why : Nat)

/-! ## Partition registers -/

/-- PART (R383). -/
def State.partWord (s : State) (p : Fin 8) : Word := .ofNat 64 (256 * s.split + 16 * p.val + p.val)

/-- What PTW2 and PTW3 read as: bits that R140 reserves in a pointer are 0 (R8), while a translation judges the root by what was written
(R140; log entry 60). -/
def rootSeen (v : Word) : Word := v &&& 0xCE10FFFFFFFFFF00

/-- A partition register's value (R376); none for a number that is not one. -/
def State.partReg (s : State) (p : Fin 8) (n : Nat) : Option Word :=
  let x := s.partAt p
  let r := x.regs
  match n with
  | 0x005 => some (x.now.setWidth 64)
  | 0x00B => some (s.partWord p)
  | 0x016 => some r.tvec
  | 0x017 => some r.segtb
  | 0x018 => some r.ctxb
  | 0x020 => some r.fmt
  | 0x021 => some r.rmode
  | 0x022 => some r.srkey
  | 0x023 => some r.msk
  | 0x024 => some r.slips
  | 0x025 => some r.qcfg
  | 0x026 => some r.retwin
  | 0x027 => some r.tagcfg
  | 0x028 => some (rootSeen r.ptw2)
  | 0x029 => some (rootSeen r.ptw3)
  | 0x02A => some r.stkb
  | 0x02B => some r.stksz
  | 0x02C => some r.reccfg
  | 0x02D => some r.recptr
  | 0x02E => some r.fpbase
  | 0x02F => some r.fpcnt
  | 0x030 => some r.mntab
  | 0x031 => some r.mncfg
  | 0x032 => some r.mnarea
  | 0x033 => some r.mngeo
  | 0x034 => some r.qepoch
  | 0x042 => some r.stopcnt
  | _ => none

/-- What a register that follows R94 holds after a write: reserved bits are 0 (R8, R377), and none is a value that the
register does not allow (R92, R147, R156, R165, R229, R348). -/
def regValue (n : Nat) (v : Word) : Option Word :=
  let f := fun (lo w : Nat) => v.toNat / 2 ^ lo % 2 ^ w
  match n with
  | 0x016 => some (.ofNat 64 (v.toNat / 4 * 4))
  | 0x017 => some (.ofNat 64 (v.toNat / 16 * 16))
  | 0x018 => some (.ofNat 64 (v.toNat / 2 ^ 14 * 2 ^ 14))
  | 0x020 | 0x023 => some (.ofNat 64 (f 0 1))
  | 0x021 => if 4 < f 0 3 then none else some (.ofNat 64 (f 0 3))
  | 0x024 => some (.ofNat 64 (f 0 48))
  | 0x025 => if f 0 16 < 15 then none else some (.ofNat 64 (f 0 17))
  | 0x026 => if v = 0 ∨ 256 < v.toNat then none else some v
  | 0x027 => if f 12 3 = 7 ∨ 1024 < f 0 11 then none else some (.ofNat 64 (2 ^ 12 * f 12 3 + f 0 11))
  | 0x02B => if f 0 24 % 128 ≠ 0 ∨ f 0 24 < 128 ∨ 8388480 < f 0 24 then none else some (.ofNat 64 (f 0 24))
  | 0x02C => some (.ofNat 64 (2 ^ 16 * f 16 48 + f 0 4))
  | 0x031 => some (.ofNat 64 (2 ^ 36 * f 36 28 + f 0 32))
  | 0x033 =>
    if f 16 16 = 0 ∨ f 32 16 < f 16 16 ∨ f 32 16 = 0 ∨ f 0 16 = 0 then none
    else some (.ofNat 64 (2 ^ 58 * f 58 6 + f 0 48))
  | _ => some v

/-- The registers with one of those that follow R94 set. -/
def PartRegs.put (r : PartRegs) (n : Nat) (v : Word) : PartRegs :=
  match n with
  | 0x016 => { r with tvec := v }
  | 0x017 => { r with segtb := v }
  | 0x018 => { r with ctxb := v }
  | 0x020 => { r with fmt := v }
  | 0x021 => { r with rmode := v }
  | 0x022 => { r with srkey := v }
  | 0x023 => { r with msk := v }
  | 0x024 => { r with slips := v }
  | 0x025 => { r with qcfg := v }
  | 0x026 => { r with retwin := v }
  | 0x027 => { r with tagcfg := v }
  | 0x028 => { r with ptw2 := v }
  | 0x029 => { r with ptw3 := v }
  | 0x02A => { r with stkb := v }
  | 0x02B => { r with stksz := v }
  | 0x02C => { r with reccfg := v }
  | 0x02E => { r with fpbase := v }
  | 0x030 => { r with mntab := v }
  | 0x031 => { r with mncfg := v }
  | 0x032 => { r with mnarea := v }
  | 0x033 => { r with mngeo := v }
  | _ => r

/-- Every tag entry of a partition is invalidated (R165). -/
def State.clearTags (s : State) (p : Fin 8) : State :=
  { s with cores := s.cores.map fun e => (e.1, { e.2 with tags := e.2.tags.filter fun t => t.1 / 1024 != p.val }) }

/-- Every area is free, and no copy holds one (R348). -/
def State.freeAreas (s : State) (p : Fin 8) : State :=
  let off := fun (c : Cmd) => match c.work with
    | .rcopy e k die _ dst src size => if c.part = p then { c with work := .rcopy e k die none dst src size } else c
    | _ => c
  ({ s with copies := s.copies.map off }).setMonarch p { s.monarch p with taken := [], freeing := [] }

/-- A write takes effect: a new TAGCFG invalidates the tag tables (R165), and MNAREA or MNGEO frees every area (R348). -/
def State.applyReg (s : State) (p : Fin 8) (n : Nat) (v : Word) : State :=
  let x := s.partAt p
  let s := s.setPartAt p { x with regs := x.regs.put n v }
  let s := if n = 0x027 then s.clearTags p else s
  if n = 0x032 ∨ n = 0x033 then s.freeAreas p else s

/-- The record of a register write (R393). -/
def State.logReg (s : State) (p : Fin 8) (n : Nat) (v : Word) (i : Instant) : State := s.log p 5 i (.ofNat 64 n) 8 v.toNat

/-- No launch in progress or queued, and no pending or provisional store (R94). -/
def State.idlePart (s : State) (p : Fin 8) : Bool :=
  let x := s.partAt p
  x.launches.isEmpty && x.queue.isEmpty && x.hostQueue.isEmpty && x.head == x.kicked && x.completions.isEmpty
    && (s.ports.all fun e => e.2.pending.all (·.part != p) && e.2.stalled.all (·.1 != p))
    && (s.cores.all fun e => e.2.prov.all (·.part != p))
    && s.net.all fun q => !(q.part == p && (match q.body with
      | .store .. => true
      | _ => false))

/-- The writes that a step applies (R94): of each register, the last one made by the writer of the highest rank. -/
def effective (l : List (Nat × Nat × Word)) : List (Nat × Word) :=
  (l.map (·.1)).eraseDups.filterMap fun n =>
    let mine := l.filter fun e => e.1 == n
    let top := (mine.map (·.2.1)).foldl max 0
    ((mine.filter fun e => e.2.1 == top).getLast?).map fun e => (n, e.2.2)

/-- The partition register writes of the instant take effect (R94, R151). -/
def State.applyWrites (s : State) (p : Fin 8) : State :=
  let x := s.partAt p
  (effective x.writes).foldl (fun s e => s.applyReg p e.1 e.2) (s.setPartAt p { x with writes := [], ahead := [] })

/-- A write that the next step makes joins the others of the instant (R94). Its record waits with it, in place of that of the
write of the register which it supersedes (R393). -/
def State.writeLater (s : State) (p : Fin 8) (rank n : Nat) (v : Word) : State :=
  let x := s.partAt p
  let t := s.setPartAt p { x with
    writes := x.writes ++ [(n, rank, v)], ahead := x.ahead ++ [(x.queue.length, x.hostQueue.length)] }
  if x.writes.any fun e => e.1 == n && decide (rank < e.2.1) then t
  else
    let y := t.partAt p
    (t.setPartAt p { y with logq := y.logq.filter fun e => !(e.kind == 5 && e.w2 == .ofNat 64 n) }).logReg p n v (x.now + 1)

/-- The waiting writes of a register that a write at once supersedes are dropped, with their record (R94, R393). -/
def State.supersede (s : State) (p : Fin 8) (rank n : Nat) : State :=
  let x := s.partAt p
  let keep := (x.writes.zip x.ahead).filter fun e => !(e.1.1 == n && decide (e.1.2.1 ≤ rank))
  s.setPartAt p { x with
    writes := keep.map (·.1), ahead := keep.map (·.2)
    logq := if keep.any fun e => e.1.1 == n then x.logq
      else x.logq.filter fun e => !(e.kind == 5 && e.w2 == .ofNat 64 n) }

/-- A write of FPCNT adds frames to the pool's count (R144), at once. -/
def State.addFrames (s : State) (p : Fin 8) (v : Word) : State :=
  let x := s.partAt p
  let n := v.toNat / 2 ^ 48
  if n = 0 then s
  else (s.setPartAt p { x with regs := { x.regs with
    fpcnt := .ofNat 64 (min 65535 (x.regs.fpcnt.toNat % 2 ^ 16 + n)) } }).logReg p 0x2F v x.now

/-- The devices of the job that this one reaches. -/
def State.peers (s : State) : List Nat := (s.dev.reach.filter fun e => e.2.getLsbD 31).map (·.1)

/-- This is job device 0 (R409). -/
def State.isJob0 (s : State) : Bool := s.dev.jobV && s.dev.jobIdx == 0

/-- STOPCNT on every device of the job (R388). -/
def State.setStop (s : State) (p : Fin 8) (v : Word) : State :=
  let x := s.partAt p
  s.peers.foldl (fun s d => s.export d ⟨p, .stopcnt v⟩) (s.setPartAt p { x with regs := { x.regs with stopcnt := v } })

/-- A resume written to job device 0's STOPCNT (R388); none when the write does not meet its condition. -/
def State.resumeWrite (s : State) (p : Fin 8) (v : Word) : Option State :=
  let c := v.toNat % 2 ^ 56
  if s.isJob0 && decide (v.toNat / 2 ^ 62 = 3) && decide (s.stopState p = 2) && decide (s.refcnt + 4096 ≤ c) then
    some (s.setStop p (.ofNat 64 (3 * 2 ^ 62 + c)))
  else none

/-- A write of a partition register, by a core of this rank or by the host (2,048). -/
def State.writePart (s : State) (p : Fin 8) (rank n : Nat) (v : Word) : Wr :=
  let x := s.partAt p
  match n with
  | 0x005 | 0x00B | 0x02D => .done s
  | 0x02E => .done ((s.applyReg p n v).logReg p n v x.now)
  | 0x02F => .done (s.addFrames p v)
  | 0x034 =>
    let c := v.toNat % 2 ^ 56
    if x.now ≠ 0 then .refused
    else if c ≤ s.refcnt then .bad
    else .done ((s.setPartAt p { x with regs := { x.regs with qepoch := .ofNat 64 c } }).logReg p n (.ofNat 64 c) x.now)
  | 0x042 => match s.resumeWrite p v with
    | some t => .done t
    | none => .ignored s 3
  | _ =>
    match regValue n v with
    | none => .bad
    | some w =>
      if s.idlePart p then
        .done (((if x.writes.any fun e => e.1 == n then s.supersede p rank n else s).applyReg p n w).logReg p n w x.now)
      else .done (s.writeLater p rank n w)

/-! ## Partitions (R382) -/

/-- The bits of a 16-bit or 8-bit mask. -/
def bitsSet {w : Nat} (x : BitVec w) : Nat := ((List.range w).filter x.getLsbD).length

/-- A value that PDEFn refuses, or one that the device refuses in its present state (R382). -/
def State.pdefOk (s : State) (n : Fin 8) (v : Word) : Option Wr :=
  let others := s.defined.filter (· != n)
  let shared := others.filter fun q => pdefDies (s.pdefOf q) &&& pdefDies v != 0
  let sum := (others.map fun q => pdefRsv (s.pdefOf q)).sum + (if pdefV v then pdefRsv v else 0)
  if bitsSet (pdefSlots v) < 2 ∨ pdefDies v &&& ~~~ s.dev.dies ≠ 0 then some .bad
  else if pdefV v && (decide (pdefRsv v < 1) || decide (32 < pdefRsv v)) then some .bad
  else if pdefV v && (pdefV (s.pdefOf n) || decide (s.split ≤ n.val)) then some .refused
  else if shared.any fun q => pdefSlots (s.pdefOf q) &&& pdefSlots v != 0 || pdefBanks (s.pdefOf q) &&& pdefBanks v != 0 then
    some .refused
  else if 128 < sum then some .refused
  else none

/-- PDEFn takes a value, its reserved bits 0. -/
def State.setPdef (s : State) (n : Fin 8) (v : Word) : State :=
  let f := fun (lo w : Nat) => v.toNat / 2 ^ lo % 2 ^ w * 2 ^ lo
  { s with dev := { s.dev with pdef := s.dev.pdef.set n (.ofNat 64 (f 63 1 + f 40 16 + f 0 32)) } }

/-- A partition as it is created (R377, R382): the host queue's block and the job key are not its registers. -/
def Part.fresh (x : Part) (refcnt : Nat) : Part :=
  { born := refcnt, qbase := x.qbase, qlen := x.qlen, head := x.head, kicked := x.kicked, cqbase := x.cqbase
    cqlen := x.cqlen, cqw := x.cqw, cqr := x.cqr, qerr := x.qerr, key := x.key }

/-- A partition is created (R382). -/
def State.create (s : State) (n : Fin 8) (v : Word) : State :=
  (s.setPdef n v).setPartAt n ((s.partAt n).fresh s.refcnt)

/-- A partition is dissolved (R93, R165, R201, R303, R382): everything that belongs to it is discarded, with no record;
a lane that has begun to tune or to wake goes on, with no completion. -/
def State.dissolve (s : State) (n : Fin 8) (v : Word) : State :=
  let mine := fun (c : Cmd) => c.part == n
  let rest := fun (l : List Cmd) => l.filter fun c => !mine c
  let share := s.share64
  let port := fun (q : Port) => { q with
    pending := q.pending.filter (·.part != n), stalled := q.stalled.filter (·.1 != n)
    history := q.history.filter (·.part != n), floors := q.floors.filter (·.1 != n)
    faults := q.faults.filter (·.part != n), remote := q.remote.filter (·.part != n)
    barriers := q.barriers.filter (fun b => b.1 / share != n.val), saved := q.saved.filter (·.part != n) }
  let core := fun (u : CoreUnit) => { u with
    high := u.high.filter (·.part != n), low := u.low.filter (·.part != n)
    retry := u.retry.filter (fun m => m.2.1.part != n), arrivals := u.arrivals.filter (·.part != n)
    divider := u.divider.filter (fun d => (s.slotAt d.slot).part != n)
    tags := u.tags.filter (fun t => t.1 / 1024 != n.val), prov := u.prov.filter (·.part != n) }
  let array := fun (a : MatArray) => { a with
    owner := if a.owner = some n then none else a.owner
    run := a.run.filter (fun x => (s.slotAt x.slot).part != n), queue := a.queue.filter fun k => (s.slotAt k).part != n }
  let circ := fun (q : OptPort) => { q with
    queue := (q.queue.filter fun c => (c.begun.isSome && !c.op.isPark) || !c.owner.any fun o => o.1 == n).map fun c =>
      if c.owner.any fun o => o.1 == n then { c with owner := none } else c }
  let slot := fun (x : Slot) => if x.part = n then { part := n, ready := x.ready, gen := x.gen + 1 } else x
  let x := (s.partAt n).fresh s.refcnt
  let t : State := { s with
    slots := s.slots.map (fun e => (e.1, slot e.2)), ports := s.ports.map (fun e => (e.1, port e.2))
    cores := s.cores.map (fun e => (e.1, core e.2)), arrays := s.arrays.map (fun e => (e.1, array e.2))
    reservations := s.reservations.filter (·.part != n), net := s.net.filter (·.part != n)
    copiers := s.copiers.map (fun e => (e.1, rest e.2)), collectors := s.collectors.map (fun e => (e.1, rest e.2))
    sphinxes := s.sphinxes.map (fun e => (e.1, { e.2 with queue := rest e.2.queue })), copies := rest s.copies
    merges := rest s.merges, groups := s.groups.filter (·.part != n)
    dev := { s.dev with
      optics := s.dev.optics.map (fun e => (e.1, circ e.2))
      early := s.dev.early.map fun e => if e.packet.part = n then { e with keyed := false } else e } }
  ((t.blankFlits (·.part == n)).setPdef n v).setPartAt n { x with key := none, head := x.kicked }

/-- A write of PDEFn (R382). -/
def State.writePdef (s : State) (n : Fin 8) (v : Word) : Wr :=
  match s.pdefOk n v with
  | some r => r
  | none =>
    if pdefV v then .done (s.create n v)
    else if pdefV (s.pdefOf n) then .done (s.dissolve n v)
    else .done (s.setPdef n v)

/-! ## Device registers -/

/-- GARNET of a die (R291). -/
def State.garnet (s : State) (d : Nat) : Word :=
  let u := s.dieAt d
  .ofNat 64 (2 ^ 40 * u.pool + 2 ^ 24 * u.cap.toNat + 2 ^ 8 * u.thr.toNat + u.tokens.length)

/-- A write of a die's GARNET: tokens that are added start at cluster 0 with no credit, and none holds more than CAP (R288; log
entry 108). -/
def State.writeGarnet (s : State) (d : Nat) (v : Word) : Wr :=
  let n := v.toNat % 32
  if n = 0 ∨ 16 < n then .bad
  else
    let u := s.dieAt d
    let u := { u with cap := .ofNat 16 (v.toNat / 2 ^ 24), thr := .ofNat 16 (v.toNat / 2 ^ 8) }
    let clamp := fun (t : Token) => { t with credit := min t.credit u.capUnits }
    .done (s.setDieAt d { u with tokens := (List.range n).map fun k => clamp ((u.tokens[k]?).getD { hop := s.cyc }) })

/-- A device register's value (R376); none for a number that is not one. -/
def State.devReg (s : State) (n : Nat) : Option Word :=
  let d := s.dev
  match n with
  | 0x006 => some (.ofNat 64 s.refcnt)
  | 0x040 => some (d.hamode.setWidth 64)
  | 0x043 => some (.ofNat 64 (128 * d.freqPv.toNat + 16 * d.freqPend.toNat + d.freqCur.toNat))
  | 0x044 => some (.ofNat 64 (2 ^ 48 * d.meas.toNat % 2 ^ 64 + 2 ^ 32 * (d.budget.toNat % 2 ^ 16)))
  | 0x045 => some (d.log2p.setWidth 64)
  | 0x046 => some (.ofNat 64 (2 ^ 63 * d.jobV.toNat + d.jobIdx.toNat))
  | 0x048 => some d.pdef[0]
  | 0x049 => some d.pdef[1]
  | 0x04A => some d.pdef[2]
  | 0x04B => some d.pdef[3]
  | 0x04C => some d.pdef[4]
  | 0x04D => some d.pdef[5]
  | 0x04E => some d.pdef[6]
  | 0x04F => some d.pdef[7]
  | _ => none

/-- A write of a device register (R22, R382, R384, R392, R409): at once (R375). -/
def State.writeDev (s : State) (n : Nat) (v : Word) : Wr :=
  let d := s.dev
  let b := v.toNat / 2 ^ 32 % 2 ^ 16
  match n with
  | 0x040 =>
    let s := s.postBlocked.postStranded
    let d := s.dev
    let latches := v.getLsbD 1 && !d.hamode.getLsbD 1
    .done { s with dev := { d with hamode := v.setWidth 5, followed := if latches then s.refcnt else d.followed } }
  | 0x044 => if b = 0 ∨ 2400 < b then .bad else .done { s with dev := { d with budget := .ofNat 32 b } }
  | 0x045 => if s.defined.isEmpty then .done { s with dev := { d with log2p := v.setWidth 2 } } else .refused
  | 0x046 =>
    if 6143 < v.toNat % 2 ^ 13 then .bad
    else if s.defined.isEmpty then
      .done { s with dev := { d with jobV := v.getLsbD 63, jobIdx := v.setWidth 13 } }
    else .refused
  | 0x048 => s.writePdef 0 v
  | 0x049 => s.writePdef 1 v
  | 0x04A => s.writePdef 2 v
  | 0x04B => s.writePdef 3 v
  | 0x04C => s.writePdef 4 v
  | 0x04D => s.writePdef 5 v
  | 0x04E => s.writePdef 6 v
  | 0x04F => s.writePdef 7 v
  | _ => .done s

end Sys2Proof.Machine
end

