-- ==== Sys2Proof/Machine/System.lean ====
section
/-! DEFINITION. The system instructions (17_system, R368 to R392): traps and the return from them, system registers, segments
and pages, IDLE, the optical command queues, context save areas, stops, and the clocks' schedule. -/

namespace Sys2Proof.Machine

/-! ## Traps (R373, R374) -/

/-- TRAP (R373). -/
def execTrap (g : Guard) (n : BitVec 13) (s : State) : Host.Outcome State Fault Refusal :=
  issue (.trap g n) g 0 false (fun _ => .stop (.of .trap (n.setWidth 64))) s

/-- BRK (R373). -/
def execBrk (g : Guard) (n : BitVec 13) (s : State) : Host.Outcome State Fault Refusal :=
  issue (.brk g n) g 0 false (fun _ => .stop (.of .brk (n.setWidth 64))) s

/-- ERET (R374). -/
def execEret (g : Guard) (s : State) : Host.Outcome State Fault Refusal :=
  issue (.eret g) g 1 false (fun s => .stay s.eret) s

/-! ## System registers (R375, R376) -/

/-- What MFSR reads, for a thread that may read it. -/
def State.sysReg (s : State) (n : Nat) : Word :=
  let x := s.slot
  let c := x.ctx
  match n with
  | 0x000 => c.rel.setWidth 64
  | 0x001 => c.vis.setWidth 64
  | 0x002 => c.ord.setWidth 64
  | 0x003 => if c.pol then 1 else 0
  | 0x004 => c.mode.setWidth 64
  | 0x007 => .ofNat 64 (s.cycles s.cluster)
  | 0x008 => .ofNat 64 (min (s.portAt s.cluster).stretch (2 ^ 32 - 1))
  | 0x009 => x.vl.setWidth 64
  | 0x00A => x.tstatus
  | 0x010 => x.cause.setWidth 64
  | 0x011 => x.epc
  | 0x012 => x.tval
  | 0x013 => x.status
  | 0x014 => x.sscr0
  | 0x015 => x.sscr1
  | 0x041 => s.garnet (s.coreIdx / 256)
  | _ => ((s.partReg x.part n).orElse fun _ => s.devReg n).getD 0

/-- MFSR (R375): an unassigned number raises ILLEGAL-OP as the word is decoded, and a read level that the thread lacks PRIV,
both before the handler's checks and the guard (R56, R63). -/
def execMfsr (g : Guard) (d : Reg) (n : BitVec 13) (s : State) : Host.Outcome State Fault Refusal :=
  match regLevel n.toNat with
  | none => .next (settle s (.stop (.of .illegalOp (wordOf (.mfsr g d n)))))
  | some (r, _) => issue (.mfsr g d n) g r false (fun s => .setG d (s.sysReg n.toNat) s) s

/-- A write of STATUS (R371). -/
def writeStatus (w v : Word) (s : State) : Out :=
  let m : Ctx := { mode := v.extractLsb' 8 8 }
  if m.priv = 3 then .stop (.of .illegalOp w)
  else if s.ctx.priv < m.priv then .stop (.of .priv w)
  else .seq (s.setSlot { s.slot with status := statusWord m.mode (v.getLsbD 2) (v.getLsbD 1) })

/-- A register write as an instruction's effect (R375): a refused one raises ILLEGAL-OP. -/
def Wr.out (w : Word) : Wr → Out
  | .done s | .ignored s _ => .seq s
  | .bad | .refused => .stop (.of .illegalOp w)

/-- MTSR's effect on a register that the thread may write (R375): thread and slot registers change at once. -/
def writeSys (w : Word) (n : Nat) (v : Word) (s : State) : Out :=
  let x := s.slot
  let c := x.ctx
  match n with
  | 0x001 => .seq (s.setCtx { c with vis := v.setWidth 48 })
  | 0x002 => .seq (s.setCtx { c with ord := v.setWidth 48 })
  | 0x003 => .seq (s.setCtx (c.setPol (v.getLsbD 0)))
  | 0x010 => .seq (s.setSlot { x with cause := v.setWidth 8 })
  | 0x011 => .seq (s.setSlot { x with epc := v })
  | 0x012 => .seq (s.setSlot { x with tval := v })
  | 0x013 => writeStatus w v s
  | 0x014 => .seq (s.setSlot { x with sscr0 := v })
  | 0x015 => .seq (s.setSlot { x with sscr1 := v })
  | 0x041 => (s.writeGarnet (s.coreIdx / 256) v).out w
  | _ =>
    if (s.partReg x.part n).isSome then (s.writePart x.part s.coreIdx n v).out w else (s.writeDev n v).out w

/-- MTSR (R375, R376): a register whose writes are ignored takes any privilege. The number and the write level are checked
as the word is decoded, before the handler's checks and the guard (R56, R63). -/
def execMtsr (g : Guard) (a : Reg) (n : BitVec 13) (s : State) : Host.Outcome State Fault Refusal :=
  let w := wordOf (.mtsr g a n)
  match regLevel n.toNat with
  | none => .next (settle s (.stop (.of .illegalOp w)))
  | some (_, none) => issue (.mtsr g a n) g 0 false .seq s
  | some (_, some p) => issue (.mtsr g a n) g p false (fun s => writeSys w n.toNat (s.g a) s) s

/-! ## Segments and pages (R378, R379) -/

/-- s[d] takes an entry that SEGLD accepts, and the selector its index. -/
def loadSeg (d : SReg) (i : Word) (e : Nat) (s : State) : Out :=
  match segOf e with
  | none => .stop (.of .segRights i)
  | some g =>
    let x := s.slot
    .seq (s.setSlot { x with seg := x.seg.set d g, ctx := { x.ctx with sel := x.ctx.sel.set d (i.setWidth 8) } })

/-- SEGLD (R377, R378). -/
def execSegld (g : Guard) (d : SReg) (a : Reg) (s : State) : Host.Outcome State Fault Refusal :=
  let w : Instr := .segld g d a
  issue w g 0 false (fun s =>
    let i := s.g a
    let va := s.part.regs.segtb + 16 * i
    if 255 < i.toNat then .stop (.of .segBound i)
    else if s.slot.open_ && s.slot.seg.toList.findIdx? (fun g => g.limit != 0 && g.t) == some d.val then
      .stop (.of .choiceEscape i)
    else if s.part.regs.segtb = 0 then loadSeg d i 0 s
    else match s.slot.prog.got with
      | v :: _ => loadSeg d i (v.toNat % 2 ^ 128) s
      | [] =>
        match s.locate s.coreIdx s.slot.part va 16 0 with
        | .error (.page b k) => .stop (.page b k)
        | .ok (.here pl) =>
          match s.readAt va pl 16 with
          | .ok v => loadSeg d i v s
          | .error _ => .stop (.of .segBound va)
        | .ok (.away dv) => requestAway w dv (.read va ⟨0, 0, false⟩ 16 .plain) (.entry va) s
        | _ => .stop (.of .segBound va)) s

/-- PGINV's effect at every port and router (R379): remote-line entries of the 2 MiB region are dropped, and every waiter on
one of its pages goes on. -/
def State.pginv (s : State) (p : Fin 8) (la : Nat) : State :=
  let within := fun (va : Word) => s.onDevice va && decide (localAddr va / 2 ^ 21 = la / 2 ^ 21)
  let drop := fun (q : Port) => { q with remote := q.remote.filter fun e => !(e.part == p && within e.vline) }
  let s : State := { s with ports := s.ports.map fun e => (e.1, drop e.2) }
  s.ports.foldl (fun s c =>
    (c.2.faults.filter fun e => e.part == p && !e.ended && within e.va).foldl (fun s e => s.endFault c.1 e) s) s

/-- PGINV (R379): a drain at .dev, then the invalidation at every port. -/
def execPginv (g : Guard) (a : Reg) (s : State) : Host.Outcome State Fault Refusal :=
  issue (.pginv g a) g 1 false (fun s =>
    let va := s.g a
    let paged := match winOf (localAddr va) with
      | some .w2 | some .w3 => true
      | _ => false
    if s.onDevice va && decide (va.toNat < 2 ^ 61) && paged then
      drain (.pginv g a) .dev (fun s => .seq (s.pginv s.slot.part (localAddr va))) s
    else .stop (.of .segBound va)) s

/-! ## IDLE and CIRC (R380, R381) -/

/-- IDLE (R380). -/
def execIdle (g : Guard) (s : State) : Host.Outcome State Fault Refusal :=
  issue (.idle g) g 1 false (fun s => .stay (s.await (.idle g) .idle)) s

/-- CIRC (R381). -/
def execCirc (g : Guard) (p : Pred) (a : Reg) (s : State) : Host.Outcome State Fault Refusal :=
  issue (.circ g p a) g 1 false (fun s =>
    let v := s.g a
    let f := fun (lo w : Nat) => v.toNat / 2 ^ lo % 2 ^ w
    let op := f 62 2
    let lane : Fin 8 := .ofNat 8 (f 40 3)
    let queue := fun (port : Nat) (o : PortOp) =>
      match s.queueOptic port { op := o, word := v, owner := some (s.slot.part, s.coreIdx, s.ctx.ord), stamp := s.stamp } with
      | some t => Out.setP p true ((t.setSlot { t.slot with cmds := t.slot.cmds ++ [s.stamp] }).bump)
      | none => .setP p false s
    if f 54 8 ≠ 0 ∨ f 43 5 ≠ 0 ∨ f 13 27 ≠ 0 ∨ op = 3 ∨ (op = 0 ∧ f 48 6 ≠ 0) ∨ (op ≠ 0 ∧ f 0 13 ≠ 0) then
      .stop (.of .illegalOp (wordOf (.circ g p a)))
    else if op = 0 then
      let e := Table.get 0 s.dev.reach (f 0 13)
      if e.getLsbD 31 then queue (e.toNat / 2 ^ 16 % 64) (.tune lane (.ofNat 7 e.toNat))
      else .stop (.of .fabricUnreachable v)
    else queue (f 48 6) (if op = 1 then .park lane else .wake lane)) s

/-! ## Context save areas (R386) -/

/-- The thread in a slot is at an instruction boundary, or in a wait that is taken as it stands (R100, R386): the waits that
end first are the others. -/
def Slot.atBoundary (x : Slot) : Bool :=
  match x.run with
  | .free | .held | .dropped _ => true
  | .runnable => x.prog.word.isNone
  | .waiting w =>
    match w with
    | .instant _ | .sleep _ | .resend _ | .monitor _ | .inbox | .key _ | .opening _ | .phase .. | .idle | .provisional
    | .bound | .stsync | .unit => true
    | .reply | .drain _ | .settle | .divider | .yield _ | .list | .array | .sending => false

/-- The slot may be saved (R386): neither a send (R337) nor a STEAL (R346) holds its thread midway. -/
def State.atBoundary (s : State) (n : Nat) : Bool := (s.slotAt n).atBoundary && !s.midSend n && !s.heldByTheft n

/-- The slot that SLOTSV and SLOTLD name (R386). -/
def withSlot (a : Reg) (k : Nat → State → Out) (s : State) : Out :=
  let i := (s.g a).toNat % 16
  let n := s.coreIdx * 16 + i
  if (pdefSlots (s.pdefOf s.slot.part)).getLsbD i = false ∨ n = s.cur then .stop (.of .segBound (s.g a)) else k n s

/-- SLOTSV (R377, R386). -/
def execSlotsv (g : Guard) (d a : Reg) (s : State) : Host.Outcome State Fault Refusal :=
  issue (.slotsv g d a) g 1 false (withSlot a fun n s =>
    let x := s.slotAt n
    if s.part.regs.ctxb = 0 then .stop (.of .segBound 0)
    else if x.run = .free ∨ x.run = .held then .setG d 0 s
    else if s.atBoundary n = false then .stay (s.keepWord (.slotsv g d a))
    else .bind (s.saveSlot n) fun t => .setG d 1 t) s

/-- Provisional entries that an area holds. -/
def State.areaCount (s : State) (pl : Place) : Nat :=
  ((List.range 64).filter fun k => s.mem.read (pl.phys + 0x2800 + 96 * k + 24) 1 % 128 != 0).length

/-- SLOTLD (R386). -/
def execSlotld (g : Guard) (d a : Reg) (s : State) : Host.Outcome State Fault Refusal :=
  issue (.slotld g d a) g 1 false (withSlot a fun n s =>
    let p := s.slot.part
    if (s.slotAt n).run ≠ .free then .setG d 0 s
    else .bind (s.areaAt p n) fun pl =>
      if s.areaValid pl = false then .setG d 0 s
      else if 64 < (s.coreAt s.coreIdx).prov.length + s.areaCount pl then .stay (s.keepWord (.slotld g d a))
      else .setG d 1 (s.restoreSlot p n pl)) s

/-! ## Stops (R388) -/

/-- STOPAT (R377, R388): a request to job device 0. -/
def execStopat (g : Guard) (p : Pred) (a : Reg) (s : State) : Host.Outcome State Fault Refusal :=
  let i : Instr := .stopat g p a
  issue i g 1 false (fun s =>
    let b := fun (n : Nat) => Body.stopReq (.slot n) ((s.g a).setWidth 56)
    if s.part.regs.ctxb = 0 ∨ s.dev.jobV = false then .setP p false s
    else if s.isJob0 then .stay ((s.send s.slot.part (b s.cur)).await i .reply (some (.stopat p)))
    else match s.reachOf 0 with
      | some _ => .stay ((s.export 0 ⟨s.slot.part, b (s.peerKey s.cur)⟩).await i .reply (some (.stopat p)))
      | none => .stop (.of .fabricUnreachable (s.g a))) s

/-- The answer to a stop request, for a slot of this device or of another. -/
def State.answerStop (s : State) (p : Fin 8) (o : Origin) (ok : Bool) : State :=
  let r : Reply := .ok (if ok then 1 else 0)
  match o with
  | .slot n => s.answer p n r
  | .peer d n => s.export d ⟨p, .reply n r .none⟩
  | _ => s

/-- STOPAT_REQUEST (R388): one at a time, in order of arrival at job device 0. -/
def execStopatRequest (k : Nat) (s : State) : Host.Outcome State Fault Refusal :=
  match s.takePacket k with
  | some (⟨p, .stopReq o c⟩, t) =>
    if t.stopState p ≠ 0 ∨ c.toNat < t.refcnt + 4096 then .next (t.answerStop p o false)
    else .next ((t.setStop p (.ofNat 64 (2 ^ 62 + c.toNat))).answerStop p o true)
  | _ => .next s

/-! ## Clocks (R391) -/

/-- FREQAT (R391). -/
def execFreqat (g : Guard) (p : Pred) (a b : Reg) (s : State) : Host.Outcome State Fault Refusal :=
  issue (.freqat g p a b) g 2 false (fun s =>
    let c := s.g b
    if 4 < c.toNat then .stop (.of .illegalOp (wordOf (.freqat g p a b)))
    else if s.dev.freqPv || decide ((s.g a).toNat < s.refcnt + 16) then .setP p false s
    else .setP p true { s with dev := { s.dev with
      freqPend := c.setWidth 3, freqPv := true, freqAt := (s.g a).toNat } }) s

/-- FREQUENCY_SWITCH (R391): at the scheduled count. -/
def execFrequencySwitch (s : State) : Host.Outcome State Fault Refusal :=
  .next (if s.dev.freqPv && decide (s.dev.freqAt ≤ s.refcnt) then
    { s with dev := { s.dev with freqCur := s.dev.freqPend, freqPv := false }, sub := 0 }
  else s)

end Sys2Proof.Machine
end

