-- ==== Sys2Proof/Machine/Quartz.lean ====
section
/-! DEFINITION. The instant counter (07_instant, R147 to R156), lost tasks (R232), the stop and resume of a job (R389), and the
clocks and the power pools (R390 to R392). -/

namespace Sys2Proof.Machine

/-! ## A step at the ports (R151, R155, R156) -/

/-- A list in ascending order, elements of one rank as they stand. -/
def sortBy {α : Type} (rank : α → Nat) (l : List α) : List α :=
  l.foldr (fun a r => r.takeWhile (fun b => decide (rank b < rank a)) ++ a :: r.dropWhile fun b => decide (rank b < rank a)) []

/-- The entries of a line in the order in which a step applies them (R155): a host write loses every tie, and the higher
ordinal is final. -/
def tieOrder (l : List Pending) : List Pending :=
  l.filter (·.host) ++ sortBy (·.task.toNat) (l.filter fun e => !e.host)

/-- An entry's bytes go to memory. -/
def applyEntry (m : Mem) (e : Pending) : Mem := e.bytes.foldl (fun m b => m.put (e.line * 64 + b.1) b.2.2) m

/-- Versions with the oldest superseding instants are evicted until 8,192 are left, and their lines' floors rise (R151,
R156). -/
def evict (p : Fin 8) (hist : List Version) (floors : List (Fin 8 × Nat × Instant)) :
    List Version × List (Fin 8 × Nat × Instant) :=
  let mine := hist.filter (·.part == p)
  let gone := if mine.length ≤ 8192 then [] else (sortBy (·.sup.toNat) mine).take (mine.length - 8192)
  (hist.filter fun v => !(v.part == p && gone.contains v),
    gone.foldl (fun fl v =>
      let old := (fl.find? fun f => f.1 == p && f.2.1 == v.line).map fun f => f.2.2.toNat
      fl.filter (fun f => !(f.1 == p && f.2.1 == v.line)) ++ [(p, v.line, .ofNat 48 (max v.sup.toNat (old.getD 0)))]) floors)

/-- The actions of a step to instant i at a port (R151): pending stores are applied, and what they replace enters the
history, one version for each line (log entry 104); old versions expire; versions beyond 8,192 are evicted. -/
def State.stepPort (s : State) (p : Fin 8) (i : Instant) (c : Nat) : State :=
  let q := s.portAt c
  let due := q.pending.filter fun e => e.part == p && decide (e.v.toNat ≤ i.toNat)
  let lines := (due.map (·.line)).eraseDups
  let made := lines.map fun l => Version.mk p l i (.ofNat 512 (s.mem.read (l * 64) 64))
  let mem := lines.foldl (fun m l => (tieOrder (due.filter fun e => e.line == l)).foldl applyEntry m) s.mem
  let live := (q.history ++ made).filter fun v => v.part != p || decide (i.toNat ≤ v.sup.toNat + s.retwin p)
  let (history, floors) := evict p live q.floors
  { s with mem := mem }.setPortAt c { q with
    pending := q.pending.filter fun e => !(e.part == p && decide (e.v.toNat ≤ i.toNat))
    history := history, floors := floors }

/-! ## Lost tasks (R232) -/

/-- The task indices of a crew. -/
def crewTasks (m : Vec) (c : Nat) : List Nat :=
  (List.range (descCrew m * descTeam m)).map (c * (descCrew m * descTeam m) + ·)

/-- A thread of one of the tasks. -/
def ofTask (id : Nat) (ts : List Nat) (t : Option (Nat × Nat)) : Bool := t.any fun x => x.1 == id && ts.contains x.2

/-- The saved thread of a slot ends: its area is not valid any more (R385). -/
def State.endSaved (p : Fin 8) (s : State) (n : Nat) : State :=
  let s := s.setPartAt p { s.partAt p with kept := (s.partAt p).kept.drop n }
  match s.areaAt p n with
  | .ok pl => if s.areaValid pl then s.nowWrite p (pl.phys + 0xC2) 1 0 none none else s
  | .error _ => s

/-- The thread that a packet carries. -/
def Body.thread : Body → Option Thread
  | .migration _ t | .migrationTo _ t => some t
  | _ => none

/-- The threads of lost tasks end, wherever they are: their stores and their lists' that are not accepted are discarded, with the
marks of their publications (R350), and their reservations, by their holder keys (R201), pass on with no record. A division of
theirs is dropped, and those queued behind it keep their start cycles (log entry 120). -/
def State.loseThreads (s : State) (p : Fin 8) (id : Nat) (ts : List Nat) : State :=
  let gone := fun (t : Thread) => t.part == p && ofTask id ts t.task
  let slots := (s.slots.filter fun e => e.2.part == p && e.2.run != .free && ofTask id ts e.2.task).map (·.1)
  let peers := slots.map s.peerKey
  let saved := ((s.partAt p).kept.filter fun e => ofTask id ts e.2.task).map (·.1)
  let names := slots ++ saved.map savedKey
  let travel := (s.net.filterMap (·.body.thread)) ++ s.dev.fabric.filterMap (·.packet.body.thread)
    ++ s.cores.flatMap (·.2.arrivals) ++ (s.partAt p).parked.map (·.2)
  let keys := slots.map (fun n => (s.slotAt n).ctx.taskIdx) ++ (travel.filter gone).map (·.ctx.taskIdx)
    ++ saved.filterMap fun n => (s.areaAt p n).toOption.map fun pl => .ofNat 32 (s.mem.read (pl.phys + 0xA2) 4)
  let lists := s.arrays.filterMap fun e => match e.2.run with
    | some r => if slots.contains r.slot then some r.stamp else none
    | none => none
  let own := fun (o : Origin) => match o with
    | .slot n | .entry n => slots.contains n || peers.contains n
    | .publish (some n) _ => slots.contains n
    | .cmd k => lists.contains k
    | _ => false
  let keep := fun (q : Packet) => match q.body with
    | .migration _ t | .migrationTo _ t => !gone t
    | .store o _ => !own o
    | .request n _ | .reply n .. | .token n _ => !names.contains n
    | .peerRequest _ n _ _ => !peers.contains n
    | .unitRequest k _ => !lists.contains k
    | _ => true
  let pub := fun (o : Origin) => match o with
    | .publish (some n) e => if slots.contains n then some e else none
    | _ => none
  let stores := fun (l : List Packet) => l.filterMap fun q => match q.body with
    | .store o _ => pub o
    | _ => none
  let pubs := stores s.net ++ s.ports.flatMap fun e => stores e.2.saved ++ e.2.stalled.filterMap fun q => pub q.2.1
  let port := fun (q : Port) => { q with
    stalled := q.stalled.filter (fun e => !own e.2.1), saved := q.saved.filter keep }
  let x := s.partAt p
  let held := s.reservations.filter fun e => e.part == p && keys.contains e.key
  let s : State := { s with
    net := s.net.filter keep, ports := s.ports.map (fun e => (e.1, port e.2))
    cores := s.cores.map (fun e => (e.1, { e.2 with
      arrivals := e.2.arrivals.filter (fun t => !gone t)
      divider := e.2.divider.filter fun d => !slots.contains d.slot }))
    arrays := s.arrays.map (fun e => (e.1, { e.2 with run := e.2.run.filter fun r => !slots.contains r.slot })) }
  let s := s.blankFlits fun q => !keep q
  let s := (s.setPartAt p { x with parked := x.parked.filter fun e => !gone e.2 }).clearMarks p fun k => pubs.contains k.expert
  let s := held.foldl (fun s e =>
    let first := (s.queueAt e.pl.phys).head? == some e
    let s := { s with reservations := s.reservations.erase e }
    if first then passOn (s.queueAt e.pl.phys) s else s) s
  let s := slots.foldl (fun s n =>
    ((((s.cutTo n 0).unbind n |>.dropProv (n / 16) fun e => e.slot == n).forget n).disown n).vacate n) s
  saved.foldl (State.endSaved p) s

/-- A thread that waits for a barrier of the launch raises BARRIER-MISUSE (R232). -/
def State.breakBarrier (s : State) (p : Fin 8) (id n : Nat) : State :=
  let c := match (s.slotAt n).run with
    | .waiting (.opening c) | .waiting (.phase c _) => some c
    | _ => none
  match c with
  | none => s
  | some c =>
    if (s.slotAt n).part ≠ p then s
    else match s.barAt (n / 256) c with
      | some b =>
        if b.launch = some id then
          let t := { s.resumeSlot n with cur := n }
          { t.trap Cause.barrierMisuse.code (.ofNat 64 (c % s.share64)) with cur := s.cur }
        else s
      | none => s

/-- The tasks of a launch that are placed on unreachable dies are lost (R232). -/
def State.loseLaunch (s : State) (p : Fin 8) (l : Launch) : State :=
  let dead := fun (c : Nat) => s.dev.unreachable.getLsbD (crewCluster l.desc c / 16)
  let crews := (List.range (descCrews l.desc)).filter dead
  let fresh := crews.filter fun c => !l.started.contains c
  let ts := crews.flatMap (crewTasks l.desc)
  let live := l.live.filter fun e => ts.contains e.1
  let n := live.length + fresh.length * (descCrew l.desc * descTeam l.desc)
  if n = 0 then s
  else
    let s := s.loseThreads p l.id ts
    let s := s.slots.foldl (fun s e => s.breakBarrier p l.id e.1) s
    match (s.partAt p).launches.find? fun m => m.id == l.id with
    | none => s
    | some l =>
      let l := { l with
        started := l.started ++ fresh, lost := l.lost + n, live := l.live.filter fun e => !ts.contains e.1 }
      let s := s.setPartAt p ((s.partAt p).setLaunch l)
      ((fresh.flatMap (crewCores l.desc)).eraseDups.foldl (State.releaseHeld p) s).endLaunch p l s.deviceCore

/-- What a step does about dies that have been declared unreachable (R232). -/
def State.loseTasks (s : State) (p : Fin 8) : State :=
  if s.dev.unreachable = 0 then s else (s.partAt p).launches.foldl (fun s l => s.loseLaunch p l) s

/-- DIE_UNREACHABLE (R232): the declaration. -/
def execDieUnreachable (die : Fin 8) (s : State) : Host.Outcome State Fault Refusal :=
  .next (if s.dieOn die then
    { s with dev := { s.dev with unreachable := s.dev.unreachable ||| (1#8 <<< die.val) } } else s)

/-! ## The step (R94, R149 to R151) -/

/-- The slots of a partition that wait for an instant that has come go on (R74). -/
def State.wakeInstant (s : State) (p : Fin 8) : State :=
  let i := (s.partAt p).now
  { s with slots := s.slots.map fun e =>
      (e.1, match e.2.run with
        | .waiting (.instant v) =>
          if e.2.part = p ∧ v.toNat ≤ i.toNat then { e.2 with run := .runnable } else e.2
        | _ => e.2) }

/-- One step of a partition's counter, due at reference count `at_` (R151): register writes, the records of what takes
effect (R393), the ports in order, then the stores that were waiting, the loads that were held, and Monarch's part. -/
def State.stepCounter (s : State) (p : Fin 8) (at_ : Nat) : State :=
  let s := (s.applyWrites p).loseTasks p
  let x := s.partAt p
  let i := x.now + 1
  let s := s.setPartAt p { x with now := i, stepped := at_, shift := 0 }
  let s := s.flushLog p
  let s := s.ports.foldl (fun s e => s.stepPort p i e.1) s
  let s := s.ports.foldl (fun s e => s.retryStalled e.1) s
  ((s.settleMarks p).review p).wakeInstant p

/-- QCFG's fields (R147). -/
def qcfgEl (w : Word) : Bool := w.getLsbD 16
def qcfgPer (w : Word) : Nat := w.toNat % 2 ^ 16

/-- The reference count at which the counter may first leave instant 0 (R148). -/
def Part.start (x : Part) : Nat := max (x.regs.qepoch.toNat % 2 ^ 56) x.born

/-- The reference count at which a metered counter's next step is due (R148, R149, R389). -/
def Part.due (x : Part) : Nat := (if x.now = 0 then x.start else x.stepped) + qcfgPer x.regs.qcfg + 1 + x.shift

/-- QUARTZ_STEP (R149). -/
def execQuartzStep (p : Fin 8) (s : State) : Host.Outcome State Fault Refusal :=
  let x := s.partAt p
  .next (if s.running p && !qcfgEl x.regs.qcfg && decide (x.due ≤ s.refcnt) then s.stepCounter p x.due else s)

/-- A thread waits for an instant above i (R150). -/
def State.heldAbove (s : State) (i : Instant) (e : Nat × Slot) : Bool :=
  match e.2.run with
  | .waiting (.instant v) => decide (i.toNat < v.toNat)
  | .waiting .list => match (s.arrayAt (e.1 / 16)).run with
    | some x => x.slot == e.1 && x.hold.any fun v => decide (i.toNat < v.toNat)
    | none => false
  | _ => false

/-- A task that runs is held for an instant later than i (R150): every one of its threads is in a slot and waits so. -/
def State.taskHeld (s : State) (p : Fin 8) (id t : Nat) (r : TaskRec) (i : Instant) : Bool :=
  let mine := s.slots.filter fun e => e.2.part == p && e.2.run != .free && e.2.task == some (id, t)
  mine.length == r.threads && mine.all (s.heldAbove i)

/-- Every task of the partition released at i or earlier has retired, is lost, or is held for a later instant (R150). -/
def State.tasksSettled (s : State) (p : Fin 8) (i : Instant) : Bool :=
  (s.partAt p).launches.all fun l => (List.range (descCrews l.desc)).all fun c =>
    decide (i.toNat < (crewRel l.desc c).toNat) || (l.started.contains c
      && l.live.all fun e => decide (e.1 / (descCrew l.desc * descTeam l.desc) ≠ c) || s.taskHeld p l.id e.1 e.2 i)

/-- The instants that the partition's outstanding Instant-domain writes name (R150). -/
def State.outstanding (s : State) (p : Fin 8) : List Instant :=
  let stores := fun (l : List Packet) => l.filterMap fun q => match q.body with
    | .store _ st => if q.part = p then some st.v else none
    | _ => none
  let cmds := (s.commands.filter fun c => c.part == p && !c.instDone).map (·.vsi)
  stores s.net ++ s.dev.egress.flatMap (fun e => stores (e.2.map (·.2)))
    ++ s.dev.resend.flatMap (fun e => stores (e.2.map (·.packet)))
    ++ s.ports.flatMap (fun e => (e.2.stalled.filter (·.1 == p)).map (·.2.2.v) ++ stores e.2.saved)
    ++ s.cores.flatMap (fun e => (e.2.prov.filter (·.part == p)).map (·.st.v)) ++ cmds

/-- A launch is queued or in progress (R150). -/
def Part.launching (x : Part) : Bool :=
  !x.queue.isEmpty || !x.hostQueue.isEmpty || x.head != x.kicked || !x.launches.isEmpty || !x.completions.isEmpty

/-- An elastic counter may step (R148, R150). -/
def State.elasticReady (s : State) (p : Fin 8) : Bool :=
  let x := s.partAt p
  let out := s.outstanding p
  s.running p && qcfgEl x.regs.qcfg && decide (x.start ≤ s.refcnt)
    && (x.now == 0 || decide (x.stepped + 16 ≤ s.refcnt)) && s.tasksSettled p x.now
    && out.all (fun v => decide (x.now.toNat + 1 < v.toNat)) && (x.launching || !out.isEmpty)

/-- ELASTIC_STEP (R150). -/
def execElasticStep (p : Fin 8) (s : State) : Host.Outcome State Fault Refusal :=
  .next (if s.elasticReady p then s.stepCounter p s.refcnt else s)

/-! ## Stop and resume (R389) -/

/-- A stop or resume record (R231): STATUS 0x1F, with the count at which it took effect. -/
def State.stopRecord (s : State) (p : Fin 8) (count : Nat) : State :=
  s.record p (vecOf [0, header false 2 s.ownIdx 0xFFFFFFFF 0xFFFF, 0x1F, 0, 0, .ofNat 64 count, 0, 0])

/-- The occupied slots of a partition. -/
def State.occupied (s : State) (p : Fin 8) : List Nat :=
  (s.slots.filter fun e => e.2.part == p && e.2.run != .free && e.2.run != .held).map (·.1)

/-- A slot may be saved by a stop: at a boundary, or waiting at a home for a reservation (R201). -/
def State.savable (s : State) (n : Nat) : Bool := s.atBoundary n || s.chained n

/-- Saves slots until one cannot be; a page that its area needs is asked for (R142). -/
def State.saveAll : List Nat → State → State
  | [], s => s
  | n :: r, s =>
    match s.saveSlot n with
    | .ok t => State.saveAll r t
    | .error (.page va k) => s.needPage (n / 256) (s.slotAt n).part va k
    | .error _ => s

/-- Changes STOPCNT.STATE. -/
def Part.setState (x : Part) (k : Nat) : Part :=
  { x with regs := { x.regs with stopcnt := .ofNat 64 (k * 2 ^ 62 + x.regs.stopcnt.toNat % 2 ^ 56) } }

/-- The last step of a stop (R389): answers for threads that are saved are kept with the routers, and the record is
written. -/
def State.endStop (s : State) (p : Fin 8) : State :=
  let late := fun (q : Packet) => match q.body with
    | .reply n .. => q.part == p && decide (2 ^ 20 ≤ n % 2 ^ 22)
    | _ => false
  let s := (s.net.filter late).foldl (fun s q => match q.body with
    | .reply n .. =>
      let r := slotKey n / 256
      s.setPortAt r { s.portAt r with saved := (s.portAt r).saved ++ [q] }
    | _ => s) { s with net := s.net.filter fun q => !late q }
  let x := s.partAt p
  let count := x.regs.stopcnt.toNat % 2 ^ 56
  let s := s.setPartAt p { x.setState 2 with stopping := false, flushed := false, stoppedAt := count }
  (s.stopRecord p count).log p 6 x.now 0x42 8 count

/-- A stop ends an MWAIT (R207) and an IDLE (R380), and a SLEEP whose ticks have passed at its count is over. -/
def State.stopWait (s : State) (n : Nat) : State :=
  match (s.slotAt n).run with
  | .waiting .idle => s.endWait n
  | .waiting (.sleep t) => if t ≤ s.refcnt then s.endWait n else s
  | _ => s.interrupt n

/-- PARTITION_STOP (R389): at the stop's count no slot issues again and every MWAIT ends (R207); once every thread is at a
boundary the routers send their flush tokens and the slots are saved; then, with every token there, the partition is
stopped. -/
def execPartitionStop (p : Fin 8) (s : State) : Host.Outcome State Fault Refusal :=
  let x := s.partAt p
  if pdefV (s.pdefOf p) = false ∨ s.stopState p ≠ 1 then .next s
  else if x.stopping = false then
    if s.refcnt < x.regs.stopcnt.toNat % 2 ^ 56 then .next s
    else
      let s := s.setPartAt p { x with stopping := true, flushed := false }
      .next ((s.occupied p).foldl State.stopWait s)
  else if x.flushed = false then
    if (s.occupied p).all s.savable then
      let rs := s.routers
      let s := s.setPartAt p { x with flushed := true, tokens := rs.length }
      .next { s with net := s.net ++ rs.map fun r => ⟨p, .flush r⟩ }
    else .next s
  else
    let s := State.saveAll (s.occupied p) s
    if x.tokens = 0 ∧ (s.occupied p).isEmpty = true then .next (s.endStop p) else .next s

/-- The router that a migration or a message goes to. -/
def State.sweepsTo (s : State) (b : Body) : Option Nat :=
  match b with
  | .migration core _ => some (core / 16)
  | .message _ core _ _ _ => some (core / 16)
  | .via c (.migrationTo ..) | .via c (.messageTo ..) => some c
  | .migrationTo .. | .messageTo .. => some (s.deviceCore / 16)
  | _ => none

/-- FLUSH_TOKEN (R389): the partition's migrations and messages ahead of the token, its packed threads in the cores' arrival
queues (R220) and its messages to be retried go to the router's save buffer. -/
def execFlushToken (k : Nat) (s : State) : Host.Outcome State Fault Refusal :=
  match s.takePacket k with
  | some (⟨p, .flush r⟩, t) =>
    let cores := (List.range 16).map (r * 16 + ·)
    let swept := fun (q : Packet) => q.part == p && s.sweepsTo q.body == some r
    let ahead := s.net.take k
    let queued := cores.flatMap fun c =>
      ((s.coreAt c).arrivals.filter (·.part == p)).map (fun x => Packet.mk p (.migration c x))
        ++ ((s.coreAt c).retry.filter (·.2.1.part == p)).map fun e => Packet.mk p (.message 0 c e.1 e.2.1.m
          ((e.2.1.cmd.map (Origin.completed c)).getD (.unit c)))
    let strip := fun (u : CoreUnit) => { u with
      arrivals := u.arrivals.filter (·.part != p), retry := u.retry.filter fun e => e.2.1.part != p }
    let u : State := { t with
      net := ahead.filter (fun q => !swept q) ++ s.net.drop (k + 1)
      cores := t.cores.map fun e => (e.1, if cores.contains e.1 then strip e.2 else e.2) }
    let q := u.portAt r
    let u := u.setPortAt r { q with saved := q.saved ++ queued ++ ahead.filter swept }
    let x := u.partAt p
    .next (u.setPartAt p { x with tokens := x.tokens - 1 })
  | _ => .next s

/-- The slots of a partition, in every core of its dies. -/
def State.partSlots (s : State) (p : Fin 8) : List Nat :=
  ((List.range 8).filter fun d => s.dieOn d && (pdefDies (s.pdefOf p)).getLsbD d).flatMap fun d =>
    (List.range 4096).filterMap fun k =>
      if (pdefSlots (s.pdefOf p)).getLsbD (k % 16) then some (d * 4096 + k) else none

/-- Saved slots of a partition that a resume cannot restore yet because their areas' pages are away (R142). -/
def State.areasAway (s : State) (p : Fin 8) : List (Nat × Word × Nat) :=
  (s.partAt p).kept.filterMap fun e => match s.areaAt p e.1 with
    | .error (.page va k) => some (e.1, va, k)
    | _ => none

/-- The slots of a partition whose areas hold a thread, with their areas. -/
def State.savedAreas (s : State) (p : Fin 8) : List (Nat × Place) :=
  (s.partSlots p).filterMap fun n => match s.areaAt p n with
    | .ok pl => if s.areaValid pl then some (n, pl) else none
    | .error _ => none

/-- Each core's provisional buffer has room for what comes back to it (R386). -/
def State.provRoom (s : State) (p : Fin 8) (l : List (Nat × Place)) : Bool :=
  l.all fun e => decide ((s.coreAt (e.1 / 16)).prov.length
    + ((l.filter fun f => f.1 / 16 == e.1 / 16).map fun f => (s.areaProv p f.1 f.2 false 64).length).sum ≤ 64)

/-- PARTITION_RESUME (R389): once every saved thread's page is there, and room for its provisional entries, every area that holds a
thread is restored, the routers' save buffers go back, and the counter goes on. -/
def execPartitionResume (p : Fin 8) (s : State) : Host.Outcome State Fault Refusal :=
  let x := s.partAt p
  let count := x.regs.stopcnt.toNat % 2 ^ 56
  if pdefV (s.pdefOf p) = false ∨ s.stopState p ≠ 3 ∨ s.refcnt < count then .next s
  else
    let away := s.areasAway p
    let areas := s.savedAreas p
    if !away.isEmpty then .next (away.foldl (fun s e => s.needPage (e.1 / 256) p e.2.1 e.2.2) s)
    else if !s.provRoom p areas then .next s
    else
      let s := areas.foldl (fun s e => s.restoreSlot p e.1 e.2) s
      let s := s.ports.foldl (fun s e =>
        let q := s.portAt e.1
        let s := s.setPortAt e.1 { q with saved := q.saved.filter (·.part != p) }
        { s with net := s.net ++ q.saved.filter (·.part == p) }) s
      let y := s.partAt p
      let s := s.setPartAt p { y.setState 0 with shift := y.shift + (count - y.stoppedAt) }
      .next ((s.stopRecord p count).log p 7 y.now 0x42 8 count)

/-! ## Clocks and power (R390, R392) -/

/-- CLOCK_STRETCH (R390): a region's clock is suspended for one period. -/
def execClockStretch (region : Nat) (s : State) : Host.Outcome State Fault Refusal :=
  let q := s.portAt region
  .next (if q.suspended || decide (128 ≤ region) then s
    else s.setPortAt region { q with suspended := true, stretch := q.stretch + 1 })

/-- POWER_POOL_REFILL (R392): once a tick, every enabled die's pool takes its share of the budget that the modules other
than the matrix arrays leave, as it is measured (log entry 18). -/
def execPowerPoolRefill (s : State) : Host.Outcome State Fault Refusal :=
  let meas := Config.measuredPower s.refcnt
  let s : State := { s with dev := { s.dev with meas := meas.setWidth 32 } }
  let on := (List.range 8).filter s.dieOn
  let share := (s.dev.budget.toNat - meas.toNat) * 64000 / on.length
  .next (on.foldl (fun s d =>
    let u := s.dieAt d
    s.setDieAt d { u with pool := min (u.pool + share) (2 ^ 24 - 1) }) s)

end Sys2Proof.Machine
end

