-- ==== Sys2Proof/Machine/Fabric.lean ====
section
/-! DEFINITION. Opal ports and on-package channels (18_fabric, R408 to R424): lanes and their commands, flits, transfers that
cannot be delivered and what the host does about them, and the connection table. -/

namespace Sys2Proof.Machine

/-! ## Ports, lanes and peers (R410, R411, R414) -/

/-- The first of the reach entries under which flits wait by which one leaves by a port (R410): its place and its channel. -/
def firstOut (p : Nat) (l : List Half) : Option (Nat × BitVec 7) :=
  match l.findIdx? fun e => (routeAt p e).isSome with
  | some k => ((l[k]?).bind (routeAt p)).map fun c => (k, c)
  | none => none

/-- Flits queued for a peer on a channel of a port. -/
def State.depth (s : State) (p j : Nat) (c : BitVec 7) : Nat :=
  ((Table.get [] s.dev.resend j).filter fun x => routeAt p x.entry == some c).length
    + ((Table.get [] s.dev.egress j).filter fun e => routeAt p e.1 == some c).length

/-- PDEPTH (R414). -/
def State.pdepth (s : State) (p : Nat) : Nat := ((s.reached p).map fun e => s.depth p e.1 e.2).sum

/-- The stripe set of a channel (R412): its lit lanes. -/
def OptPort.stripe (q : OptPort) (c : BitVec 7) : List (Fin 8) := q.which fun l => l.state == .lit && l.chan == c

/-- A command for a lane is queued. -/
def OptPort.busy (q : OptPort) (k : Fin 8) : Bool :=
  q.queue.any fun c => match c.op with
    | .tune l _ | .park l | .wake l => l == k
    | .wakeAll => q.lanes[k].state == .dark || q.lanes[k].state == .waking

/-- The lane that a port retunes to a peer (R411): a lit one whose peer's queue is empty is preferred, then the one whose last
flit was sent longest ago. -/
def State.retuneLane (s : State) (p : Nat) : Option (Fin 8) :=
  let q := s.optic p
  let free := (q.which fun l => l.state == .lit || l.state == .dark).filter fun k => !q.busy k
  let idle := free.filter fun k => q.lanes[k].state == .lit
    && (s.reached p).all fun e => e.2 != q.lanes[k].chan || s.depth p e.1 e.2 == 0
  (if idle.isEmpty then free else idle).foldl (fun (b : Option (Fin 8)) k => match b with
    | none => some k
    | some j => if q.lanes[k].last < q.lanes[j].last then some k else some j) none

/-- What R411 asks of a port: a TUNE for a peer that no lane serves or will serve, or with PRKH = 0 a WAKE of a dark lane
that records its channel. -/
def State.wanted (s : State) (p : Nat) : Option PortOp :=
  let q := s.optic p
  ((s.reached p).filterMap fun e =>
    if s.depth p e.1 e.2 = 0 ∨ (q.stripe e.2).isEmpty = false then none
    else match q.which fun l => l.state == .dark && l.chan == e.2 with
      | k :: _ => if s.dev.hamode.getLsbD 2 || q.busy k then none else some (.wake k)
      | [] =>
        let coming := q.lanes.toList.any fun l => (l.state == .waking && l.chan == e.2)
          || (l.state == .retuning && (l.chan == e.2 || l.next == e.2))
        let queued := q.queue.any fun c => match c.op with
          | .tune _ c => c == e.2
          | _ => false
        if coming || queued then none else (s.retuneLane p).map fun k => .tune k e.2).head?

/-- The port controller queues what R411 asks for. -/
def State.servePort (s : State) (p : Nat) : State :=
  match s.wanted p with
  | some o => (s.queueOptic p { op := o }).getD s
  | none => s

/-- The cluster whose router terminates a fibre port (R139; log entry 94). -/
def State.fibreCluster (s : State) (p : Nat) : Nat :=
  let c := Config.fibreRouter p % 128
  if s.dieOn (c / 16) then c else s.deviceCore / 16

/-- The head command of a port has ended (R381): a CIRC's completion goes to its core. -/
def State.endOptic (s : State) (p : Nat) (status : Nat) : State :=
  let q := s.optic p
  match q.queue with
  | [] => s
  | c :: r =>
    let s := s.setOptic p { q with queue := r }
    match c.owner with
    | none => s
    | some (part, core, ord) =>
      let took := s.refcnt - c.begun.getD s.refcnt
      s.postDone part (s.fibreCluster p * 16) core c.stamp (vecOf [0, header false 1 s.ownIdx (ord.extractLsb' 16 32) (ord.extractLsb' 0 16),
        .ofNat 64 (3 * 2 ^ 40 + status), c.word, 0, .ofNat 64 took, 0, 0])

/-- The head command has begun. -/
def OptPort.begin_ (q : OptPort) (t : Nat) : OptPort :=
  { q with queue := q.queue.modifyHead fun c => { c with begun := some t } }

/-- The head command, not yet begun. -/
def OptPort.next (q : OptPort) : Option PortOp :=
  match q.queue with
  | c :: _ => if c.begun.isNone then some c.op else none
  | [] => none

/-- The head command in progress. -/
def OptPort.doing (q : OptPort) : Option PortOp :=
  match q.queue with
  | c :: _ => if c.begun.isSome then some c.op else none
  | [] => none

/-- PORT_TUNE (R381, R411): a lit lane retunes; any other records the channel. -/
def execPortTune (p : Fin 64) (s : State) : Host.Outcome State Fault Refusal :=
  let s := s.servePort p.val
  let q := s.optic p.val
  match q.next with
  | some (.tune k c) =>
    let l := q.lanes[k]
    match l.state with
    | .lit => .next (s.setOptic p.val ((q.setLane k { l with state := .retuning, next := c }).begin_ s.refcnt))
    | .dark | .waking => .next ((s.setOptic p.val (q.setLane k { l with chan := c })).endOptic p.val 0)
    | .retuning | .failed => .next (s.endOptic p.val 0)
  | _ => .next s

/-- A lane that has failed ends the TUNE or WAKE that was begun for it (R417), unless its spare goes on waking. -/
def State.endLane (s : State) (p : Nat) (k : Fin 8) : State :=
  let q := s.optic p
  match q.doing with
  | some (.tune j _) => if j = k then s.endOptic p 0 else s
  | some (.wake j) => if j = k && q.lanes[k].state != .waking then s.endOptic p 0 else s
  | some .wakeAll => if (q.which fun l => l.state == .waking).isEmpty then s.endOptic p 0 else s
  | _ => s

/-- LANE_TUNE_DONE (R411). -/
def execLaneTuneDone (p : Fin 64) (k : Fin 8) (s : State) : Host.Outcome State Fault Refusal :=
  let q := s.optic p.val
  let l := q.lanes[k]
  if l.state = .retuning then
    let t := s.setOptic p.val (q.setLane k { l with state := .lit, chan := l.next })
    match q.doing with
    | some (.tune j _) => .next (if j = k then t.endOptic p.val 0 else t)
    | _ => .next t
  else .next s

/-- PORT_PARK (R381, R413): the command begins, and ends at the next tick. The port's last lit lane is not parked, nor by the port
itself one of its last MINLIT + 1. -/
def execPortPark (p : Fin 64) (s : State) : Host.Outcome State Fault Refusal :=
  let q := s.optic p.val
  let lit := (q.which fun l => l.state == .lit).length
  match q.next, q.doing with
  | some (.park _), _ => .next (s.setOptic p.val (q.begin_ s.refcnt))
  | none, some (.park k) =>
    let l := q.lanes[k]
    if l.state ≠ .lit ∨ (q.queue.head?.all (·.owner.isNone) = true ∧ lit ≤ q.minlit.toNat + 1) then
      .next (s.endOptic p.val 0)
    else if lit = 1 then .next (s.endOptic p.val 0x18)
    else .next ((s.setOptic p.val (q.setLane k { l with state := .dark })).endOptic p.val 0)
  | _, _ => .next s

/-- PORT_WAKE (R381, R411, R413): one dark lane, or every one. -/
def execPortWake (p : Fin 64) (s : State) : Host.Outcome State Fault Refusal :=
  let s := s.servePort p.val
  let q := s.optic p.val
  match q.next with
  | some (.wake k) =>
    let l := q.lanes[k]
    if l.state = .dark then
      .next (s.setOptic p.val ((q.setLane k { l with state := .waking }).begin_ s.refcnt))
    else .next (s.endOptic p.val 0)
  | some .wakeAll =>
    let wake := fun (l : Lane) => if l.state = .dark then { l with state := .waking } else l
    if (q.which fun l => l.state == .dark).isEmpty then .next (s.endOptic p.val 0)
    else .next (s.setOptic p.val ({ q with lanes := q.lanes.map wake }.begin_ s.refcnt))
  | _ => .next s

/-- LANE_WAKE_DONE (R413): the lane joins its stripe set; the action ends with the last of its lanes. -/
def execLaneWakeDone (p : Fin 64) (k : Fin 8) (s : State) : Host.Outcome State Fault Refusal :=
  let q := s.optic p.val
  let l := q.lanes[k]
  if l.state = .waking then
    let q := q.setLane k { l with state := .lit }
    let t := s.setOptic p.val q
    match q.doing with
    | some (.wake j) => .next (if j = k then t.endOptic p.val 0 else t)
    | some .wakeAll => .next (if (q.which fun l => l.state == .waking).isEmpty then t.endOptic p.val 0 else t)
    | _ => .next t
  else .next s

/-- A park of a lane is queued. -/
def OptPort.parks (q : OptPort) (k : Fin 8) : Bool :=
  q.queue.any fun c => match c.op with
    | .park l => l == k
    | _ => false

/-- LANE_AUTO_PARK (R413): one lane a tick, the highest first; lanes that queued parks will darken do not count as lit. -/
def execLaneAutoPark (p : Fin 64) (s : State) : Host.Outcome State Fault Refusal :=
  let q := s.optic p.val
  let lit := q.which fun l => l.state == .lit
  let old := (lit.filter fun k => decide (q.lanes[k].last + q.idlep.toNat < s.refcnt) && !q.busy k).getLast?
  match old with
  | some k =>
    let stay := lit.filter fun k => !q.parks k
    if s.dev.hamode.getLsbD 2 ∨ stay.length ≤ q.minlit.toNat + 1 ∨ q.parkedAt = s.refcnt then .next s
    else match s.queueOptic p.val { op := .park k } with
      | some t => .next (t.setOptic p.val { t.optic p.val with parkedAt := s.refcnt })
      | none => .next s
  | none => .next s

/-- LANE_AUTO_WAKE (R413): the wake of every dark lane is one action. -/
def execLaneAutoWake (p : Fin 64) (s : State) : Host.Outcome State Fault Refusal :=
  let q := s.optic p.val
  let queued := q.queue.any fun c => c.op == .wakeAll
  if s.dev.hamode.getLsbD 2 || decide (s.pdepth p.val ≤ q.wakeq.toNat) || queued
      || (q.which fun l => l.state == .dark).isEmpty then .next s
  else .next ((s.queueOptic p.val { op := .wakeAll }).getD s)

/-! ## Flits (R412, R419 to R421) -/

/-- A lane puts a flit on the fibre and keeps it for a replay (R415, R420). -/
def Lane.put (l : Lane) (t : Nat) (f : Sent) : Lane :=
  { l with flits := l.flits + 1, last := t, replay := (l.replay ++ [f]).drop (l.replay.length + 1 - 64) }

/-- The lane that takes the next flit of a peer (R412). -/
def nextLane (set : List (Fin 8)) (last : Nat) : Option (Fin 8) :=
  (set.find? fun k => decide (last ≤ k.val)).orElse fun _ => set.head?

/-- A port's next flit for a peer: flits to be sent again first, then the packets queued, each under its reach entry (R410); and its
channel. -/
def State.nextFlit (s : State) (p j : Nat) : Option (BitVec 7 × Sent × Dev) :=
  let back := Table.get [] s.dev.resend j
  let out := Table.get [] s.dev.egress j
  match firstOut p (back.map (·.entry)) with
  | some (k, c) => (back[k]?).map fun x => (c, x, { s.dev with resend := Table.set s.dev.resend j (back.eraseIdx k) })
  | none =>
    match firstOut p (out.map (·.1)) with
    | none => none
    | some (k, c) =>
      let n := Table.get 0 s.dev.sent j
      (out[k]?).map fun e => (c, { peer := j, seq := n, packet := e.2, entry := e.1 }, { s.dev with
        egress := Table.set s.dev.egress j (out.eraseIdx k), sent := Table.set s.dev.sent j (n + 1) })

/-- FLIT_TRANSMIT (R408, R409, R411, R412): the next transfer for a peer leaves on the next lane of its stripe set. -/
def execFlitTransmit (p : Fin 64) (j : Nat) (s : State) : Host.Outcome State Fault Refusal :=
  if s.dev.jobV = false ∨ s.dev.unlocked = true then .next s
  else match s.nextFlit p.val j with
    | none => .next s
    | some (c, f, d) =>
      let q := s.optic p.val
      match nextLane (q.stripe c) (Table.get 0 s.dev.stripe j) with
      | none => .next s
      | some k =>
        let t := { s with dev := { d with stripe := Table.set d.stripe j (k.val + 1) } }
        .next (t.setOptic p.val (q.setLane k (q.lanes[k].put s.refcnt f)))

/-- A lane has failed (R416, R418, R420): a free spare ring pair wakes on its channel, or the lane is out for good; flits that
had not reached the peer go again on its other lanes, or are held with records under FLTH = 1. Which had not is the
surroundings' choice (log entry 4). A spare of a lane that was retuning takes the channel it went to (log entry 72). -/
def State.failLane (s : State) (p : Nat) (k : Fin 8) : State :=
  let q := s.optic p
  let l := q.lanes[k]
  let (n, s) := s.pick (l.replay.length + 1)
  let asked := (l.replay.take (l.replay.length - n)).filter fun f => f.tries != 0
  let lost := asked ++ l.replay.drop (l.replay.length - n)
  let bit : Byte := 1#8 <<< k.val
  let chan := if l.state = .retuning then l.next else l.chan
  let q := match q.spares with
    | x :: r => { q.setLane k { l with
        pair := x, state := .waking, chan := chan, replay := [], modulator := {}, filter := {} } with
          spares := r, spare := q.spare ||| bit }
    | [] => { q.setLane k { l with state := .failed, replay := [] } with fail := q.fail ||| bit }
  let s := ((s.setOptic p q).endLane p k).signal 5
  lost.foldl (fun s f =>
    if s.dev.hamode.getLsbD 4 && (q.stripe l.chan).isEmpty && f.packet.whole == f.packet then
      s.postFabric ⟨f.packet, false, f.peer, 0, p, k.val, some f.seq⟩
    else { s with dev := { s.dev with
      resend := Table.set s.dev.resend f.peer (Table.get [] s.dev.resend f.peer ++ [{ f with tries := 0 }]) } }) s

/-- How a replay request names a flit (R420): by its peer, whose index has 13 bits (R16), and its sequence for that peer. -/
def flitName (peer seq : Nat) : Nat := 2 ^ 13 * seq + peer % 2 ^ 13

/-- REPLAY_REQUEST (R420): the flit goes again on its lane, or on a lane of its peer where that one is not lit on the peer's channel
any more (R411); a third failure fails the lane. No flit goes without a reference (R408) or an index (R409). -/
def execReplayRequest (p : Fin 64) (k : Fin 8) (n : Nat) (s : State) : Host.Outcome State Fault Refusal :=
  if s.dev.jobV = false ∨ s.dev.unlocked = true then .next s
  else
  let q := s.optic p.val
  let l := q.lanes[k]
  match l.replay.find? fun f => flitName f.peer f.seq == n with
  | none => .next s
  | some f =>
    let again := l.replay.map fun e => if e = f then { e with tries := e.tries + 1 } else e
    let t := s.setOptic p.val (q.setLane k { l with replay := again })
    if 2 ≤ f.tries then .next (t.failLane p.val k)
    else if l.state ≠ .lit ∨ routeAt p.val f.entry ≠ some l.chan then
      let u := s.setOptic p.val (q.setLane k { l with replay := l.replay.erase f })
      .next { u with dev := { u.dev with
        resend := Table.set u.dev.resend f.peer (Table.get [] u.dev.resend f.peer ++ [{ f with tries := f.tries + 1 }]) } }
    else .next (s.setOptic p.val (q.setLane k { l with replay := again, flits := l.flits + 1, last := s.refcnt }))

/-- What sent a transfer, as the receiving device names it. -/
def Origin.from_ (j : Nat) : Origin → Origin
  | .slot n | .entry n | .publish (some n) _ => .peer j n
  | .cmd k => .peerCmd j k
  | .unit c => .peerUnit j (some c)
  | .host => .peerUnit j none
  | o => o

/-- A transfer of another device has come in order, through the router of a cluster. -/
def State.takeIn (s : State) (j cluster : Nat) (p : Fin 8) (b : Body) : State :=
  match b with
  | .refused c => s.undoTransfer p c Cause.keyInvalid.code Cause.keyInvalid.code
  | .store o st | .storeTo o st => s.send p (.via cluster (.storeTo (o.from_ j) st))
  | .unitRequest k r => s.send p (.via cluster (.peerCmd j k r))
  | .messageTo va hi m o => s.send p (.via cluster (.messageTo va hi m (o.from_ j)))
  | .peerRequest .. | .migrationTo .. => s.send p (.via cluster b)
  | .stopReq o c => s.send p (.stopReq (o.from_ j) c)
  | .collPart c => s.joinColl p c
  | .part _ => s
  | .stopcnt v => s.setPartAt p { s.partAt p with regs := { (s.partAt p).regs with stopcnt := v } }
  | .reply n .slipped _ => (s.slipTask (slotKey n)).send p b
  | b => s.send p b

/-- Transfers that had come early and are next in sequence (R412): one of a partition that had no job key is refused (R421). -/
def State.drainEarly (s : State) (j : Nat) : Nat → State
  | 0 => s
  | f + 1 =>
    let n := Table.get 0 s.dev.expect j
    match s.dev.early.find? fun e => e.peer == j && e.seq == n with
    | none => s
    | some e =>
      let s := { s with dev := { s.dev with
        early := s.dev.early.erase e, expect := Table.set s.dev.expect j (n + 1) } }
      let s := if e.keyed then s.takeIn j e.cluster e.packet.part e.packet.body
        else s.export j ⟨e.packet.part, .refused e.packet.body⟩
      s.drainEarly j f

/-- FLIT_RECEIVE (R409, R412, R420, R421): the k-th transfer that is on its way here arrives in a flit of this peer, partition
and sequence. A tag that fails is discarded and a replay asked for; a partition with no job key refuses; transfers are
delivered in the peer's sequence. -/
def execFlitReceive (p : Fin 64) (lane : Fin 8) (j : Nat) (part : Fin 8) (n : Nat) (tagOk : Bool) (k : Nat) (s : State) :
    Host.Outcome State Fault Refusal :=
  if s.dev.jobV = false ∨ s.dev.unlocked = true then .next s
  else match s.dev.inbound[k]? with
    | none => .next s
    | some (d, x) =>
      if d ≠ j ∨ x.part ≠ part then .next s
      else if tagOk = false then
        .next { s with dev := { s.dev with replays := s.dev.replays ++ [(p.val, lane.val, j, n)] } }
      else
        let s := { s with dev := { s.dev with inbound := s.dev.inbound.eraseIdx k } }
        let want := Table.get 0 s.dev.expect j
        if n < want ∨ (s.dev.early.any fun e => e.peer == j && e.seq == n) = true then .next s
        else
          let e : Early := ⟨j, n, s.fibreCluster p.val, (s.partAt part).key.isSome, x⟩
          .next ({ s with dev := { s.dev with early := s.dev.early ++ [e] } }.drainEarly j (s.dev.early.length + 1))

/-- REFERENCE_LOCK_LOSS (R408). -/
def execReferenceLockLoss (s : State) : Host.Outcome State Fault Refusal :=
  .next ({ s with dev := { s.dev with unlocked := true } }.signal 5)

/-- LINK_FAILURE (R299, R359, R416, R418): a lane, or an on-package channel. Under FLTH = 0 an engine command whose piece has no
path left fails; under FLTH = 1 what cannot be delivered is held with records. -/
def execLinkFailure (p : Option (Fin 64)) (lane dieA : Fin 8) (chan : BitVec 8) (s : State) :
    Host.Outcome State Fault Refusal :=
  match p with
  | some p =>
    let x := (s.optic p.val).lanes[lane].state
    .next (if x = .failed ∨ x = .dark then s else s.failLane p.val lane)
  | none =>
    let s := { s with dev := { s.dev with deadChans := s.dev.deadChans ++ [(dieA.val, chan.toNat)] } }
    if s.dev.hamode.getLsbD 4 then .next s.postBlocked
    else
      let lost := fun (q : Packet) => s.blocked q.body && q.body.isPiece
      .next ((s.net.filter lost).foldl (fun (s : State) q => s.undoTransfer q.part q.body Cause.copyFail.code Cause.copyFail.code)
        { s with net := s.net.filter fun q => !lost q }).postBlocked

/-! ## Heater service (R416) -/

/-- One ring's service with HTRH = 0: the ring, or none when its code is at an end and a correction is needed. -/
def OptPort.heat (q : OptPort) (r : Ring) (m : BitVec 12) : Option Ring :=
  let low := decide (m.toNat + q.hband.toNat < q.mtgt.toNat)
  let high := decide (q.mtgt.toNat + q.hband.toNat < m.toNat)
  if !low && !high then some r
  else if r.hcode = 0 ∨ r.hcode = 4095 then none
  else some { r with hcode := if low then r.hcode + 1 else r.hcode - 1 }

/-- One lane's service with HTRH = 0. -/
def State.heatLane (s : State) (p : Nat) (k : Fin 8) : State :=
  let q := s.optic p
  let l := q.lanes[k]
  if l.state = .failed then s
  else match q.heat l.modulator (Config.monitor s.refcnt p k.val false),
      q.heat l.filter (Config.monitor s.refcnt p k.val true) with
    | some a, some b => s.setOptic p (q.setLane k { l with modulator := a, filter := b })
    | _, _ => s.failLane p k

/-- HEATER_SERVICE (R416): every HSPER ticks. -/
def execHeaterService (p : Fin 64) (s : State) : Host.Outcome State Fault Refusal :=
  let q := s.optic p.val
  if s.refcnt < q.served + q.hsper.toNat then .next s
  else
    let s := s.setOptic p.val { q with served := s.refcnt }
    if s.dev.hamode.getLsbD 1 = false then .next ((List.finRange 8).foldl (fun s k => s.heatLane p.val k) s)
    else
      let q := s.optic p.val
      let read := fun (k : Fin 8) (f : Bool) => Config.monitor s.refcnt p.val k.val f
      let out := fun (m : BitVec 12) =>
        decide (m.toNat + q.hband.toNat < q.mtgt.toNat) || decide (q.mtgt.toNat + q.hband.toNat < m.toNat)
      let bits := (List.finRange 8).foldl (fun (b : Nat) k =>
        b + 2 ^ (2 * k.val) * (out (read k false)).toNat + 2 ^ (2 * k.val + 1) * (out (read k true)).toNat) 0
      let lanes := Vector.ofFn fun k => { q.lanes[k] with
        modulator := { q.lanes[k].modulator with mon := read k false }
        filter := { q.lanes[k].filter with mon := read k true } }
      let t := s.setOptic p.val { q with lanes := lanes, hsvc := q.hsvc ||| .ofNat 16 bits }
      .next (if bits = 0 then t else t.signal 5)

/-! ## The connection table (R423, R424) -/

/-- The staging copy's byte. -/
def State.stagedByte (s : State) (a n : Nat) : Byte := Table.get (s.connByte a n) s.dev.staged (256 * a + n)

/-- A commit is accepted (R424). -/
def State.commitOk (s : State) : Bool :=
  let valid := fun (a n : Nat) => (s.stagedByte a n).getLsbD 7
  let peer := fun (a n : Nat) => (s.stagedByte a n).toNat % 8
  let all := (List.range 8).all fun a => (List.range 256).all fun n =>
    !valid a n || (valid (peer a n) n && peer (peer a n) n == a && s.dieOn (peer a n))
  let on := (List.range 8).filter s.dieOn
  all && on.all fun a => on.all fun b => a == b || (List.range 256).any fun n => valid a n && peer a n == b

/-- A write of 1 commits the staging copy, or sets the refused-commit flag (R424). -/
def State.commitConn (s : State) : State :=
  if s.commitOk then
    { s with dev := { s.dev with
      conn := s.dev.staged.foldl (fun t e => Table.set t e.1 (s.stagedByte (e.1 / 256) (e.1 % 256))) s.dev.conn, staged := [] } }
  else { s with dev := { s.dev with connErr := true } }

end Sys2Proof.Machine
end

