-- ==== Sys2Proof/Machine/Window.lean ====
section
/-! DEFINITION. The W4 window and the host edge (18_fabric, R394 to R407, R419): what each register there reads as and does, a
thread's accesses to it (R138), host accesses to memory (R158, R398, R399), host atomics (R214, R215, R400), the host queues (R401 to
R403), keys, attestation, and cold reset. -/

namespace Sys2Proof.Machine

/-! ## Reading (R394) -/

/-- Byte n of a value. -/
def byteOf (x n : Nat) : Byte := .ofNat 8 (x / 256 ^ n)

/-- A byte of the configuration record (R405). -/
def State.recordAt (s : State) (n : Nat) : Byte :=
  if n < 8 then (#v[0x47, 0x57, 0x4E, 0x50, 0x48, 0x56, 0x38, 0x52] : Vector Byte 8)[n]!
  else if n = 8 then 1
  else if n = 0xA then s.dev.record
  else if n < 0x10 ∨ (0x12A ≤ n ∧ n < 0x130) ∨ 0x1F4 ≤ n then 0
  else if n = 0x20 ∨ n = 0xA5 then 4
  else if 0x130 ≤ n ∧ n < 0x170 then byteOf Config.firmwareDigest.toNat (n - 0x130)
  else Config.recordByte n

/-- Eight bytes from an offset, little-endian. -/
def word8 (f : Nat → Byte) (n : Nat) : Word :=
  .ofNat 64 ((List.range 8).foldr (fun k a => (f (n + k)).toNat + 256 * a) 0)

/-- The code of a lane's state (R415). -/
def LaneState.code : LaneState → Nat
  | .dark => 0
  | .waking => 1
  | .lit => 2
  | .retuning => 3
  | .failed => 4

/-- A mask of the lanes of a port that meet a test. -/
def OptPort.mask (q : OptPort) (f : Lane → Bool) : Nat := ((q.which f).map fun k => 2 ^ k.val).sum

/-- MON of a ring (R415, R416): with HTRH = 1 the reading latched by the last service tick, or before one the last reading
that it followed; with HTRH = 0 the reading of the last reference tick. No tick has come yet at reset. -/
def State.ringMon (s : State) (p k : Nat) (filter : Bool) (r : Ring) : Nat :=
  let at_ := if s.dev.hamode.getLsbD 1 then s.dev.followed else s.refcnt
  if at_ = 0 ∨ (s.dev.hamode.getLsbD 1 = true ∧ s.dev.followed < (s.optic p).served) then r.mon.toNat
  else (Config.monitor at_ p k filter).toNat

/-- A register of an optical port (R414, R415). -/
def State.portReg (s : State) (p r : Nat) : Word :=
  let q := s.optic p
  let ring := fun (k : Nat) (f : Bool) (x : Ring) => BitVec.ofNat 64 (2 ^ 16 * s.ringMon p k f x + x.hcode.toNat)
  if r = 0 then
    .ofNat 64 (s.pdepth p % 2 ^ 32 + 2 ^ 32 * q.mask (·.state == .lit) + 2 ^ 40 * q.mask (·.state == .waking))
  else if r = 8 then .ofNat 64 (2 ^ 48 * q.idlep.toNat + 2 ^ 40 * q.minlit.toNat + q.wakeq.toNat)
  else if r = 0x10 then .ofNat 64 (2 ^ 48 * q.hsper.toNat + 2 ^ 16 * q.mtgt.toNat + q.hband.toNat)
  else if r = 0x18 then .ofNat 64 (2 ^ 24 * q.fail.toNat + 2 ^ 16 * q.spare.toNat + q.hsvc.toNat)
  else if 0x100 ≤ r ∧ r < 0x300 then
    let k : Fin 8 := .ofNat 8 ((r - 0x100) / 0x40)
    let l := q.lanes[k]
    match r % 0x40 with
    | 0x00 => .ofNat 64 (2 ^ 60 * l.pair + 2 ^ 56 * l.state.code + l.chan.toNat)
    | 0x08 => ring k.val false l.modulator
    | 0x10 => ring k.val true l.filter
    | 0x18 => l.flits.setWidth 64
    | _ => 0
  else 0

/-- The waiting fault records of a port, oldest first (R395). -/
def Port.records (q : Port) : List FaultEnt := q.faults.filter fun e => e.reported && !e.removed

/-- A block of records as four doublewords (R395): all ones when none waits. -/
def recordBlock (r : Nat) (rec_ : Option (Word × Word)) (count : Word) : Word :=
  match r with
  | 0x00 => (rec_.map (·.1)).getD (.allOnes 64)
  | 0x08 => (rec_.map (·.2)).getD (.allOnes 64)
  | 0x18 => count
  | _ => 0

/-- The two doublewords of a fault record (R143). -/
def FaultEnt.words (e : FaultEnt) : Word × Word :=
  (.ofNat 64 (2 ^ 56 * e.part.val + 2 ^ 52 * e.kind + 2 ^ 46 * (e.waiters.length - 1)), e.va)

/-- A register of a host queue's block (R401). -/
def Part.queueReg (x : Part) (r : Nat) : Word :=
  match r with
  | 0x00 => x.qbase
  | 0x08 => .ofNat 64 x.qlen
  | 0x18 => x.head.setWidth 64
  | 0x20 => x.cqbase
  | 0x28 => .ofNat 64 x.cqlen
  | 0x30 => x.cqw.setWidth 64
  | 0x38 => x.cqr.setWidth 64
  | 0x40 => x.qerr.setWidth 64
  | _ => 0

/-- A byte of the attestation block (R407). -/
def State.attestByte (s : State) (n : Nat) : Byte :=
  if n < 0x40 then s.dev.nonce.byte n
  else if n = 0x40 then (if s.dev.attesting then 1 else 0)
  else if 0x100 ≤ n ∧ n < 0x100 + 396 then s.dev.report.byte (n - 0x100)
  else 0

/-- The key block holds this byte (R419). -/
def keyHolds (n : Nat) : Bool :=
  n == 0 || (decide (2 ≤ n) && decide (n < 8)) || (decide (0x100 ≤ n) && decide (n < 0x185))
    || (decide (0x190 ≤ n) && decide (n < 0x1B8))

/-- A byte of the key block (R419). -/
def State.keyByte (s : State) (n : Nat) : Byte :=
  if n = 0x10 then s.dev.kstat.setWidth 8 else if keyHolds n then s.dev.keyBlock.byte n else 0

/-- An offset of W4, a multiple of 8, that R394 lists. What belongs to a die that is not enabled is absent (R2). -/
def State.w4Listed (s : State) (off : Nat) : Bool :=
  let in_ := fun (lo n : Nat) => decide (lo ≤ off) && decide (off < lo + n)
  let r := off % 0x1000
  if off < 0x8000 then (s.devReg (off / 8)).isSome
  else if off < 0x8040 then s.dieOn ((off - 0x8000) / 8)
  else if in_ 0x10000 0x8000 then (s.partReg 0 (r / 8)).isSome
  else if in_ 0x100000 0x80000 then s.dieOn ((off - 0x100000) / 0x10000) && decide (r < 0x20)
  else if in_ 0x200000 0x800 then decide (off % 0x100 < 0x20)
  else if in_ 0x300000 0x8000 then decide (r < 0x48)
  else if in_ 0x1000000 0x40000 then
    decide (r < 0x20) || (decide (0x100 ≤ r) && decide (r < 0x300) && decide (r % 0x40 < 0x20))
  else in_ 0x20000 0x28 || in_ 0x20040 0x20 || in_ 0x400000 0x200 || in_ 0x410000 0x48 || in_ 0x410100 0x190
    || in_ 0x420000 0x18 || in_ 0x420100 0x88 || in_ 0x420190 0x28 || in_ 0x500000 0x800 || in_ 0x500800 0x10
    || in_ 0x600000 (4 * 6144)

/-- The register at an offset of W4, a multiple of 8 (R394). After a failed boot only the record and BOOTST are there (R406). -/
def State.w4Get (s : State) (off : Nat) : Word :=
  if 0x400000 ≤ off ∧ off < 0x400200 then word8 s.recordAt (off - 0x400000)
  else if off = 0x20018 then .ofNat 64 (s.dev.boot.toNat + 2 ^ 8 * s.dev.bootErr.toNat)
  else if s.dev.bootErr ≠ 0 ∨ s.w4Listed off = false then 0
  else if off < 0x8000 then (s.devReg (off / 8)).getD 0
  else if off < 0x8040 then s.garnet ((off - 0x8000) / 8)
  else if 0x10000 ≤ off ∧ off < 0x18000 then (s.partReg (.ofNat 8 ((off - 0x10000) / 0x1000)) (off % 0x1000 / 8)).getD 0
  else if off = 0x20000 then s.dev.haflog
  else if off = 0x20008 then s.dev.hmlog
  else if off = 0x20020 then s.dev.cfglog
  else if 0x20040 ≤ off ∧ off < 0x20060 then
    recordBlock (off - 0x20040) (s.dev.fabric.head?.map FabFault.words) (.ofNat 64 (min 64 s.dev.fabric.length))
  else if 0x100000 ≤ off ∧ off < 0x180000 then
    let l := (s.portAt ((off - 0x100000) / 0x1000)).records
    recordBlock (off % 0x1000) (l.head?.map FaultEnt.words) (.ofNat 64 l.length)
  else if 0x200000 ≤ off ∧ off < 0x200800 then
    let m := s.monarch (.ofNat 8 ((off - 0x200000) / 0x100))
    recordBlock (off % 0x100) (m.records.head?.map fun r => (.ofNat 64 r, .ofNat 64 (r / 2 ^ 64)))
      (.ofNat 64 (2 ^ 63 * m.ovf.toNat + m.records.length))
  else if 0x300000 ≤ off ∧ off < 0x308000 then (s.partAt (.ofNat 8 ((off - 0x300000) / 0x1000))).queueReg (off % 0x1000)
  else if 0x410000 ≤ off ∧ off < 0x410290 then word8 s.attestByte (off - 0x410000)
  else if 0x420000 ≤ off ∧ off < 0x4201B8 then word8 s.keyByte (off - 0x420000)
  else if 0x500000 ≤ off ∧ off < 0x500800 then
    word8 (fun n => s.connByte (n / 256) (n % 256)) (off - 0x500000)
  else if off = 0x500808 then (if s.dev.connErr then 1 else 0)
  else if 0x600000 ≤ off ∧ off < 0x600000 + 4 * 6144 then
    let j := (off - 0x600000) / 4
    .ofNat 64 ((Table.get 0 s.dev.reach j).toNat + 2 ^ 32 * (Table.get 0 s.dev.reach (j + 1)).toNat)
  else if 0x1000000 ≤ off ∧ off < 0x1040000 then s.portReg ((off - 0x1000000) / 0x1000) (off % 0x1000)
  else 0

/-- n bytes of W4 from an offset (R138). -/
def State.w4Read (s : State) (off n : Nat) : Nat :=
  (List.range n).foldr (fun k a => (byteOf (s.w4Get ((off + k) / 8 * 8)).toNat ((off + k) % 8)).toNat + 256 * a) 0

/-! ## Writing (R138, R396) -/

/-- The bytes of a mask of eight. -/
def laneMask (be : Byte) : Word :=
  .ofNat 64 ((List.range 8).foldr (fun k a => (if be.getLsbD k then 255 else 0) + 256 * a) 0)

/-- CFGLOG (R396). -/
def State.noteCfg (s : State) (off why : Nat) : State :=
  { s with dev := { s.dev with cfglog := .ofNat 64 (2 ^ 32 * off + 2 ^ 8 * why + 0x80) } }.signal 4

/-- A write of QLEN or CQLEN holds a power of two from 4 to 4,096 (R401). -/
def queueSize (v : Word) : Option Nat := ((List.range 11).map fun k => 2 ^ (k + 2)).find? fun n => v.toNat % 2 ^ 13 = n

/-- A kick's entries are copied (R402). -/
def State.kick (s : State) (p : Fin 8) (tail : Half) : State :=
  let x := s.partAt p
  let n := (tail - x.head).toNat
  if x.qlen < n then s.setPartAt p { x with qerr := x.qerr ||| 1 }
  else
    let copy := fun (k : Nat) =>
      (s.tableRead p (x.qbase + 64 * .ofNat 64 ((x.head.toNat + k) % 2 ^ 32 % x.qlen)) 64).map (BitVec.ofNat 512)
    s.setPartAt p { x with kicked := tail, head := tail, hostQueue := x.hostQueue ++ (List.range n).map copy }

/-- Held records are written once there is room (R403). -/
def State.flushAll (s : State) (p : Fin 8) : State := s.flushRecords p ((s.partAt p).records.length + 1)

/-- A write of a host queue's block (R401 to R403): `v` merged with what the register holds, `w` the bytes written alone. -/
def State.writeQueue (s : State) (p : Fin 8) (r : Nat) (v w : Word) : Wr :=
  let x := s.partAt p
  let busy := s.setPartAt p { x with qerr := x.qerr ||| 1 }
  let set := fun (y : Part) => Wr.done ((s.setPartAt p y).flushAll p)
  match r with
  | 0x00 => if x.head ≠ x.kicked then .done busy else if v.toNat % 64 ≠ 0 then .ignored s 1 else set { x with qbase := v }
  | 0x08 =>
    if x.head ≠ x.kicked then .done busy
    else if v.toNat % 2 ^ 13 = 0 then set { x with qlen := 0 }
    else match queueSize v with
      | some n => set { x with qlen := n }
      | none => .ignored s 1
  | 0x10 => .done (s.kick p (w.setWidth 32))
  | 0x20 => if x.head ≠ x.kicked then .done busy else if v.toNat % 64 ≠ 0 then .ignored s 1 else set { x with cqbase := v }
  | 0x28 =>
    if x.head ≠ x.kicked then .done busy
    else match queueSize v with
      | some n => set { x with cqlen := n }
      | none => .ignored s 1
  | 0x38 =>
    if x.cqlen < (x.cqw - v.setWidth 32).toNat then .ignored s 3 else set { x with cqr := v.setWidth 32 }
  | 0x40 => .done (s.setPartAt p { x with qerr := x.qerr &&& ~~~ w.setWidth 2 })
  | _ => .done s

/-- A write of a port's register (R414 to R416). -/
def State.writePort (s : State) (p r : Nat) (v w : Word) : Wr :=
  let q := s.optic p
  if r = 8 then
    if v.toNat / 2 ^ 48 = 0 ∨ v.toNat % 2 ^ 32 = 0 then .ignored s 1
    else .done (s.setOptic p { q with
      idlep := v.extractLsb' 48 16, minlit := v.extractLsb' 40 3, wakeq := v.setWidth 32 })
  else if r = 0x10 then
    if v.toNat / 2 ^ 48 = 0 then .ignored s 1
    else .done (s.setOptic p { q with hsper := v.extractLsb' 48 16, mtgt := v.extractLsb' 16 12, hband := v.setWidth 12 })
  else if r = 0x18 then
    .done (s.setOptic p { q with
      fail := q.fail &&& ~~~ w.extractLsb' 24 8, spare := q.spare &&& ~~~ w.extractLsb' 16 8
      hsvc := q.hsvc &&& ~~~ w.setWidth 16 })
  else if 0x100 ≤ r ∧ r < 0x300 ∧ (r % 0x40 = 8 ∨ r % 0x40 = 0x10) then
    let k : Fin 8 := .ofNat 8 ((r - 0x100) / 0x40)
    let l := q.lanes[k]
    let h : BitVec 12 := v.setWidth 12
    .done (s.setOptic p (q.setLane k (if r % 0x40 = 8 then { l with modulator := { l.modulator with hcode := h } }
      else { l with filter := { l.filter with hcode := h } })))
  else .done s

/-- A write of a reach table entry (R410): packets that waited for a valid entry take it. -/
def State.writeReach (s : State) (j : Nat) (e : Half) : Wr :=
  let place := fun (e : Half) => (e.toNat / 2 ^ 16 % 64, e.toNat % 128)
  let taken := s.dev.reach.any fun f => f.1 != j && f.2.getLsbD 31 && place f.2 == place e
  if e &&& ~~~ 0x803F007F ≠ 0 ∨ 95 < e.toNat % 128 then .ignored s 1
  else if j = s.ownIdx ∨ (e.getLsbD 31 = true ∧ taken = true) then .ignored s 3
  else
    let l := (Table.get [] s.dev.egress j).map fun q => if q.1.getLsbD 31 then q else (e, q.2)
    .done { s with dev := { s.dev with
      reach := Table.set s.dev.reach j e, stripe := s.dev.stripe.drop j
      egress := if l.isEmpty then s.dev.egress else Table.set s.dev.egress j l } }

/-- Writes those bytes of a word whose lane is enabled and whose place is held. -/
def putBytes (m : Mem) (n : Nat) (be : Byte) (v : Word) (holds : Nat → Bool) : Mem :=
  (List.range 8).foldl (fun m k => if be.getLsbD k && holds (n + k) then m.put (n + k) (byteOf v.toNat k) else m) m

/-- A write of the key block (R419): KGO starts a load. -/
def State.writeKey (s : State) (n : Nat) (be : Byte) (w : Word) : Wr :=
  if n = 8 then
    if w.getLsbD 0 = false then .done s
    else if s.dev.kstat = 1 then .ignored s 3 else .done { s with dev := { s.dev with kstat := 1 } }
  else
    let v := if n = 0 then w &&& 0xFFFFFFFFFFFF0007 else w
    .done { s with dev := { s.dev with keyBlock := putBytes s.dev.keyBlock n be v keyHolds } }

/-- A write of the attestation block (R407). -/
def State.writeAttest (s : State) (n : Nat) (be : Byte) (w : Word) : Wr :=
  if n = 0x40 then
    if w.getLsbD 0 = false then .done s
    else if s.dev.attesting then .ignored s 3 else .done { s with dev := { s.dev with attesting := true } }
  else .done { s with dev := { s.dev with nonce := putBytes s.dev.nonce n be w fun k => decide (k < 0x40) } }

/-- A write of the connection table's staging copy (R423, R424); bits [6:3] of a byte are reserved (R8). -/
def State.writeConn (s : State) (n : Nat) (be : Byte) (w : Word) : State :=
  (List.range 8).foldl (fun s k =>
    if be.getLsbD k then { s with dev := { s.dev with staged := Table.set s.dev.staged (n + k) (byteOf w.toNat k &&& 0x87) } } else s) s

/-- A write of PGINVH (R394): PGINV's effect. -/
def State.writePginvh (s : State) (w : Word) : Wr :=
  match winOf (localAddr w) with
  | some .w2 | some .w3 => .done (s.pginv (.ofNat 8 (w.toNat / 2 ^ 61)) (localAddr w))
  | _ => .ignored s 1

/-- Writing 1 removes a port's oldest fault record (R395): its waiters still wait. -/
def Port.removeRecord (q : Port) : Port :=
  match q.records with
  | [] => q
  | e :: _ =>
    if e.ended then { q with faults := q.faults.erase e }
    else { q with faults := q.faults.map fun f => if f = e then { f with removed := true } else f }

/-- Writing 1 removes the oldest Monarch record, and clears OVF (R395). -/
def Monarch.removeRecord (m : Monarch) : Monarch :=
  match m.records with
  | [] => m
  | _ :: r => { m with records := r, ovf := false }

/-- A write of bytes of the register at an offset of W4, a multiple of 8 (R138, R394), by a core or the host (2,048, R94). That
of an offset which R394 does not list is ignored, and recorded as one (R396; log entry 110). -/
def State.w4Put (s : State) (rank off : Nat) (be : Byte) (data : Word) : Wr :=
  let w := data &&& laneMask be
  let v := (s.w4Get off &&& ~~~ laneMask be) ||| w
  let v7 := fun (x : Word) => x &&& ~~~ (w &&& 0x80)
  if s.dev.bootErr ≠ 0 then .done s
  else if s.w4Listed off = false then .ignored s 3
  else if off < 0x8000 then s.writeDev (off / 8) v
  else if off < 0x8040 then s.writeGarnet ((off - 0x8000) / 8) v
  else if 0x10000 ≤ off ∧ off < 0x18000 then
    let p : Fin 8 := .ofNat 8 ((off - 0x10000) / 0x1000)
    if (s.partReg p (off % 0x1000 / 8)).isSome then s.writePart p rank (off % 0x1000 / 8) v else .done s
  else if off = 0x20000 then .done { s with dev := { s.dev with haflog := v7 s.dev.haflog } }
  else if off = 0x20008 then .done { s with dev := { s.dev with hmlog := v7 s.dev.hmlog } }
  else if off = 0x20010 then s.writePginvh w
  else if off = 0x20020 then .done { s with dev := { s.dev with cfglog := v7 s.dev.cfglog } }
  else if off = 0x20050 then .done (s.fabricAction w)
  else if 0x100000 ≤ off ∧ off < 0x180000 then
    let c := (off - 0x100000) / 0x1000
    .done (if off % 0x1000 = 0x10 ∧ w = 1 then s.setPortAt c (s.portAt c).removeRecord else s)
  else if 0x200000 ≤ off ∧ off < 0x200800 then
    let p : Fin 8 := .ofNat 8 ((off - 0x200000) / 0x100)
    .done (if off % 0x100 = 0x10 ∧ w = 1 then s.setMonarch p (s.monarch p).removeRecord else s)
  else if 0x300000 ≤ off ∧ off < 0x308000 then s.writeQueue (.ofNat 8 ((off - 0x300000) / 0x1000)) (off % 0x1000) v w
  else if 0x410000 ≤ off ∧ off < 0x410048 then s.writeAttest (off - 0x410000) be w
  else if 0x420000 ≤ off ∧ off < 0x4201B8 then s.writeKey (off - 0x420000) be w
  else if 0x500000 ≤ off ∧ off < 0x500800 then .done (s.writeConn (off - 0x500000) be w)
  else if off = 0x500800 then .done (if w.getLsbD 0 then s.commitConn else s)
  else if 0x600000 ≤ off ∧ off < 0x600000 + 4 * 6144 then
    let j := (off - 0x600000) / 4
    let low := be.toNat % 16 != 0
    let high := be.toNat / 16 != 0
    match (if low then s.writeReach j (v.setWidth 32) else .done s) with
    | .done t => if high then t.writeReach (j + 1) (v.extractLsb' 32 32) else .done t
    | .ignored t y => if high then (match t.writeReach (j + 1) (v.extractLsb' 32 32) with
        | .done u | .ignored u _ => .ignored u y
        | r => r) else .ignored t y
    | r => r
  else if 0x1000000 ≤ off ∧ off < 0x1040000 then s.writePort ((off - 0x1000000) / 0x1000) (off % 0x1000) v w
  else .done s

/-- A register's levels of R376; none for one to which no rule gives a level. -/
def State.w4Level (s : State) (off : Nat) : Option (Nat × Option Nat) :=
  if off < 0x8000 then (s.devReg (off / 8)).bind fun _ => regLevel (off / 8)
  else if off < 0x8040 then regLevel 0x041
  else if 0x10000 ≤ off ∧ off < 0x18000 then
    (s.partReg 0 (off % 0x1000 / 8)).bind fun _ => regLevel (off % 0x1000 / 8)
  else none

/-- The byte enables of n bytes from an offset that fall into register b. -/
def lanesOf (off n b : Nat) : Byte :=
  .ofNat 8 (((List.range 8).filter fun k => decide (off ≤ b + k) && decide (b + k < off + n)).map (2 ^ ·)).sum

/-- The registers that n bytes from an offset touch, ascending. -/
def regsOf (off n : Nat) : List Nat := (List.range ((off % 8 + n + 7) / 8)).map fun k => off / 8 * 8 + 8 * k

/-- A thread's read of W4 (R138, R376, R394). -/
def State.w4Load (s : State) (priv : Nat) (va : Word) (n : Nat) : Reply :=
  let off := localAddr va % 2 ^ 32
  if (regsOf off n).any fun r => (s.w4Level r).any fun l => decide (priv < l.1) then .fail Cause.priv.code va
  else .ok (.ofNat 512 (s.w4Read off n))

/-- The registers of a thread's write in turn: a refused one ends it with ILLEGAL-OP, an ignored one is recorded (R396). -/
def storeRegs (rank off n x : Nat) (va : Word) : List Nat → State → State × Reply
  | [], s => (s, .ok 0)
  | b :: r, s =>
    let v : Word := .ofNat 64 (x * 2 ^ (8 * off) / 2 ^ (8 * b))
    match s.w4Put rank b (lanesOf off n b) v with
    | .done t => storeRegs rank off n x va r t
    | .ignored t y => storeRegs rank off n x va r (t.noteCfg (max off b) y)
    | .bad | .refused => (s, .fail Cause.illegalOp.code va)

/-- A thread's write of W4 (R138, R376, R394). -/
def State.w4Store (s : State) (rank priv : Nat) (va : Word) (n : Nat) (x : Vec) : State × Reply :=
  let off := localAddr va % 2 ^ 32
  let regs := regsOf off n
  if regs.any fun r => (s.w4Level r).any fun l => l.2.any fun w => decide (priv < w) then (s, .fail Cause.priv.code va)
  else storeRegs rank off n (x.toNat % 2 ^ (8 * n)) va regs s

/-- A host write through BAR0, at device privilege (R394, R396). -/
def State.hostWrite (s : State) (off : Nat) (be : Byte) (v : Word) : State :=
  let b := off / 8 * 8
  if be = 0 then s
  else
    let at_ := b + ((List.range 8).find? be.getLsbD).getD 0
    match s.w4Put 2048 b be v with
    | .done t => t
    | .ignored t y => t.noteCfg at_ y
    | .bad => s.noteCfg at_ 1
    | .refused => s.noteCfg at_ 3

/-- REGISTER_WRITE (R394, R396). -/
def execRegisterWrite (off : BitVec 32) (v : Word) (be : Byte) (s : State) : Host.Outcome State Fault Refusal :=
  .next (s.hostWrite off.toNat be v)

/-- KICK (R401, R402): a 32-bit write. -/
def execKick (p : Fin 8) (tail : Half) (s : State) : Host.Outcome State Fault Refusal :=
  .next (s.hostWrite (0x300010 + 0x1000 * p.val) 0x0F (tail.setWidth 64))

/-- CQR_WRITE (R403). -/
def execCqrWrite (p : Fin 8) (v : Half) (s : State) : Host.Outcome State Fault Refusal :=
  .next (s.hostWrite (0x300038 + 0x1000 * p.val) 0x0F (v.setWidth 64))

/-- PGINVH (R379, R394). -/
def execPginvh (v : Word) (s : State) : Host.Outcome State Fault Refusal := .next (s.hostWrite 0x20010 0xFF v)

/-- FAULT_RECORD_REMOVE (R395). -/
def execFaultRecordRemove (c : Nat) (v : Word) (s : State) : Host.Outcome State Fault Refusal :=
  .next (if c < 128 then s.hostWrite (0x100010 + 0x1000 * c) 0xFF v else s)

/-- MONARCH_RECORD_REMOVE (R395). -/
def execMonarchRecordRemove (p : Fin 8) (v : Word) (s : State) : Host.Outcome State Fault Refusal :=
  .next (s.hostWrite (0x200010 + 0x100 * p.val) 0xFF v)

/-- FABRIC_FAULT_RETRY (R418). -/
def execFabricFaultRetry (s : State) : Host.Outcome State Fault Refusal := .next (s.hostWrite 0x20050 0xFF 1)

/-- FABRIC_FAULT_ABANDON (R418). -/
def execFabricFaultAbandon (s : State) : Host.Outcome State Fault Refusal := .next (s.hostWrite 0x20050 0xFF 2)

/-- CONNECTION_COMMIT (R424). -/
def execConnectionCommit (v : Word) (s : State) : Host.Outcome State Fault Refusal := .next (s.hostWrite 0x500800 0xFF v)

/-- RESUME_REQUEST (R388): a write of STOPCNT. -/
def execResumeRequest (p : Fin 8) (v : Word) (s : State) : Host.Outcome State Fault Refusal :=
  .next (s.hostWrite (0x10210 + 0x1000 * p.val) 0xFF v)

/-- FPCNT_ADD (R144): a write of FPCNT. -/
def execFpcntAdd (p : Fin 8) (v : Word) (s : State) : Host.Outcome State Fault Refusal :=
  .next (s.hostWrite (0x10178 + 0x1000 * p.val) 0xFF v)

/-- PARTITION_CREATE (R382): a write of PDEFn that sets V. -/
def execPartitionCreate (n : Fin 8) (v : Word) (s : State) : Host.Outcome State Fault Refusal :=
  .next (s.hostWrite (0x240 + 8 * n.val) 0xFF (v ||| 0x8000000000000000))

/-- PARTITION_DISSOLVE (R382): a write of PDEFn that clears V. -/
def execPartitionDissolve (n : Fin 8) (v : Word) (s : State) : Host.Outcome State Fault Refusal :=
  .next (s.hostWrite (0x240 + 8 * n.val) 0xFF (v &&& 0x7FFFFFFFFFFFFFFF))

/-! ## Keys, attestation and boot (R405 to R407, R419) -/

/-- KEY_LOAD (R419): a write of KGO. -/
def execKeyLoad (v : Word) (s : State) : Host.Outcome State Fault Refusal := .next (s.hostWrite 0x420008 0xFF v)

/-- KEY_LOAD_DONE (R419). -/
def execKeyLoadDone (s : State) : Host.Outcome State Fault Refusal :=
  if s.dev.kstat = 1 then
    let m := s.dev.keyBlock
    let p : Fin 8 := .ofNat 8 (m.read 0 1)
    match Config.unwrapKey (.ofNat 48 (m.read 2 6)) (.ofNat 1064 (m.read 0x100 133)) (.ofNat 320 (m.read 0x190 40)) with
    | some k =>
      .next (({ s with dev := { s.dev with kstat := 2 } }.setPartAt p { s.partAt p with key := some k }).signal 6)
    | none => .next ({ s with dev := { s.dev with kstat := 3 } }.signal 6)
  else .next s

/-- ATTEST_REQUEST (R407): a write of the request register. -/
def execAttestRequest (v : Word) (s : State) : Host.Outcome State Fault Refusal := .next (s.hostWrite 0x410040 0xFF v)

/-- The 264 bytes that a report's signature covers (R407). -/
def State.reportBody (s : State) : Nat :=
  let pdefs := s.dev.pdef.toList.foldr (fun w a => w.toNat + 2 ^ 64 * a) 0
  s.dev.nonce.read 0 64 + 2 ^ 512 * (Config.recordDigest s.dev.record).toNat + 2 ^ 1024 * Config.firmwareDigest.toNat
    + 2 ^ 1536 * (s.refcnt % 2 ^ 64) + 2 ^ 1600 * pdefs

/-- ATTEST_REPORT_READY (R407). -/
def execAttestReportReady (s : State) : Host.Outcome State Fault Refusal :=
  if s.dev.attesting then
    let b := s.reportBody
    let sig := (Config.reportSignature (.ofNat 2112 b)).toNat
    .next ({ s with dev := { s.dev with
      attesting := false, report := Mem.write (Mem.write s.dev.report 0 264 b) 264 132 sig } }.signal 0)
  else .next s

/-- COLD_RESET (R2, R3, R405, R406): the machine right after reset, with the record's dies enabled once its checks have passed.
BOOTST holds the last step passed, and what failed. -/
def execColdReset (recordOk firmwareOk trained : Bool) (s : State) : Host.Outcome State Fault Refusal :=
  let r := State.reset
  let boot := fun (dies : Byte) (step err : BitVec 4) =>
    Host.Outcome.next ({ r with choices := s.choices, dev := { r.dev with
      record := s.dev.record, dies := dies, boot := step, bootErr := err } }.signal 0)
  if recordOk = false then boot r.dev.dies 0 1
  else if firmwareOk = false then boot r.dev.dies 1 2
  else if trained = false then boot s.dev.record 3 3
  else boot s.dev.record 4 0

/-! ## Host accesses to memory (R158, R397 to R400) -/

/-- The address of a host offset (R398). -/
def hdmAddr (off : Nat) : Word :=
  if off < 2 ^ 32 then .ofNat 64 (0x1FFF0002 * 2 ^ 32 + off) else .ofNat 64 (0x1FFF0100 * 2 ^ 32 + (off - 2 ^ 32))

/-- A refused host access (R399): the layout of HAFLOG, with bit 8 set for a write. -/
def State.refuseMem (s : State) (p : Fin 8) (va : Word) (w : Bool) : State :=
  { s with dev := { s.dev with
    hmlog := .ofNat 64 (2 ^ 16 * localAddr va + 2 ^ 13 * p.val + 2 ^ 8 * w.toNat + 0x80) } }.signal 4

/-- The bytes that a mask enables. -/
def enabled (be : BitVec 64) : List Nat := (List.range 64).filter be.getLsbD

/-- The segment and the place of a host access to one line (R398), when nothing refuses it. -/
def State.hostPlace (s : State) (p : Fin 8) (off : Nat) (be : BitVec 64) (w : Bool) : Option (Seg × Place) :=
  let line := off / 64 * 64
  let va := fun (k : Nat) => hdmAddr (line + k)
  match enabled be with
  | [] => none
  | k :: r =>
    if s.dev.bootErr ≠ 0 ∨ pdefV (s.pdefOf p) = false ∨ 388 * 2 ^ 30 ≤ off then none
    else match s.tableSeg s.deviceCore p (va k) with
      | none => none
      | some g =>
        if !(if w then g.w else g.r) || r.any fun j => !g.holds (va j) then none
        else match s.locate s.deviceCore p (va 0) 64 (if w then 1 else 0) with
          | .ok (.here pl) => if g.i && pl.so then none else some (g, pl)
          | _ => none

/-- HOST_MEM_READ (R158, R398, R399): a line; all ones when it is refused. -/
def execHostMemRead (p : Fin 8) (off : BitVec 64) (s : State) : Host.Outcome State Fault Refusal :=
  let va := hdmAddr (off.toNat / 64 * 64)
  let give := fun (s : State) (x : Nat) => { s with dev := { s.dev with answer := some x } }
  let refuse := give (s.refuseMem p va false) (2 ^ 512 - 1)
  match s.hostPlace p off.toNat (.allOnes 64) false with
  | none => .next refuse
  | some (g, pl) =>
    match (if g.i then s.versionAt p va pl 64 (s.partAt p).now else s.readAt va pl 64) with
    | .ok x => .next (give s x)
    | .error _ => .next refuse

/-- The bytes of a line as a mask of the bytes of a value. -/
def State.nowMasked (s : State) (p : Fin 8) (phys : Nat) (be : BitVec 64) (x : Vec) : State :=
  ({ s with mem := s.mem.writeMasked phys 64 be.toNat x.toNat }).tell p (phys / 64) none none

/-- HOST_MEM_WRITE (R158, R393, R398, R399): the enabled bytes of a line, as a Now-domain write, or as a store with V = NOW + 1
that loses every tie and never misses; one that a full pending-store buffer cannot take, or to a line that fails its check (R4), is
refused. One that enables no byte
changes nothing, and is refused as the others where every access is. -/
def execHostMemWrite (p : Fin 8) (off be : BitVec 64) (data : Vec) (s : State) : Host.Outcome State Fault Refusal :=
  let va := hdmAddr (off.toNat / 64 * 64)
  let refuse := s.refuseMem p va true
  let log := fun (s : State) (i : Instant) => s.log p 2 i va be data.toNat
  if be = 0 then .next (if s.dev.bootErr ≠ 0 ∨ pdefV (s.pdefOf p) = false then refuse else s)
  else match s.hostPlace p off.toNat be true with
    | none => .next refuse
    | some (g, pl) =>
      let now := (s.partAt p).now
      if s.badAt pl.phys then .next refuse
      else if g.i then
        let st : Store := {
          va := va, pl := pl, n := 64, x := data, mask := be, v := now + 1, ord := 0, slip := false }
        match (s.portAt (pl.home / 16)).take p st (now + 1) true with
        | some q => .next (log (s.setPortAt (pl.home / 16) q) (now + 1))
        | none => .next refuse
      else .next (log (s.nowMasked p pl.phys be data) now)

/-- A host atomic's place (R214), when nothing refuses it: W4 has none (log entry 105). -/
def State.atomicPlace (s : State) (p : Fin 8) (va : Word) (n : Nat) : Option Place :=
  if s.dev.bootErr ≠ 0 ∨ pdefV (s.pdefOf p) = false ∨ va.toNat % n ≠ 0 then none
  else match s.tableSeg s.deviceCore p va with
    | none => none
    | some g =>
      if !g.h || decide (g.base.toNat + g.limit.toNat < va.toNat + n) then none
      else match s.locate s.deviceCore p va n 1 with
        | .ok (.here pl) => if s.badAt pl.phys then none else some pl
        | _ => none

/-- HOST_ATOMIC (R214, R215, R393, R400): one read-modify-write at the home, which gives the old value; every other atomic is
completed as Unsupported Request and recorded in HAFLOG. -/
def execHostAtomic (off : BitVec 64) (op : HostAOp) (z : DSize) (y cmp : Word) (s : State) :
    Host.Outcome State Fault Refusal :=
  let p : Fin 8 := .ofNat 8 (off.toNat / 2 ^ 48)
  let va : Word := ownAddr (off.setWidth 48)
  let n := dsizeBytes z
  let refuse := { s with dev := { s.dev with
    answer := none, haflog := .ofNat 64 (2 ^ 16 * localAddr va + 2 ^ 13 * p.val + 0x80) } }.signal 4
  let go := fun (o : AOp) =>
    match s.atomicPlace p va n with
    | none => Host.Outcome.next refuse
    | some pl =>
      let old := s.mem.read pl.phys n
      let new := atomicNew o n old (y.toNat % 2 ^ (8 * n)) (cmp.toNat % 2 ^ (8 * n))
      let t := s.nowWrite p pl.phys n new none none
      let t := t.log p 3 (t.partAt p).now va (.ofNat 64 n) (y.toNat + 2 ^ 64 * cmp.toNat)
      .next { t with dev := { t.dev with answer := some old } }
  match op with
  | .fetchAdd => go .add
  | .swap => go .swap
  | .cas => go .cas
  | .cas128 => .next refuse

end Sys2Proof.Machine
end

