-- ==== Sys2Proof/Machine/Requests.lean ====
section
/-! DEFINITION. Requests at their homes and the answers to them (01_machine R15, R16; 07_instant R139, R159; 08_ordering R169), for
this device's threads and for the threads and units of other devices. -/

namespace Sys2Proof.Machine

/-! ## Requests of this device's threads -/

/-- The place of a request at a home. -/
def Req.place : Req → Option Place
  | .read _ pl .. | .version _ pl .. | .write _ pl .. | .cancel _ pl .. | .rsv _ pl .. | .rls _ pl .. | .mon _ pl => some pl
  | .w4read .. | .w4write .. | .ask .. | .handle _ => none

/-- The place of a reply among the replies, invalidations and notices of its line (R170, R205). -/
def Req.plainNote (r : Req) : LineNote :=
  match r.place with
  | some pl => .plain (pl.phys / 64)
  | none => .none

/-- What a request's reply does to the buffer of the router that it passes (R169, log entry 10), where it keeps its place among
the line's replies and invalidations (R170). A home of the router's own cluster fills nothing. -/
def State.noteOf (s : State) (slot : Nat) (r : Req) : LineNote :=
  let outside := fun (pl : Place) => pl.home / 16 != slot / 256
  let line := fun (pl : Place) => BitVec.ofNat 512 (s.mem.read (pl.phys / 64 * 64) 64)
  match r with
  | .read va pl _ .fill => if outside pl then .fill (vline va) (pl.phys / 64) (line pl) else r.plainNote
  | .read va pl _ .replace => if outside pl then .replace (vline va) (pl.phys / 64) (line pl) else r.plainNote
  | .write _ pl .. | .rls _ pl _ _ (some _) => if outside pl then .purge (pl.phys / 64) else r.plainNote
  | r => r.plainNote

/-- A request of a thread of this device is performed at its home. -/
def State.serve (s : State) (p : Fin 8) (n : Nat) (r : Req) : State :=
  let priv := (s.slotAt n).ctx.priv
  match r with
  | .w4read va k => s.answer p n (s.w4Load priv va k)
  | .w4write va k x =>
    let (t, a) := s.w4Store (n / 16) priv va k x
    t.answer p n a
  | .handle sh =>
    let (t, h) := s.newHandle p sh
    t.answer p n (.ok (h.setWidth 512)) (.core (s.firstDie * 256))
  | r =>
    match s.perform p (some n) r with
    | (t, none) => t
    | (t, some a) =>
      let note := match a with
        | .ok _ => t.noteOf n r
        | _ => r.plainNote
      t.answer p n a note

/-! ## Transfers of other devices (R139) -/

/-- A request at another place. -/
def Req.at_ (r : Req) (pl : Place) : Req :=
  match r with
  | .read va _ n m => .read va pl n m
  | .version va _ n i => .version va pl n i
  | .write va _ n x => .write va pl n x
  | .cancel va _ n t => .cancel va pl n t
  | .rsv va _ z k => .rsv va pl z k
  | .rls va _ z k x => .rls va pl z k x
  | .mon va _ => .mon va pl
  | r => r

/-- KIND of a page fault that a request meets (R143). -/
def Req.kind : Req → Nat
  | .version .. => 2
  | .cancel .. => 3
  | .write .. | .rls .. | .w4write .. => 1
  | .ask _ _ k _ => k
  | _ => 0

/-- What a transfer of another device names here: its address, its bytes and the KIND of a page fault. -/
def Body.names : Body → Option (Word × Nat × Nat)
  | .via _ b => b.names
  | .peerRequest _ _ _ r => some (r.addr, r.size, r.kind)
  | .peerCmd _ _ r => some (r.addr, r.size, 6)
  | .storeTo o st => some (st.va, st.n, match o with
    | .peerCmd .. => 6
    | _ => 3)
  | .migrationTo va _ => some (va, 1, 0)
  | .messageTo va _ _ o => some (va, 1, match o with
    | .peerUnit .. => 6
    | _ => 1)
  | _ => none

/-- An answer to what made a transfer. -/
def State.answerTo (s : State) (p : Fin 8) (o : Origin) (r : Reply) : State :=
  match o with
  | .slot n => s.answer p n r
  | .peer d n => s.export d ⟨p, .reply n r .none⟩
  | .peerCmd d k => s.export d ⟨p, .unitReply k r⟩
  | _ => s

/-- A transfer of another device fails a check here; a completion goes back to the device that sent it (R230). -/
def State.turnBack (s : State) (p : Fin 8) (b : Body) (cause : Byte) (v : Word) : State :=
  match b with
  | .peerRequest d n _ _ => s.answerTo p (.peer d n) (.fail cause v)
  | .peerCmd d k _ => s.answerTo p (.peerCmd d k) (.fail cause v)
  | .messageTo va hi m (.peerUnit d c) => s.export d ⟨p, .refused (.messageTo va hi m ((c.map .unit).getD .host))⟩
  | .storeTo o _ | .messageTo _ _ _ o => s.answerTo p o (.fail cause v)
  | .migrationTo _ t => s.send p (.migration s.deviceCore { t with word := some 0, fault := some (cause, v) })
  | _ => s

/-- A request of another device's thread or command, at its place. -/
def State.performFor (s : State) (p : Fin 8) (o : Origin) (r : Req) : State :=
  match s.perform p none r with
  | (t, some a) => t.answerTo p o a
  | (t, none) => t

/-- A transfer of another device at the place that it names. -/
def State.serveAt (s : State) (p : Fin 8) (b : Body) (pl : Place) : State :=
  match b with
  | .peerRequest d n _ (.ask ..) => s.answerTo p (.peer d n) (.ok (if pl.so then 1 else 0))
  | .peerRequest d n _ r => s.performFor p (.peer d n) (r.at_ pl)
  | .peerCmd d k r => s.performFor p (.peerCmd d k) (r.at_ pl)
  | .storeTo o st => s.arrive p o { st with pl := pl }
  | .migrationTo _ t => s.send p (.migration pl.home t)
  | .messageTo va hi m o => s.send p (.message va pl.home hi m o)
  | _ => s

/-- An access of another device to W4 (R138): a thread's load or store; nothing else has a form for it. -/
def State.serveReg (s : State) (p : Fin 8) (b : Body) (va : Word) : State :=
  match b with
  | .peerRequest d n priv (.w4read _ k) | .peerRequest d n priv (.read _ _ k _) =>
    s.answerTo p (.peer d n) (s.w4Load priv va k)
  | .peerRequest d n priv (.w4write _ k x) | .peerRequest d n priv (.write _ _ k x) =>
    let (t, a) := s.w4Store (slotKey n / 16) priv va k x
    t.answerTo p (.peer d n) a
  | .peerRequest _ _ _ (.version ..) | .peerRequest _ _ _ (.ask _ _ _ true) | .storeTo .. =>
    s.turnBack p b Cause.segRights.code va
  | _ => s.turnBack p b Cause.segBound.code va

/-- The access is in the Instant domain. -/
def Body.instant : Body → Bool
  | .peerRequest _ _ _ (.version ..) | .peerCmd _ _ (.version ..) | .peerRequest _ _ _ (.cancel ..)
  | .peerRequest _ _ _ (.ask _ _ _ true) | .storeTo .. => true
  | _ => false

/-- A transfer that must stay in flight: a read of an instant that has not come, or one whose page fault the port refuses
(R74, R142). -/
def State.defers (s : State) (cluster : Nat) (p : Fin 8) (b : Body) : Bool :=
  let early := match b with
    | .peerRequest _ _ _ (.version _ _ _ i) | .peerCmd _ _ (.version _ _ _ i) =>
      decide ((s.partAt p).now.toNat < i.toNat)
    | _ => false
  early || (match b.names with
    | none => false
    | some (va, n, kind) =>
      match s.locate s.deviceCore p va n kind with
      | .error (.page a k) => (s.addFault cluster p a k (.unit s.stamp)).isNone
      | _ => false)

/-- A transfer of another device is translated at the port of the cluster whose router took it (R139): one that meets a page
fault waits there. A W0 address names the store of core 0 of cluster 0 on the lowest enabled die (log entry 103). -/
def State.serveFor (s : State) (cluster : Nat) (p : Fin 8) (b : Body) : State :=
  match b.names with
  | none => s
  | some (va, n, kind) =>
    match s.locate s.deviceCore p va n kind with
    | .ok (.here pl) =>
      if pl.so && b.instant then s.turnBack p b Cause.segRights.code va else s.serveAt p b pl
    | .ok (.reg va) => s.serveReg p b va
    | .ok (.away _) => s.turnBack p b Cause.fabricUnreachable.code va
    | .error (.trap c v) => s.turnBack p b c v
    | .error (.page a k) =>
      match s.addFault cluster p a k (.unit s.stamp) with
      | some t =>
        let t := t.bump
        { t with dev := { t.dev with held := t.dev.held ++ [(s.stamp, ⟨p, .via cluster b⟩)] } }
      | none => s

/-- REMOTE_REQUEST (R15, R139). -/
def execRemoteRequest (k : Nat) (s : State) : Host.Outcome State Fault Refusal :=
  match s.takePacket k with
  | some (⟨p, .request n r⟩, t) => .next (t.serve p n r)
  | some (⟨p, .via c b⟩, t) => .next (if b.names.isNone || s.defers c p b then s else t.serveFor c p b)
  | some (⟨p, b⟩, t) =>
    let c := s.deviceCore / 16
    .next (if b.names.isNone || s.defers c p b then s else t.serveFor c p b)
  | none => .next s

/-! ## Replies (R159) -/

/-- A reply passes the router of the slot that it is for (R169, R170). -/
def State.noteLine (s : State) (router : Nat) (p : Fin 8) (note : LineNote) : State :=
  let q := s.portAt router
  match note with
  | .none | .plain _ | .core _ => s
  | .fill v line data =>
    let l := (q.remote.filter fun e => !(e.part == p && e.vline == v)) ++ [⟨p, v, line, data⟩]
    s.setPortAt router { q with remote := l.drop (l.length - 256) }
  | .replace _ line data =>
    s.setPortAt router { q with remote := q.remote.map fun e =>
      if e.part = p ∧ e.line = line then { e with data := data } else e }
  | .purge line => s.dropLine router line

/-- TVAL of ILLEGAL-OP is the word that raised it (R372), which a register's unit does not know; that of a PRIV raised there is
the address (R394). -/
def Reply.named (r : Reply) (word : Option Nat) : Reply :=
  match r with
  | .fail c v => .fail c (if c = Cause.illegalOp.code then .ofNat 64 (word.getD 0) else v)
  | r => r

/-- A reply ends a slot's wait: its instruction's effect, or the next of its provisional entries. -/
def State.takeReply (s : State) (n : Nat) (r : Reply) : State :=
  let x := s.slotAt n
  match x.run with
  | .waiting .reply =>
    match x.prog.fin with
    | none => s
    | some f =>
      let t := { s.resumeSlot n with cur := n }
      { settle t (finish f (r.named x.prog.word) t) with cur := s.cur }
  | .waiting (.opening _) =>
    match r with
    | .fail c v =>
      let t := { s.resumeSlot n with cur := n }
      { t.trap c v with cur := s.cur }
    | _ => s
  | .waiting .sending =>
    let t := match r with
      | .fail c v => s.noteLost n c v
      | .slipped => s.setSlotAt n { x with ctx := x.ctx.setSlip true }
      | .ok _ => s
    t.sendNext n (t.provOf n).length.succ
  | _ => s

/-- How a piece made at another device has landed. -/
def Reply.landing : Reply → Landing
  | .ok _ => .accepted false
  | .slipped => .accepted true
  | .fail .. => .missed

/-- An answer to a tile list or an engine command: the line that it read, or a piece that has landed (R279, R302). -/
def State.takeUnit (s : State) (k : Nat) (r : Reply) : State :=
  let dead := match r with
    | .fail c _ => c != Cause.instantMiss.code
    | _ => false
  let cause := match r with
    | .fail c v => (c, v)
    | _ => (0, 0)
  match s.listCore k with
  | some core =>
    match (s.arrayAt core).run with
    | none => s
    | some x =>
      match x.awaits, r with
      | some a, .ok v => s.setRun core { x with awaits := none, lines := x.lines ++ [(a, v)] }
      | some _, _ => s.failList core x cause.1 cause.2
      | none, _ => if dead then s.failList core x cause.1 cause.2 else s.landPiece k r.landing cause.2 0
  | none =>
    match s.commands.find? fun c => c.stamp == k with
    | none => s
    | some c =>
      match c.flight with
      | none => s
      | some (va, n, w) =>
        if w = false then s.putCmd { c with flight := none, got := some (va, r) }
        else if dead then s.failUnit k cause.1 va true
        else (s.putCmd { c with flight := none }).landPiece k r.landing va n

/-- A reply may be taken now: a thread that has been stopped takes it after its resume (R201, R389). -/
def State.takesReply (n : Nat) : Bool := decide (n % 2 ^ 22 < 2 ^ 20)

/-- REPLY_ARRIVAL (R118, R159, R219): a reply is always taken by what waits for it; one to a thread that has ended is dropped. -/
def execReplyArrival (k : Nat) (s : State) : Host.Outcome State Fault Refusal :=
  match s.takePacket k with
  | some (⟨p, .reply n r note⟩, t) =>
    if State.takesReply n = false then .next s
    else if 2 ^ 22 ≤ n ∧ n ≠ t.peerKey (slotKey n) then .next t
    else .next ((t.noteLine (slotKey n / 256) p note).takeReply (slotKey n) r)
  | some (⟨_, .unitReply j r⟩, t) => .next (t.takeUnit j r)
  | _ => .next s

end Sys2Proof.Machine
end

