-- ==== Sys2Proof/Machine/Issue.lean ====
section
/-! DEFINITION. What may happen next: packets that may arrive (08_ordering R170; 10_thread R219), the slot whose turn it is
(01_machine R18; 10_thread R217), and the fetch and decoding of its word (03_formats R54, R56, R69). -/

namespace Sys2Proof.Machine

/-! ## Packets -/

/-- The arrival of the k-th packet in flight. -/
def Body.event (k : Nat) : Body → Option Instr
  | .migration .. => some (.migrationArrival k)
  | .request .. | .peerRequest .. | .peerCmd .. | .storeTo .. | .migrationTo .. | .messageTo .. | .via .. =>
    some (.remoteRequest k)
  | .reply .. | .unitReply .. => some (.replyArrival k)
  | .store .. => some (.storeArrival k)
  | .message .. => some (.messageDelivery k)
  | .inval .. => some (.invalidation k)
  | .token .. => some (.drainToken k)
  | .notice .. => some (.monitorNotice k)
  | .barReg .. => some (.barrierRegistration k)
  | .barArr .. => some (.barrierArrival k)
  | .barDone .. => some (.barrierCompletion k)
  | .wake _ => some (.wakeMessage k)
  | .kill _ => some (.killMessage k)
  | .release _ => some (.thiefRelease k)
  | .abandon .. => some (.abandonPacket k)
  | .ecnt .. => some (.ecntUpdate k)
  | .stopReq .. => some (.stopatRequest k)
  | .flush _ => some (.flushToken k)
  | .unitRequest .. | .collPart _ | .part _ | .stopcnt _ | .refused _ => none

/-- A packet stands behind one that is held with a fabric fault record (R170, R418). -/
def State.behindHeld (s : State) (b : Body) : Bool := s.dev.fabric.any fun f => f.pkg && b.after f.packet.body

/-- What a packet goes to can take it now. -/
def State.accepts (s : State) (p : Fin 8) (b : Body) : Bool :=
  match b with
  | .migration core _ => s.running p && ((s.freeSlot core p).isSome || s.arrivalRoom core p)
  | .message .. => s.running p || ((s.partAt p).stopping && !(s.partAt p).flushed)
  | .reply n .. => State.takesReply n
  | .kill n => decide (n < 2 ^ 20) && ((s.slotAt n).bind.isNone || !(s.slotAt n).run.busy)
  | .release n => decide (n < 2 ^ 20)
  | .via c b => !s.defers c p b
  | b => !s.defers (s.deviceCore / 16) p b

/-- The arrivals that may be next: by default the oldest packet is. -/
def State.arrivals (s : State) : List Instr :=
  (s.net.zipIdx.filterMap fun qk =>
    if (s.net.take qk.2).any (fun a => qk.1.body.after a.body) || s.behindHeld qk.1.body || s.blocked qk.1.body
        || !s.accepts qk.1.part qk.1.body then none
    else qk.1.body.event qk.2)

/-! ## Turns (R18, R217) -/

/-- A slot that may take a turn: it holds a thread that does not wait, has not issued in the previous three cycles, is not
held by a STEAL (R346), and is of a partition that runs; a stop lets words in progress end (R389). -/
def State.issuable (s : State) (n : Nat) : Bool :=
  let x := s.slotAt n
  x.run == .runnable && decide (x.ready ≤ s.cycles (n / 256))
    && (s.running x.part || ((s.partAt x.part).stopping && (x.prog.word.isSome || s.midSend n))) && !s.heldByTheft n

/-- The slot that takes a core's turn of this cycle: the turn's own, else the next of its partition. -/
def State.turnOf (s : State) (core : Nat) : Option Nat :=
  let m := s.cycles (core / 16) % 16
  if s.issuable (core * 16 + m) then some (core * 16 + m)
  else match (List.finRange 8).find? fun p =>
      pdefV (s.pdefOf p) && (pdefDies (s.pdefOf p)).getLsbD (core / 256) && (pdefSlots (s.pdefOf p)).getLsbD m with
    | none => none
    | some p =>
      (((List.range 15).map fun k => (m + 1 + k) % 16).filter fun i => (pdefSlots (s.pdefOf p)).getLsbD i).map
        (core * 16 + ·) |>.find? s.issuable

/-- A core has a register window that an idle turn may spill (R18, R121). -/
def State.spills (s : State) (core : Nat) : Bool :=
  s.slots.any fun e => decide (e.1 / 16 = core) && decide (3 ≤ e.2.windows.length)

/-- The cores that hold slots, from a core on, ascending, with the regions that are suspended for this period left out. -/
def State.coresFrom (s : State) (core : Nat) : List Nat :=
  ((s.slots.map (·.1 / 16)).filter fun c => decide (core ≤ c) && !(s.portAt (c / 16)).suspended).eraseDups

/-- The next core of this cycle with something to do, and the slot that issues; none for an idle turn that spills. -/
def State.nextTurn (s : State) : Option (Nat × Option Nat) :=
  (s.coresFrom s.turn).findSome? fun c =>
    match s.turnOf c with
    | some n => some (c, some n)
    | none => if s.spills c then some (c, none) else none

/-! ## Fetch and decode (R54, R56, R69) -/

/-- What a slot's turn does. -/
inductive Turn
  | done (s : State)
  | run (i : Instr) (s : State)

/-- A word is decoded and run, or raises ILLEGAL-OP (R56). -/
def State.runWord (s : State) (w : Nat) : Turn :=
  match decode w with
  | some i => .run i s
  | none => .done (settle s (.stop (.of .illegalOp (.ofNat 64 w))))

/-- Keeps a fetched line of code: the last four are fetched ahead (R69, R175). -/
def Slot.keepLine (x : Slot) (va : Word) (v : Vec) : Slot :=
  { x with ahead := (va, v) :: (x.ahead.filter fun e => e.1 != va).take 3 }

/-- The word at the PC and the state after its fetch (R69): the memory's, or the one that was fetched ahead, where they
differ. -/
def State.fetchedWord (s : State) (fresh : Nat) (line : Vec) : Nat × State :=
  let pc := s.ctx.pc
  let at_ := vline pc
  let keep := s.setSlot (s.slot.keepLine at_ line)
  match s.slot.ahead.find? fun e => e.1 == at_ with
  | none => (fresh, keep)
  | some e =>
    let old := e.2.toNat / 2 ^ (8 * (pc.toNat % 64)) % 2 ^ 32
    if old = fresh then (fresh, keep)
    else
      let (k, t) := s.pick 2
      if k = 1 then (old, t) else (fresh, t.setSlot (t.slot.keepLine at_ line))

/-- The fetch of the word at the PC by the thread that acts: by request where the code is not this device's memory. -/
def State.fetchRun (s : State) : Turn :=
  let pc := s.ctx.pc
  let wait := fun (s : State) =>
    s.setSlot { s.slot with run := .waiting .reply, prog := { s.slot.prog with fin := some .fetch } }
  match s.fetchAt with
  | .error e => .done (settle s (.stop e))
  | .ok (.here pl) =>
    match s.readAt pc pl 4 with
    | .error e => .done (settle s (.stop e))
    | .ok w =>
      let (w, t) := s.fetchedWord w (.ofNat 512 (s.mem.read (pl.phys / 64 * 64) 64))
      t.runWord w
  | .ok (.reg va) => .done (wait (s.send s.slot.part (.request s.cur (.w4read va 4))))
  | .ok (.away d) =>
    .done (wait (s.export d ⟨s.slot.part, .peerRequest s.ownIdx (s.peerKey s.cur) s.ctx.priv (.read pc ⟨0, 0, false⟩ 4 .plain)⟩))

/-- The slot that acts takes a turn: it has issued, and may not in the next three cycles (R18). Segments still to be loaded,
a transfer that came back and provisional entries left come first; then the word in progress, or the word at the PC. -/
def State.takeTurn (s : State) : Turn :=
  let x := s.slot
  let s := s.setSlot { x with ready := s.cycles s.cluster + 4 }
  if x.unloaded then .done (s.fillSegs s.cur)
  else match x.prog.fault with
    | some (c, v) => .done ((s.setSlot { s.slot with prog := {} }).trap c v)
    | none =>
      match s.boundarySend with
      | some t => .done t
      | none =>
        match x.prog.word with
        | some w => s.runWord w
        | none =>
          match x.prog.fetched with
          | some w => (s.setSlot { s.slot with prog := { s.slot.prog with fetched := none } }).runWord w
          | none => s.fetchRun

end Sys2Proof.Machine
end

