-- ==== Sys2Proof/Machine/Clock.lean ====
section
/-! DEFINITION. The clock (17_system R390, R391): a cycle passes, and the events that have come due are put on the agenda, steps of
the counters first (R151). -/

namespace Sys2Proof.Machine

/-- Waits of a slot that have ended by time (R142, R198, R207, R236). -/
def State.slotDue (s : State) (e : Nat × Slot) : List Instr :=
  match e.2.run with
  | .waiting (.yield c) => if c ≤ s.cycles (e.1 / 256) then [.yieldExpiry e.1] else []
  | .waiting (.sleep t) => if t ≤ s.refcnt then [.sleepExpiry e.1] else []
  | .waiting (.resend t) => if t ≤ s.refcnt then [.rsvResend e.1] else []
  | .waiting (.monitor (some t)) => if t ≤ s.refcnt then [.mwaitTimeout e.1] else []
  | .dropped (some t) => if t ≤ s.refcnt then [.pageFaultReissue e.1] else []
  | _ => []

/-- What a core's units do: divisions that end (R99), messages retried (R223), and handlers that start (R222). -/
def State.coreDue (s : State) (e : Nat × CoreUnit) : List Instr :=
  let u := e.2
  ((u.divider.filter fun d => decide (d.ends ≤ s.cycles (e.1 / 16))).map fun _ => .dividerDone e.1)
    ++ (if u.retry.any fun m => decide (m.2.2 ≤ s.refcnt) then [.messageRetry e.1] else [])
    ++ ((List.finRange 8).filter fun p => (nextHandler p u.high).isSome || (nextHandler p u.low).isSome).map
      (.handlerStart e.1 ·)

/-- The first crew of a launch that may start now (R227, R290). -/
def State.nextCrew (s : State) (p : Fin 8) (l : Launch) : Option Nat :=
  if descRes l.desc then (if s.residentReady p l then some 0 else none)
  else (List.range (descCrews l.desc)).find? fun c =>
    s.crewReady p l c && !(s.holdsBack l c && l.waits.any fun w => w.1 == c)

/-- The events of the cluster control cores: launches taken, and crews started, the heavy ones of a die whose pool is low after
the others (R290). -/
def State.controlDue (s : State) : List Instr :=
  let crews := s.defined.flatMap fun p => (s.partAt p).launches.filterMap fun l =>
    (s.nextCrew p l).map fun c => (s.behindLight l c, Instr.crewStart p l.id c)
  (s.defined.filter fun p => !(s.partAt p).queue.isEmpty || !(s.partAt p).hostQueue.isEmpty).map .launchTake
    ++ (crews.filter (!·.1)).map (·.2) ++ (crews.filter (·.1)).map (·.2)

/-- The tile commands that may go on, each with the slot whose TRUN runs its list. -/
def State.tileDue (s : State) : List (Nat × Instr) :=
  s.arrays.filterMap fun e => match e.2.run with
    | some x => if s.listReady e.1 x then (x.cmds[x.idx]?).map fun i => (x.slot, i) else none
    | none => none

/-- The commands at the heads of the engines' queues. -/
def State.engineDue (s : State) : List Instr :=
  (s.copiers.filterMap fun e => e.2.head?.map fun c =>
      if c.eng = 0 then .cpyExecute e.1 else if c.eng = 1 then .cpyrExecute e.1 else .fillExecute e.1)
    ++ (s.collectors.filterMap fun e => e.2.head?.map fun _ => .collExecute e.1)
    ++ (s.sphinxes.filterMap fun e => e.2.queue.head?.map fun _ => .maskWalk e.1)
    ++ (List.range s.copies.length).map .rcopyExecute
    ++ (if s.merges.isEmpty then [] else [.rmergeExecute 0])

/-- A port's events (R411 to R416): flits that may leave, commands, lanes that are ready, and with each tick heater service
and the policies of PRKH = 0. -/
def State.portDue (s : State) (tick : Bool) (p : Fin 64) : List Instr :=
  let q := s.optic p.val
  let begun := q.queue.any fun c => c.begun == some s.refcnt
  ((s.reached p.val).filterMap fun e =>
      if decide (0 < s.depth p.val e.1 e.2) && !(q.stripe e.2).isEmpty then some (.flitTransmit p e.1) else none)
    ++ (match q.next with
      | some (.tune ..) => [.portTune p]
      | some (.park _) => [.portPark p]
      | some (.wake _) | some .wakeAll => [.portWake p]
      | none => match s.wanted p.val with
        | some (.tune ..) => [.portTune p]
        | some (.wake _) => [.portWake p]
        | _ => [])
    ++ (if !tick || begun then [] else
      (match q.doing with
        | some (.park _) => [.portPark p]
        | _ => [])
        ++ ((q.which fun l => l.state == .retuning).map (.laneTuneDone p ·))
        ++ (q.which fun l => l.state == .waking).map (.laneWakeDone p ·))
    ++ (if tick then [.laneAutoPark p, .laneAutoWake p] else [])
    ++ (if tick && decide (q.served + q.hsper.toNat ≤ s.refcnt) then [.heaterService p] else [])

/-- Events of the reference tick, in the order in which they act: the clocks, the counters (R151), stops, power, what comes from
outside, and the device's own work. -/
def State.tickDue (s : State) : List Instr :=
  let parts := s.defined
  (if s.dev.freqPv && decide (s.dev.freqAt ≤ s.refcnt) then [.frequencySwitch] else [])
    ++ (parts.filter fun p => s.running p && !qcfgEl (s.partAt p).regs.qcfg && decide ((s.partAt p).due ≤ s.refcnt)).map
      (.quartzStep ·)
    ++ (parts.filter s.elasticReady).map (.elasticStep ·)
    ++ (parts.filter fun p => s.stopState p == 1).map (.partitionStop ·)
    ++ (parts.filter fun p => s.stopState p == 3).map (.partitionResume ·)
    ++ [.powerPoolRefill]
    ++ (s.inputs.filter fun e => decide (e.1 ≤ s.refcnt)).map (·.2)
    ++ (if s.dev.kstat = 1 then [.keyLoadDone] else []) ++ (if s.dev.attesting then [.attestReportReady] else [])

/-- Events of every cycle. -/
def State.cycleDue (s : State) : List Instr :=
  (s.dies.flatMap fun e => ((List.range e.2.tokens.length).filter fun k =>
      match e.2.tokens[k]? with
      | some t => decide (t.hop + 8 ≤ s.cyc)
      | none => false).map (.garnetTokenHop e.1 ·))
    ++ s.slots.flatMap s.slotDue ++ s.cores.flatMap s.coreDue
    ++ (s.ports.filterMap fun e =>
      (e.2.faults.findIdx? fun f => !f.reported && !f.ended).map fun k => .pageFaultResolve e.1 k)
    ++ s.controlDue ++ s.engineDue

/-- The slot whose TRUN has waited longest for its core's array goes on when the array is free (R262, R282). -/
def State.offerArrays (s : State) : State :=
  s.arrays.foldl (fun s e =>
    let q := s.arrayQueue e.1
    let s := s.setArrayAt e.1 { e.2 with queue := q }
    match e.2.run, q with
    | none, n :: _ => if (s.slotAt n).run == .waiting .array then s.resumeSlot n else s
    | _, _ => s) s

/-- Completions whose page fault a port refused are offered to it again (R142, R230). -/
def State.retryCompletions (s : State) : State :=
  let waits := fun (k : Nat) => s.ports.any fun e => e.2.faults.any fun f => !f.ended && f.waiters.contains (.unit k)
  (List.finRange 8).foldl (fun s p =>
    ((s.partAt p).completions.filter fun e => !waits e.stamp).foldl (fun s e =>
      let x := s.partAt p
      (s.setPartAt p { x with completions := x.completions.filter fun f => f.stamp != e.stamp }).complete
        p e.cdst e.src e.core e.host e.m) s) s

/-- The dies' units are all listed, so that their tokens hop. -/
def State.listDies (s : State) : State :=
  ((List.range 8).filter s.dieOn).foldl (fun s d => s.setDieAt d (s.dieAt d)) s

/-- A cycle passes (R390, R391): reference ticks count by the frequency, stores that wait at ports and packets that cannot cross
the package are looked at again, and what has come due is put on the agenda. -/
def State.tick (s : State) : State :=
  let last := 8 - s.dev.freqCur.toNat ≤ s.sub + 1
  let s : State := { s with
    cyc := s.cyc + 1, turn := 0
    sub := if last then 0 else s.sub + 1
    refcnt := if last then s.refcnt + 1 else s.refcnt
    ports := s.ports.map fun e => (e.1, { e.2 with suspended := false }) }
  let s := s.listDies.offerArrays.offerSphinxes.postBlocked.postStranded.retryCompletions
  let s := s.defined.foldl State.goReview s
  let s := s.defined.foldl State.retryRing s
  let s := s.cores.foldl (fun s e => if e.2.arrivals.isEmpty then s else s.offerSlots e.1) s
  let s := s.ports.foldl (fun s e => if e.2.stalled.isEmpty then s else s.retryStalled e.1) s
  let due := (if last then s.tickDue else []) ++ s.cycleDue ++ (List.finRange 64).flatMap (s.portDue last)
  { s with
    inputs := if last then s.inputs.filter fun e => !decide (e.1 ≤ s.refcnt) else s.inputs
    agenda := s.agenda ++ due.map (fun i => (0, i)) ++ s.tileDue }

end Sys2Proof.Machine
end

