-- ==== Sys2Proof/Machine/Control.lean ====
section
/-! DEFINITION. Control flow (06_control, R116 to R133): transfers, calls and returns with their register windows, and
hardware loops. -/

namespace Sys2Proof.Machine

/-- BR (R117). -/
def execBr (g : Guard) (o : BitVec 21) (s : State) : Host.Outcome State Fault Refusal :=
  issue (.br g o) g 0 false (fun s => .jump s (s.ctx.pc + off21 o)) s

/-- JR (R117). -/
def execJr (g : Guard) (a : Reg) (s : State) : Host.Outcome State Fault Refusal :=
  issue (.jr g a) g 0 false (fun s => .jump s (s.g a)) s

/-- JMP (R117). -/
def execJmp (g : Guard) (a : Reg) (i : BitVec 13) (s : State) : Host.Outcome State Fault Refusal :=
  issue (.jmp g a i) g 0 false (fun s => .jump s (s.g a + 4 * imm i)) s

/-- A call to `t` (R122): the current window goes into the cache, after a forced spill when four are there. -/
def callTo (i : Instr) (t : Word) (s : State) : Out :=
  let enter := fun (s : State) =>
    let x := s.slot
    let c := x.ctx
    Out.jump (s.setSlot { x with
      windows := c.window :: x.windows
      ctx := c.setWindow #v[0, 0, 0, 0, 0, 0, c.g[14], c.pc + 4] }) t
  if 4 ≤ s.slot.windows.length then spillThen i enter s else enter s

/-- CALL (R122). -/
def execCall (g : Guard) (o : BitVec 21) (s : State) : Host.Outcome State Fault Refusal :=
  issue (.call g o) g 0 false (fun s => callTo (.call g o) (s.ctx.pc + off21 o) s) s

/-- CALLR (R122): the target is read at issue. -/
def execCallr (g : Guard) (a : Reg) (s : State) : Host.Outcome State Fault Refusal :=
  issue (.callr g a) g 0 false (fun s => callTo (.callr g a) (s.g a) s) s

/-- RET's body (R123): the choice window is not left, lk = 0 ends the task, a cached window is restored, and one that is
not cached is reloaded from WSP (R121), in W0 and W4 with SEG-BOUND (log entry 123). -/
def retBody (i : Instr) (s : State) : Out :=
  let x := s.slot
  let t := s.g 15
  if !x.inh && (match x.points with
      | [] => false
      | q :: _ => x.wf == q.wf) then .stop (.of .choiceEscape t)
  else if t = 0 then exitThread i false s
  else match x.windows with
    | w :: r =>
      .jump (s.setSlot { x with windows := r, ctx := { (x.ctx.setWindow w) with loops := retLoops x.ctx.loops t } }) t
    | [] =>
      let va := x.ctx.wsp
      if winOf (localAddr va) = some .w0 then .stop (.of .segBound va)
      else .bind (s.access va 64 { r := true, n := true }) fun tg =>
        reach i true va tg (.read va · 64 .plain) none .reload s

/-- RET (R123). -/
def execRet (g : Guard) (s : State) : Host.Outcome State Fault Refusal :=
  issue (.ret g) g 0 false (retBody (.ret g)) s

/-- JTAB (R118, R119): the entry is read by request, so the thread never migrates. -/
def execJtab (g : Guard) (a b : Reg) (l : BitVec 9) (s : State) : Host.Outcome State Fault Refusal :=
  issue (.jtab g a b l) g 0 false (fun s =>
    let idx := s.g a
    if l.toNat ≤ idx.toNat then .seq s
    else
      let va := s.g b + 4 * idx
      .bind (s.access va 4 { r := true, n := true }) fun tg =>
        reach (.jtab g a b l) false va tg (.read va · 4 .plain) (some (.w4read · 4)) .jtab s) s

/-- Opening a loop of `n` trips whose body ends `e` words after the word (R126). -/
def openLoop (n : Word) (e : BitVec 9) (s : State) : Out :=
  let c := s.ctx
  let l := loopsUsed c.loops
  let fin := c.pc + 4 * e.setWidth 64
  if 4095 < n.toNat then .stop (.of .loopDepth n)
  else if n = 0 then .jump s (fin + 4)
  else if 4 ≤ l.length then .stop (.of .loopDepth 0)
  else .seq (s.setCtx { c with
    loops := loopsOf (l ++ [loopEntry (n.toNat - 1) e.toNat (fin.toNat / 4 % 2 ^ 11)]) })

/-- LOOP (R126). -/
def execLoop (g : Guard) (c : Reg) (e : BitVec 9) (s : State) : Host.Outcome State Fault Refusal :=
  issue (.loop g c e) g 0 false (fun s => openLoop (s.g c) e s) s

/-- LOOPI (R126). -/
def execLoopi (g : Guard) (n : BitVec 12) (e : BitVec 9) (s : State) : Host.Outcome State Fault Refusal :=
  issue (.loopi g n e) g 0 false (fun s => openLoop (n.setWidth 64) e s) s

/-- NOP (R130). -/
def execNop (g : Guard) (s : State) : Host.Outcome State Fault Refusal :=
  issue (.nop g) g 0 false (fun s => .seq s) s

/-- LEXIT (R129): the active loop is popped. -/
def execLexit (g : Guard) (s : State) : Host.Outcome State Fault Refusal :=
  issue (.lexit g) g 0 false (fun s =>
    .seq (s.setCtx { s.ctx with loops := loopsOf (loopsUsed s.ctx.loops).dropLast })) s

/-- IDLE_SPILL (R121): in an idle turn a core spills the oldest window of its lowest-numbered slot with three or more
cached whose address lies in the core's own store; a fault abandons it. -/
def execIdleSpill (core : Nat) (s : State) : Host.Outcome State Fault Refusal :=
  let own := fun (n : Nat) =>
    let x := s.slotAt n
    let va := x.ctx.wsp - 64
    decide (3 ≤ x.windows.length) && x.run != .free
      && winOf (localAddr va) == some .w1 && s.onDevice va && localAddr va / 2 ^ 19 % 2 ^ 11 == core
  match ((List.range 16).map (core * 16 + ·)).find? own with
  | none => .next s
  | some n =>
    match spillOldest { s with cur := n } with
    | .ok (.done t) => .next { t with cur := s.cur }
    | _ => .next s

end Sys2Proof.Machine
end

