-- ==== Sys2Proof/Machine/Scalar.lean ====
section
/-! DEFINITION. The scalar integer and address instructions (05_scalar, R98 to R115). Each result is a named function of
the operands; the instructions write it under R102. -/

namespace Sys2Proof.Machine

/-- The smaller and the larger, signed and unsigned (R104). -/
def minS (a b : Word) : Word := if a.sle b then a else b
def maxS (a b : Word) : Word := if a.sle b then b else a
def minU (a b : Word) : Word := if a.ule b then a else b
def maxU (a b : Word) : Word := if a.ule b then b else a

/-- An exact integer clamped to the signed range of 64 bits (R104). -/
def sat64 (x : Int) : Word :=
  if x < -(2 ^ 63) then .ofInt 64 (-(2 ^ 63)) else if 2 ^ 63 - 1 < x then .ofInt 64 (2 ^ 63 - 1) else .ofInt 64 x

/-- Bits [127:64] of the signed and of the unsigned product (R106). -/
def mulHi (a b : Word) : Word := .ofInt 64 (a.toInt * b.toInt / 2 ^ 64)
def mulHiU (a b : Word) : Word := .ofNat 64 (a.toNat * b.toNat / 2 ^ 64)

/-- Quotients and remainders, with the results of R106 for a divisor of 0 and the signed overflow. -/
def divS (a b : Word) : Word :=
  if b = 0 then .allOnes 64 else if a = .intMin 64 ∧ b = .allOnes 64 then a else .ofInt 64 (a.toInt.tdiv b.toInt)
def divU (a b : Word) : Word := if b = 0 then .allOnes 64 else .ofNat 64 (a.toNat / b.toNat)
def remS (a b : Word) : Word :=
  if b = 0 then a else if a = .intMin 64 ∧ b = .allOnes 64 then 0 else .ofInt 64 (a.toInt.tmod b.toInt)
def remU (a b : Word) : Word := if b = 0 then a else .ofNat 64 (a.toNat % b.toNat)

/-- The result of the divider's operation (R106). -/
def divide (o : DivOp) (a b : Word) : Word :=
  match o with
  | .div => divS a b
  | .divu => divU a b
  | .rem => remS a b
  | .remu => remU a b

/-- A shift count, g[b][5:0] (R108). -/
def count (b : Word) : Nat := b.toNat % 64

/-- Zero bits above the highest 1 bit among the low n bits (R108). -/
def leadingZeros (a : Word) : Nat → Nat
  | 0 => 0
  | n + 1 => if a.getLsbD n then 0 else 1 + leadingZeros a n

/-- Zero bits below the lowest 1 bit, looking at n bits from bit k (R108). -/
def trailingZeros (a : Word) (k : Nat) : Nat → Nat
  | 0 => 0
  | n + 1 => if a.getLsbD k then 0 else 1 + trailingZeros a (k + 1) n

/-- 1 bits among the low n bits (R108). -/
def ones (a : Word) : Nat → Nat
  | 0 => 0
  | n + 1 => (if a.getLsbD n then 1 else 0) + ones a n

/-- ROL (R108). -/
def rol (a : Word) (n : Nat) : Word := if n = 0 then a else a <<< n ||| a >>> (64 - n)

/-- A division joins the divider of its core (R99): it starts now, or when the one before it ends. -/
def startDivision (i : Instr) (o : DivOp) (d a b : Reg) (s : State) : Out :=
  let u := s.coreAt s.coreIdx
  let now := s.cycles s.cluster
  let starts := match u.divider.getLast? with
    | none => now
    | some v => max now v.ends
  let s' := s.setCoreAt s.coreIdx { u with divider := u.divider ++ [⟨s.cur, o, d, s.g a, s.g b, starts + 16⟩] }
  .stay (s'.await i .divider)

/-- ADD (R104). -/
def execAdd (g : Guard) (d a b : Reg) (s : State) : Host.Outcome State Fault Refusal :=
  issue (.add g d a b) g 0 false (fun s => .setG d (s.g a + s.g b) s) s

/-- SUB (R104). -/
def execSub (g : Guard) (d a b : Reg) (s : State) : Host.Outcome State Fault Refusal :=
  issue (.sub g d a b) g 0 false (fun s => .setG d (s.g a - s.g b) s) s

/-- AND (R104). -/
def execAnd (g : Guard) (d a b : Reg) (s : State) : Host.Outcome State Fault Refusal :=
  issue (.and g d a b) g 0 false (fun s => .setG d (s.g a &&& s.g b) s) s

/-- OR (R104). -/
def execOr (g : Guard) (d a b : Reg) (s : State) : Host.Outcome State Fault Refusal :=
  issue (.or g d a b) g 0 false (fun s => .setG d (s.g a ||| s.g b) s) s

/-- XOR (R104). -/
def execXor (g : Guard) (d a b : Reg) (s : State) : Host.Outcome State Fault Refusal :=
  issue (.xor g d a b) g 0 false (fun s => .setG d (s.g a ^^^ s.g b) s) s

/-- ANDN (R104). -/
def execAndn (g : Guard) (d a b : Reg) (s : State) : Host.Outcome State Fault Refusal :=
  issue (.andn g d a b) g 0 false (fun s => .setG d (s.g a &&& ~~~ (s.g b)) s) s

/-- MIN (R104). -/
def execMin (g : Guard) (d a b : Reg) (s : State) : Host.Outcome State Fault Refusal :=
  issue (.min g d a b) g 0 false (fun s => .setG d (minS (s.g a) (s.g b)) s) s

/-- MAX (R104). -/
def execMax (g : Guard) (d a b : Reg) (s : State) : Host.Outcome State Fault Refusal :=
  issue (.max g d a b) g 0 false (fun s => .setG d (maxS (s.g a) (s.g b)) s) s

/-- MINU (R104). -/
def execMinu (g : Guard) (d a b : Reg) (s : State) : Host.Outcome State Fault Refusal :=
  issue (.minu g d a b) g 0 false (fun s => .setG d (minU (s.g a) (s.g b)) s) s

/-- MAXU (R104). -/
def execMaxu (g : Guard) (d a b : Reg) (s : State) : Host.Outcome State Fault Refusal :=
  issue (.maxu g d a b) g 0 false (fun s => .setG d (maxU (s.g a) (s.g b)) s) s

/-- ADDS (R104). -/
def execAdds (g : Guard) (d a b : Reg) (s : State) : Host.Outcome State Fault Refusal :=
  issue (.adds g d a b) g 0 false (fun s => .setG d (sat64 ((s.g a).toInt + (s.g b).toInt)) s) s

/-- SUBS (R104). -/
def execSubs (g : Guard) (d a b : Reg) (s : State) : Host.Outcome State Fault Refusal :=
  issue (.subs g d a b) g 0 false (fun s => .setG d (sat64 ((s.g a).toInt - (s.g b).toInt)) s) s

/-- LEA (R105): scaled by 1, 2, 4 or 8. -/
def execLea (g : Guard) (d a b : Reg) (k : BitVec 2) (s : State) : Host.Outcome State Fault Refusal :=
  issue (.lea g d a b k) g 0 false (fun s => .setG d (s.g a + s.g b <<< k.toNat) s) s

/-- MUL (R106). -/
def execMul (g : Guard) (d a b : Reg) (s : State) : Host.Outcome State Fault Refusal :=
  issue (.mul g d a b) g 0 false (fun s => .setG d (s.g a * s.g b) s) s

/-- MULHI (R106). -/
def execMulhi (g : Guard) (d a b : Reg) (s : State) : Host.Outcome State Fault Refusal :=
  issue (.mulhi g d a b) g 0 false (fun s => .setG d (mulHi (s.g a) (s.g b)) s) s

/-- MULHU (R106). -/
def execMulhu (g : Guard) (d a b : Reg) (s : State) : Host.Outcome State Fault Refusal :=
  issue (.mulhu g d a b) g 0 false (fun s => .setG d (mulHiU (s.g a) (s.g b)) s) s

/-- DIV (R99, R106): the thread waits for the divider. -/
def execDiv (g : Guard) (d a b : Reg) (s : State) : Host.Outcome State Fault Refusal :=
  issue (.div g d a b) g 0 false (fun s => startDivision (.div g d a b) .div d a b s) s

/-- DIVU (R99, R106): the thread waits for the divider. -/
def execDivu (g : Guard) (d a b : Reg) (s : State) : Host.Outcome State Fault Refusal :=
  issue (.divu g d a b) g 0 false (fun s => startDivision (.divu g d a b) .divu d a b s) s

/-- REM (R99, R106): the thread waits for the divider. -/
def execRem (g : Guard) (d a b : Reg) (s : State) : Host.Outcome State Fault Refusal :=
  issue (.rem g d a b) g 0 false (fun s => startDivision (.rem g d a b) .rem d a b s) s

/-- REMU (R99, R106): the thread waits for the divider. -/
def execRemu (g : Guard) (d a b : Reg) (s : State) : Host.Outcome State Fault Refusal :=
  issue (.remu g d a b) g 0 false (fun s => startDivision (.remu g d a b) .remu d a b s) s

/-- DIVIDER_DONE (R99): the oldest division of a core ends; its result is written under R102 and its thread returns to
the rotation 4 cycles later. -/
def execDividerDone (core : Nat) (s : State) : Host.Outcome State Fault Refusal :=
  let u := s.coreAt core
  match u.divider with
  | [] => .next s
  | v :: r =>
    if s.cycles (core / 16) < v.ends then .next s
    else
    let s := s.setCoreAt core { u with divider := r }
    let x := s.slotAt v.slot
    if x.run = .waiting .divider then
      let s := { s.setSlotAt v.slot { x with run := .runnable, ready := v.ends + 4 } with cur := v.slot }
      .next (settle s (.setG v.d (divide v.op v.a v.b) s))
    else .next s

/-- SHL (R108). -/
def execShl (g : Guard) (d a b : Reg) (s : State) : Host.Outcome State Fault Refusal :=
  issue (.shl g d a b) g 0 false (fun s => .setG d (s.g a <<< count (s.g b)) s) s

/-- SHR (R108). -/
def execShr (g : Guard) (d a b : Reg) (s : State) : Host.Outcome State Fault Refusal :=
  issue (.shr g d a b) g 0 false (fun s => .setG d (s.g a >>> count (s.g b)) s) s

/-- SRA (R108). -/
def execSra (g : Guard) (d a b : Reg) (s : State) : Host.Outcome State Fault Refusal :=
  issue (.sra g d a b) g 0 false (fun s => .setG d ((s.g a).sshiftRight (count (s.g b))) s) s

/-- ROL (R108). -/
def execRol (g : Guard) (d a b : Reg) (s : State) : Host.Outcome State Fault Refusal :=
  issue (.rol g d a b) g 0 false (fun s => .setG d (Machine.rol (s.g a) (count (s.g b))) s) s

/-- CLZ (R108). -/
def execClz (g : Guard) (d a : Reg) (s : State) : Host.Outcome State Fault Refusal :=
  issue (.clz g d a) g 0 false (fun s => .setG d (.ofNat 64 (leadingZeros (s.g a) 64)) s) s

/-- CTZ (R108). -/
def execCtz (g : Guard) (d a : Reg) (s : State) : Host.Outcome State Fault Refusal :=
  issue (.ctz g d a) g 0 false (fun s => .setG d (.ofNat 64 (trailingZeros (s.g a) 0 64)) s) s

/-- POPC (R108). -/
def execPopc (g : Guard) (d a : Reg) (s : State) : Host.Outcome State Fault Refusal :=
  issue (.popc g d a) g 0 false (fun s => .setG d (.ofNat 64 (ones (s.g a) 64)) s) s

/-- SEXT (R109). -/
def execSext (g : Guard) (d a : Reg) (z : Size) (s : State) : Host.Outcome State Fault Refusal :=
  issue (.sext g d a z) g 0 false (fun s => .setG d (extend z true (s.g a)) s) s

/-- ZEXT (R109). -/
def execZext (g : Guard) (d a : Reg) (z : Size) (s : State) : Host.Outcome State Fault Refusal :=
  issue (.zext g d a z) g 0 false (fun s => .setG d (extend z false (s.g a)) s) s

/-- CMP (R113). -/
def execCmp (g : Guard) (p : Pred) (a b : Reg) (c : Cond) (s : State) : Host.Outcome State Fault Refusal :=
  issue (.cmp g p a b c) g 0 false (fun s => .setP p (condHolds c (s.g a) (s.g b)) s) s

/-- SEL (R114). -/
def execSel (g : Guard) (d a b : Reg) (n : Pred) (s : State) : Host.Outcome State Fault Refusal :=
  issue (.sel g d a b n) g 0 false (fun s => .setG d (if s.p n then s.g a else s.g b) s) s

/-- PAND (R115). -/
def execPand (g : Guard) (p q r : Pred) (s : State) : Host.Outcome State Fault Refusal :=
  issue (.pand g p q r) g 0 false (fun s => .setP p (s.p q && s.p r) s) s

/-- POR (R115). -/
def execPor (g : Guard) (p q r : Pred) (s : State) : Host.Outcome State Fault Refusal :=
  issue (.por g p q r) g 0 false (fun s => .setP p (s.p q || s.p r) s) s

/-- PXOR (R115). -/
def execPxor (g : Guard) (p q r : Pred) (s : State) : Host.Outcome State Fault Refusal :=
  issue (.pxor g p q r) g 0 false (fun s => .setP p (s.p q ^^ s.p r) s) s

/-- PMOV (R115). -/
def execPmov (g : Guard) (p q : Pred) (s : State) : Host.Outcome State Fault Refusal :=
  issue (.pmov g p q) g 0 false (fun s => .setP p (s.p q) s) s

/-- ADDI (R110). -/
def execAddi (g : Guard) (d a : Reg) (i : BitVec 13) (s : State) : Host.Outcome State Fault Refusal :=
  issue (.addi g d a i) g 0 false (fun s => .setG d (s.g a + imm i) s) s

/-- ANDI (R110). -/
def execAndi (g : Guard) (d a : Reg) (i : BitVec 13) (s : State) : Host.Outcome State Fault Refusal :=
  issue (.andi g d a i) g 0 false (fun s => .setG d (s.g a &&& imm i) s) s

/-- ORI (R110). -/
def execOri (g : Guard) (d a : Reg) (i : BitVec 13) (s : State) : Host.Outcome State Fault Refusal :=
  issue (.ori g d a i) g 0 false (fun s => .setG d (s.g a ||| imm i) s) s

/-- XORI (R110). -/
def execXori (g : Guard) (d a : Reg) (i : BitVec 13) (s : State) : Host.Outcome State Fault Refusal :=
  issue (.xori g d a i) g 0 false (fun s => .setG d (s.g a ^^^ imm i) s) s

/-- SHLI (R110). -/
def execShli (g : Guard) (d a : Reg) (n : BitVec 6) (s : State) : Host.Outcome State Fault Refusal :=
  issue (.shli g d a n) g 0 false (fun s => .setG d (s.g a <<< n.toNat) s) s

/-- SHRI (R110). -/
def execShri (g : Guard) (d a : Reg) (n : BitVec 6) (s : State) : Host.Outcome State Fault Refusal :=
  issue (.shri g d a n) g 0 false (fun s => .setG d (s.g a >>> n.toNat) s) s

/-- SRAI (R110). -/
def execSrai (g : Guard) (d a : Reg) (n : BitVec 6) (s : State) : Host.Outcome State Fault Refusal :=
  issue (.srai g d a n) g 0 false (fun s => .setG d ((s.g a).sshiftRight n.toNat) s) s

/-- MOVI (R110). -/
def execMovi (g : Guard) (d : Reg) (i : BitVec 13) (s : State) : Host.Outcome State Fault Refusal :=
  issue (.movi g d i) g 0 false (fun s => .setG d (imm i) s) s

/-- MOVHI (R111): the immediate unsigned. -/
def execMovhi (g : Guard) (d a : Reg) (i : BitVec 13) (s : State) : Host.Outcome State Fault Refusal :=
  issue (.movhi g d a i) g 0 false (fun s => .setG d (s.g a <<< 13 ||| i.setWidth 64) s) s

/-- ADDPC (R112). -/
def execAddpc (g : Guard) (d : Reg) (i : BitVec 13) (s : State) : Host.Outcome State Fault Refusal :=
  issue (.addpc g d i) g 0 false (fun s => .setG d (s.ctx.pc + 4 * imm i) s) s

/-- CMPI (R113): the immediate sign-extended, for every condition. -/
def execCmpi (g : Guard) (c : Cond) (p : Pred) (a : Reg) (i : BitVec 13) (s : State) : Host.Outcome State Fault Refusal :=
  issue (.cmpi g c p a i) g 0 false (fun s => .setP p (condHolds c (s.g a) (imm i)) s) s

end Sys2Proof.Machine
end

