-- ==== Sys2Proof/Machine/Dispatch.lean ====
section
/-! DEFINITION. The meaning of each instruction and event: one direct call each. -/

namespace Sys2Proof.Machine

/-- What an instruction or an event does. -/
def exec (i : Instr) (s : State) : Host.Outcome State Fault Refusal :=
  match i with
  | .add g d a b => Sys2Proof.Machine.execAdd g d a b s
  | .sub g d a b => Sys2Proof.Machine.execSub g d a b s
  | .and g d a b => Sys2Proof.Machine.execAnd g d a b s
  | .or g d a b => Sys2Proof.Machine.execOr g d a b s
  | .xor g d a b => Sys2Proof.Machine.execXor g d a b s
  | .andn g d a b => Sys2Proof.Machine.execAndn g d a b s
  | .min g d a b => Sys2Proof.Machine.execMin g d a b s
  | .max g d a b => Sys2Proof.Machine.execMax g d a b s
  | .minu g d a b => Sys2Proof.Machine.execMinu g d a b s
  | .maxu g d a b => Sys2Proof.Machine.execMaxu g d a b s
  | .adds g d a b => Sys2Proof.Machine.execAdds g d a b s
  | .subs g d a b => Sys2Proof.Machine.execSubs g d a b s
  | .lea g d a b st => Sys2Proof.Machine.execLea g d a b st s
  | .mul g d a b => Sys2Proof.Machine.execMul g d a b s
  | .mulhi g d a b => Sys2Proof.Machine.execMulhi g d a b s
  | .mulhu g d a b => Sys2Proof.Machine.execMulhu g d a b s
  | .div g d a b => Sys2Proof.Machine.execDiv g d a b s
  | .divu g d a b => Sys2Proof.Machine.execDivu g d a b s
  | .rem g d a b => Sys2Proof.Machine.execRem g d a b s
  | .remu g d a b => Sys2Proof.Machine.execRemu g d a b s
  | .dividerDone core => Sys2Proof.Machine.execDividerDone core s
  | .shl g d a b => Sys2Proof.Machine.execShl g d a b s
  | .shr g d a b => Sys2Proof.Machine.execShr g d a b s
  | .sra g d a b => Sys2Proof.Machine.execSra g d a b s
  | .rol g d a b => Sys2Proof.Machine.execRol g d a b s
  | .clz g d a => Sys2Proof.Machine.execClz g d a s
  | .ctz g d a => Sys2Proof.Machine.execCtz g d a s
  | .popc g d a => Sys2Proof.Machine.execPopc g d a s
  | .sext g d a st => Sys2Proof.Machine.execSext g d a st s
  | .zext g d a st => Sys2Proof.Machine.execZext g d a st s
  | .cmp g p a b c => Sys2Proof.Machine.execCmp g p a b c s
  | .sel g d a b n => Sys2Proof.Machine.execSel g d a b n s
  | .pand g p q r => Sys2Proof.Machine.execPand g p q r s
  | .por g p q r => Sys2Proof.Machine.execPor g p q r s
  | .pxor g p q r => Sys2Proof.Machine.execPxor g p q r s
  | .pmov g p q => Sys2Proof.Machine.execPmov g p q s
  | .addi g d a ii => Sys2Proof.Machine.execAddi g d a ii s
  | .andi g d a ii => Sys2Proof.Machine.execAndi g d a ii s
  | .ori g d a ii => Sys2Proof.Machine.execOri g d a ii s
  | .xori g d a ii => Sys2Proof.Machine.execXori g d a ii s
  | .shli g d a n => Sys2Proof.Machine.execShli g d a n s
  | .shri g d a n => Sys2Proof.Machine.execShri g d a n s
  | .srai g d a n => Sys2Proof.Machine.execSrai g d a n s
  | .movi g d ii => Sys2Proof.Machine.execMovi g d ii s
  | .movhi g d a ii => Sys2Proof.Machine.execMovhi g d a ii s
  | .addpc g d ii => Sys2Proof.Machine.execAddpc g d ii s
  | .cmpi g c p a ii => Sys2Proof.Machine.execCmpi g c p a ii s
  | .br g o => Sys2Proof.Machine.execBr g o s
  | .call g o => Sys2Proof.Machine.execCall g o s
  | .jr g a => Sys2Proof.Machine.execJr g a s
  | .callr g a => Sys2Proof.Machine.execCallr g a s
  | .ret g => Sys2Proof.Machine.execRet g s
  | .jtab g a b l => Sys2Proof.Machine.execJtab g a b l s
  | .jmp g a ii => Sys2Proof.Machine.execJmp g a ii s
  | .loop g c e => Sys2Proof.Machine.execLoop g c e s
  | .loopi g n e => Sys2Proof.Machine.execLoopi g n e s
  | .nop g => Sys2Proof.Machine.execNop g s
  | .lexit g => Sys2Proof.Machine.execLexit g s
  | .ld g d a st x o => Sys2Proof.Machine.execLd g d a st x o s
  | .st g d a st o => Sys2Proof.Machine.execSt g d a st o s
  | .lda g d a st x ii => Sys2Proof.Machine.execLda g d a st x ii s
  | .stv g d a st ii => Sys2Proof.Machine.execStv g d a st ii s
  | .ldn g d a st x o => Sys2Proof.Machine.execLdn g d a st x o s
  | .stn g d a st o => Sys2Proof.Machine.execStn g d a st o s
  | .scancel g a st o => Sys2Proof.Machine.execScancel g a st o s
  | .lkup g d a => Sys2Proof.Machine.execLkup g d a s
  | .tagin g a b => Sys2Proof.Machine.execTagin g a b s
  | .tagout g d a => Sys2Proof.Machine.execTagout g d a s
  | .ldaq g d a c z x o => Sys2Proof.Machine.execLdaq g d a c z x o s
  | .strl g d a c z o => Sys2Proof.Machine.execStrl g d a c z o s
  | .fenceFull g c => Sys2Proof.Machine.execFenceFull g c s
  | .fenceAcq g c => Sys2Proof.Machine.execFenceAcq g c s
  | .fenceRel g c => Sys2Proof.Machine.execFenceRel g c s
  | .stsync g c => Sys2Proof.Machine.execStsync g c s
  | .drainToken k => Sys2Proof.Machine.execDrainToken k s
  | .invalidation k => Sys2Proof.Machine.execInvalidation k s
  | .rsv g d a st o => Sys2Proof.Machine.execRsv g d a st o s
  | .rls g d a st o => Sys2Proof.Machine.execRls g d a st o s
  | .rlsn g a st o => Sys2Proof.Machine.execRlsn g a st o s
  | .rsvResend slot => Sys2Proof.Machine.execRsvResend slot s
  | .abandonPacket k => Sys2Proof.Machine.execAbandonPacket k s
  | .lamo g d a b o st => Sys2Proof.Machine.execLamo g d a b o st s
  | .mon g a => Sys2Proof.Machine.execMon g a s
  | .mwait g d a => Sys2Proof.Machine.execMwait g d a s
  | .moff g a => Sys2Proof.Machine.execMoff g a s
  | .monitorNotice k => Sys2Proof.Machine.execMonitorNotice k s
  | .mwaitTimeout slot => Sys2Proof.Machine.execMwaitTimeout slot s
  | .bari g a b => Sys2Proof.Machine.execBari g a b s
  | .bara g d a => Sys2Proof.Machine.execBara g d a s
  | .bard g d a => Sys2Proof.Machine.execBard g d a s
  | .barw g a b => Sys2Proof.Machine.execBarw g a b s
  | .barrierRegistration k => Sys2Proof.Machine.execBarrierRegistration k s
  | .barrierArrival k => Sys2Proof.Machine.execBarrierArrival k s
  | .barrierCompletion k => Sys2Proof.Machine.execBarrierCompletion k s
  | .exit g => Sys2Proof.Machine.execExit g s
  | .yield g => Sys2Proof.Machine.execYield g s
  | .anchor g => Sys2Proof.Machine.execAnchor g s
  | .roam g => Sys2Proof.Machine.execRoam g s
  | .migr g a => Sys2Proof.Machine.execMigr g a s
  | .who g d => Sys2Proof.Machine.execWho g d s
  | .sleep g a => Sys2Proof.Machine.execSleep g a s
  | .spawn g d a b => Sys2Proof.Machine.execSpawn g d a b s
  | .tnext g => Sys2Proof.Machine.execTnext g s
  | .twait g d a b => Sys2Proof.Machine.execTwait g d a b s
  | .sleepExpiry slot => Sys2Proof.Machine.execSleepExpiry slot s
  | .yieldExpiry slot => Sys2Proof.Machine.execYieldExpiry slot s
  | .send g p a b h => Sys2Proof.Machine.execSend g p a b h s
  | .inbox g d a => Sys2Proof.Machine.execInbox g d a s
  | .ipeek g d => Sys2Proof.Machine.execIpeek g d s
  | .launch g p a z => Sys2Proof.Machine.execLaunch g p a z s
  | .messageDelivery k => Sys2Proof.Machine.execMessageDelivery k s
  | .messageRetry core => Sys2Proof.Machine.execMessageRetry core s
  | .handlerStart core part => Sys2Proof.Machine.execHandlerStart core part s
  | .migrationArrival k => Sys2Proof.Machine.execMigrationArrival k s
  | .remoteRequest k => Sys2Proof.Machine.execRemoteRequest k s
  | .replyArrival k => Sys2Proof.Machine.execReplyArrival k s
  | .wakeMessage k => Sys2Proof.Machine.execWakeMessage k s
  | .pageFaultReissue slot => Sys2Proof.Machine.execPageFaultReissue slot s
  | .pageFaultResolve cluster k => Sys2Proof.Machine.execPageFaultResolve cluster k s
  | .launchTake part => Sys2Proof.Machine.execLaunchTake part s
  | .crewStart part launch crew => Sys2Proof.Machine.execCrewStart part launch crew s
  | .idleSpill core => Sys2Proof.Machine.execIdleSpill core s
  | .vadd g d a b t r => Sys2Proof.Machine.execVadd g d a b t r s
  | .vsub g d a b t r => Sys2Proof.Machine.execVsub g d a b t r s
  | .vmul g d a b t r => Sys2Proof.Machine.execVmul g d a b t r s
  | .vfma g d a b t r => Sys2Proof.Machine.execVfma g d a b t r s
  | .vmin g d a b t r => Sys2Proof.Machine.execVmin g d a b t r s
  | .vmax g d a b t r => Sys2Proof.Machine.execVmax g d a b t r s
  | .vabs g d a t => Sys2Proof.Machine.execVabs g d a t s
  | .vneg g d a t => Sys2Proof.Machine.execVneg g d a t s
  | .vand g d a b t => Sys2Proof.Machine.execVand g d a b t s
  | .vor g d a b t => Sys2Proof.Machine.execVor g d a b t s
  | .vxor g d a b t => Sys2Proof.Machine.execVxor g d a b t s
  | .vshl g d a b t => Sys2Proof.Machine.execVshl g d a b t s
  | .vshr g d a b t => Sys2Proof.Machine.execVshr g d a b t s
  | .vsra g d a b t => Sys2Proof.Machine.execVsra g d a b t s
  | .vcmp g d a b t c => Sys2Proof.Machine.execVcmp g d a b t c s
  | .vsel g d a b t => Sys2Proof.Machine.execVsel g d a b t s
  | .vcvt g d a st t r => Sys2Proof.Machine.execVcvt g d a st t r s
  | .vscl g d a b t r => Sys2Proof.Machine.execVscl g d a b t r s
  | .vreds g d a t r => Sys2Proof.Machine.execVreds g d a t r s
  | .vredm g d a t => Sys2Proof.Machine.execVredm g d a t s
  | .vexp2 g d a t r => Sys2Proof.Machine.execVexp2 g d a t r s
  | .vlog2 g d a t r => Sys2Proof.Machine.execVlog2 g d a t r s
  | .vrcp g d a t r => Sys2Proof.Machine.execVrcp g d a t r s
  | .vrsq g d a t r => Sys2Proof.Machine.execVrsq g d a t r s
  | .vdot g d a b t r => Sys2Proof.Machine.execVdot g d a b t r s
  | .vbc g d a t => Sys2Proof.Machine.execVbc g d a t s
  | .vext g d a b t => Sys2Proof.Machine.execVext g d a b t s
  | .vins g d a b t => Sys2Proof.Machine.execVins g d a b t s
  | .vperm g d a b t => Sys2Proof.Machine.execVperm g d a b t s
  | .vld g d a t => Sys2Proof.Machine.execVld g d a t s
  | .vst g d a t => Sys2Proof.Machine.execVst g d a t s
  | .vldx g d a b t => Sys2Proof.Machine.execVldx g d a b t s
  | .vstx g d a b t => Sys2Proof.Machine.execVstx g d a b t s
  | .vlen g d a t => Sys2Proof.Machine.execVlen g d a t s
  | .vmov g d a t => Sys2Proof.Machine.execVmov g d a t s
  | .viota g d t => Sys2Proof.Machine.execViota g d t s
  | .kset g k a => Sys2Proof.Machine.execKset g k a s
  | .trun g a => Sys2Proof.Machine.execTrun g a s
  | .tstat g d => Sys2Proof.Machine.execTstat g d s
  | .hnew g d a b => Sys2Proof.Machine.execHnew g d a b s
  | .hdel g a => Sys2Proof.Machine.execHdel g a s
  | .mldb h mac n k fmt tag scb rdi => Sys2Proof.Machine.execMldb h mac n k fmt tag scb rdi s
  | .mlda h m k fmt tag sca rdi => Sys2Proof.Machine.execMlda h m k fmt tag sca rdi s
  | .mma m n macs => Sys2Proof.Machine.execMma m n macs s
  | .mzero m n => Sys2Proof.Machine.execMzero m n s
  | .mst h m n fmt clr sc vsi => Sys2Proof.Machine.execMst h m n fmt clr sc vsi s
  | .mscl m n sr sc => Sys2Proof.Machine.execMscl m n sr sc s
  | .mfmt rnd wide sat => Sys2Proof.Machine.execMfmt rnd wide sat s
  | .mrep c len => Sys2Proof.Machine.execMrep c len s
  | .mend => Sys2Proof.Machine.execMend s
  | .garnetTokenHop die tok => Sys2Proof.Machine.execGarnetTokenHop die tok s
  | .cpy g p a => Sys2Proof.Machine.execCpy g p a s
  | .cpyr g p a => Sys2Proof.Machine.execCpyr g p a s
  | .fill g p a => Sys2Proof.Machine.execFill g p a s
  | .collReduce g p a t r => Sys2Proof.Machine.execCollReduce g p a t r s
  | .collAllreduce g p a t r => Sys2Proof.Machine.execCollAllreduce g p a t r s
  | .collRscatter g p a t r => Sys2Proof.Machine.execCollRscatter g p a t r s
  | .collAllgather g p a t => Sys2Proof.Machine.execCollAllgather g p a t s
  | .cpyExecute cluster => Sys2Proof.Machine.execCpyExecute cluster s
  | .cpyrExecute cluster => Sys2Proof.Machine.execCpyrExecute cluster s
  | .fillExecute cluster => Sys2Proof.Machine.execFillExecute cluster s
  | .collExecute die => Sys2Proof.Machine.execCollExecute die s
  | .mask g p a => Sys2Proof.Machine.execMask g p a s
  | .padv g d a b => Sys2Proof.Machine.execPadv g d a b s
  | .sample g d a p => Sys2Proof.Machine.execSample g d a p s
  | .argmx g d a p => Sys2Proof.Machine.execArgmx g d a p s
  | .maskWalk cluster => Sys2Proof.Machine.execMaskWalk cluster s
  | .tryPoint g d a b => Sys2Proof.Machine.execTryPoint g d a b s
  | .fail g => Sys2Proof.Machine.execFail g s
  | .cut g a => Sys2Proof.Machine.execCut g a s
  | .cpd g d => Sys2Proof.Machine.execCpd g d s
  | .steal g p a => Sys2Proof.Machine.execSteal g p a s
  | .commit g => Sys2Proof.Machine.execCommit g s
  | .killMessage k => Sys2Proof.Machine.execKillMessage k s
  | .thiefRelease k => Sys2Proof.Machine.execThiefRelease k s
  | .ecnt g a b => Sys2Proof.Machine.execEcnt g a b s
  | .rlook g d a b => Sys2Proof.Machine.execRlook g d a b s
  | .rpub g a b => Sys2Proof.Machine.execRpub g a b s
  | .rret g a b => Sys2Proof.Machine.execRret g a b s
  | .rcopy g p a => Sys2Proof.Machine.execRcopy g p a s
  | .rmerge g p a => Sys2Proof.Machine.execRmerge g p a s
  | .rstat g d a => Sys2Proof.Machine.execRstat g d a s
  | .ecntUpdate k => Sys2Proof.Machine.execEcntUpdate k s
  | .rcopyExecute k => Sys2Proof.Machine.execRcopyExecute k s
  | .rmergeExecute k => Sys2Proof.Machine.execRmergeExecute k s
  | .trap g n => Sys2Proof.Machine.execTrap g n s
  | .brk g n => Sys2Proof.Machine.execBrk g n s
  | .mfsr g d n => Sys2Proof.Machine.execMfsr g d n s
  | .mtsr g a n => Sys2Proof.Machine.execMtsr g a n s
  | .eret g => Sys2Proof.Machine.execEret g s
  | .segld g st a => Sys2Proof.Machine.execSegld g st a s
  | .pginv g a => Sys2Proof.Machine.execPginv g a s
  | .idle g => Sys2Proof.Machine.execIdle g s
  | .circ g p a => Sys2Proof.Machine.execCirc g p a s
  | .slotsv g d a => Sys2Proof.Machine.execSlotsv g d a s
  | .slotld g d a => Sys2Proof.Machine.execSlotld g d a s
  | .stopat g p a => Sys2Proof.Machine.execStopat g p a s
  | .freqat g p a b => Sys2Proof.Machine.execFreqat g p a b s
  | .stopatRequest k => Sys2Proof.Machine.execStopatRequest k s
  | .quartzStep part => Sys2Proof.Machine.execQuartzStep part s
  | .elasticStep part => Sys2Proof.Machine.execElasticStep part s
  | .storeArrival k => Sys2Proof.Machine.execStoreArrival k s
  | .partitionStop part => Sys2Proof.Machine.execPartitionStop part s
  | .partitionResume part => Sys2Proof.Machine.execPartitionResume part s
  | .frequencySwitch => Sys2Proof.Machine.execFrequencySwitch s
  | .powerPoolRefill => Sys2Proof.Machine.execPowerPoolRefill s
  | .flitTransmit port peer => Sys2Proof.Machine.execFlitTransmit port peer s
  | .portTune port => Sys2Proof.Machine.execPortTune port s
  | .portPark port => Sys2Proof.Machine.execPortPark port s
  | .portWake port => Sys2Proof.Machine.execPortWake port s
  | .laneTuneDone port lane => Sys2Proof.Machine.execLaneTuneDone port lane s
  | .laneWakeDone port lane => Sys2Proof.Machine.execLaneWakeDone port lane s
  | .laneAutoPark port => Sys2Proof.Machine.execLaneAutoPark port s
  | .laneAutoWake port => Sys2Proof.Machine.execLaneAutoWake port s
  | .heaterService port => Sys2Proof.Machine.execHeaterService port s
  | .keyLoadDone => Sys2Proof.Machine.execKeyLoadDone s
  | .attestReportReady => Sys2Proof.Machine.execAttestReportReady s
  | .flushToken k => Sys2Proof.Machine.execFlushToken k s
  | .dieUnreachable die => Sys2Proof.Machine.execDieUnreachable die s
  | .clockStretch region => Sys2Proof.Machine.execClockStretch region s
  | .coldReset recordOk firmwareOk trained => Sys2Proof.Machine.execColdReset recordOk firmwareOk trained s
  | .referenceLockLoss => Sys2Proof.Machine.execReferenceLockLoss s
  | .linkFailure port lane dieA chan => Sys2Proof.Machine.execLinkFailure port lane dieA chan s
  | .flitReceive port lane peer part seq tagOk k => Sys2Proof.Machine.execFlitReceive port lane peer part seq tagOk k s
  | .hostMemRead part off => Sys2Proof.Machine.execHostMemRead part off s
  | .hostMemWrite part off be data => Sys2Proof.Machine.execHostMemWrite part off be data s
  | .hostAtomic off op z y cmp => Sys2Proof.Machine.execHostAtomic off op z y cmp s
  | .kick part tail => Sys2Proof.Machine.execKick part tail s
  | .cqrWrite part v => Sys2Proof.Machine.execCqrWrite part v s
  | .pginvh v => Sys2Proof.Machine.execPginvh v s
  | .faultRecordRemove cluster v => Sys2Proof.Machine.execFaultRecordRemove cluster v s
  | .monarchRecordRemove part v => Sys2Proof.Machine.execMonarchRecordRemove part v s
  | .fabricFaultRetry => Sys2Proof.Machine.execFabricFaultRetry s
  | .fabricFaultAbandon => Sys2Proof.Machine.execFabricFaultAbandon s
  | .keyLoad v => Sys2Proof.Machine.execKeyLoad v s
  | .attestRequest v => Sys2Proof.Machine.execAttestRequest v s
  | .connectionCommit v => Sys2Proof.Machine.execConnectionCommit v s
  | .resumeRequest part v => Sys2Proof.Machine.execResumeRequest part v s
  | .fpcntAdd part v => Sys2Proof.Machine.execFpcntAdd part v s
  | .partitionCreate n v => Sys2Proof.Machine.execPartitionCreate n v s
  | .partitionDissolve n v => Sys2Proof.Machine.execPartitionDissolve n v s
  | .registerWrite off v be => Sys2Proof.Machine.execRegisterWrite off v be s
  | .replayRequest port lane flit => Sys2Proof.Machine.execReplayRequest port lane flit s

end Sys2Proof.Machine
end

