-- ==== Sys2Proof/Machine/Advance.lean ====
section
/-! DEFINITION. The order of the machine's steps (log entry 4): an event on the agenda, else a packet that arrives, else a slot's
turn, else the passing of a cycle; and an instruction placed where the next step fetches (log entry 19). -/

namespace Sys2Proof.Machine

/-- A turn of this cycle, or the next cycle. -/
def State.act (s : State) : Host.Outcome State Fault Refusal :=
  match s.nextTurn with
  | none => .next s.tick
  | some (c, none) => exec (.idleSpill c) { s with turn := c + 1 }
  | some (c, some n) =>
    match ({ s with turn := c + 1, cur := n }).takeTurn with
    | .done t => .next t
    | .run i t => exec i t

/-- One step's work. After a boot that failed no thread runs, and only time passes and events come (R406). -/
def State.advance (s : State) : Host.Outcome State Fault Refusal :=
  match s.agenda with
  | (n, i) :: r => exec i { s with agenda := r, cur := n }
  | [] =>
    if s.dev.bootErr ≠ 0 then .next s.tick
    else
      let l := s.arrivals
      if l.isEmpty then s.act
      else
        let (k, t) := s.pick (l.length + 1)
        match l[k]? with
        | some i => exec i t
        | none => t.act

/-- The partition in which a placed instruction runs: every die, bank and slot. -/
def placedPdef : Word := 0x8001FF00FFFFFFFF

/-- The state with an instruction placed where the next step fetches (log entry 19): a 32-bit word in the first bytes of core 0's
local store, before a thread of device privilege whose turn it is in partition 0; or a tile command as the head of a list that core
0's array runs. -/
def State.placeWord (s : State) (nbits w : Nat) : State :=
  let n := s.cycles 0 % 16
  let x := s.slotAt n
  let base : Word := 0x1FFF000000000000
  let code : Seg := ⟨base, 0x80000, 0x17⟩
  let part := s.partAt 0
  let y : Slot := {
    ctx := { x.ctx with pc := base, mode := 2 }
    seg := Vector.ofFn fun k => if k.val = 0 then code else x.seg[k]
    v := x.v, vl := x.vl, k := x.k, part := 0, run := .runnable }
  let t : State := { s with
    agenda := [], turn := 0, bad := s.bad.filter (· != 0)
    dev := { s.dev with pdef := s.dev.pdef.set 0 placedPdef, dies := s.dev.dies ||| 1, bootErr := 0 } }
  let t := t.setPartAt 0 { part with stopping := false, regs := { part.regs with stopcnt := 0 } }
  let q := t.portAt 0
  let t := if q.suspended then t.setPortAt 0 { q with suspended := false } else t
  if nbits ≤ 32 then
    let t := { t.setSlotAt n y with mem := t.mem.write 0 4 w }
    let l := t.arrivals
    if l.isEmpty then t else { t with choices := l.length :: t.choices }
  else
    match decodeTile w with
    | none => t
    | some i =>
      let run : ListRun := {
        slot := n, stamp := t.stamp, cmds := [i, .mend], shapes := [none, none], idx := 0, rep := 0, k := y.k, rel := y.ctx.rel
        vis := y.ctx.vis, now := part.now, sat := false, mode := 0, key := 0, wide := false, rnd := none, lines := []
        written := [], hold := none, ord := none, out := 0, awaits := none, miss := 0, lost := none, accs := [], drained := []
        ready := 0 }
      let z : Slot := { y with run := .waiting .list }
      let t := (t.setSlotAt n z).setArrayAt 0 { t.arrayAt 0 with run := some run, owner := some 0 }
      { t.bump with agenda := [(n, i)] }

end Sys2Proof.Machine
end

