-- ==== Sys2Proof/Safety.lean ====
section
/-! DEFINITION. What counts as a safe state and a safe step, in the terms that claims use: the invariant, when a word is performed,
and what an instruction leaves as it was. -/

namespace Sys2Proof.Machine

/-- The memory is in its canonical form: addresses strictly rising, no entry that an unlisted address reads as. -/
def State.Inv (s : State) : Prop := s.mem.wf = true

/-- A step goes on. -/
def Goes (o : Host.Outcome State Fault Refusal) : Prop := ∃ t, o = .next t

/-- The thread that acts performs a word afresh (R55, R56, R224): no word is in progress, its privilege is enough, no limit of a
message handler is met, and the guard holds. -/
abbrev State.Performs (s : State) (g : Guard) (min : Nat) (barred : Bool) : Prop :=
  s.slot.prog.word = none ∧ min ≤ s.ctx.priv ∧ guardHolds g s = true ∧
    (s.slot.handler = true → s.slot.inh = false → barred = false ∧ s.slot.hcount < 256)

/-- A register write needs no room in the trail arena (R75, R331). -/
abbrev State.TrailRoom (s : State) : Prop :=
  s.slot.points = [] ∨ s.slot.inh = true ∨ s.slot.trail.length < 256

/-- The PC after a word that is no taken transfer (R127). -/
abbrev State.nextPc (s : State) : Word := (s.ctx.endCheck s.ctx.pc).pc

/-- The state when a word has ended (R76, R127): the slot as its effect leaves it, the PC and the loop stack as the end check leaves
them, the issue counted in a message handler (R224), no word in progress, and everything else as it was. -/
def State.completes (s : State) (x : Slot) : State :=
  s.setSlot { x with ctx := x.ctx.endCheck s.ctx.pc, hcount := s.counted.slot.hcount, prog := {} }

/-- The state when a word goes on waiting: its slot is out of the rotation with the word in progress, its issue counted in a message
handler (R224), and everything else is as it was. -/
def State.parks (s : State) (i : Instr) (w : Wait) (f : Option Finish) : State :=
  s.setSlot { s.slot with
    run := .waiting w, hcount := s.counted.slot.hcount, prog := { s.slot.prog with word := encodeWord i, fin := f } }

/-- Memory reads as it did. -/
def SameMem (s t : State) : Prop := ∀ a, t.mem.byte a = s.mem.byte a

/-- Memory reads as it did, but for `n` bytes from `a`. -/
def SameMemBut (s t : State) (a n : Nat) : Prop := ∀ b, b < a ∨ a + n ≤ b → t.mem.byte b = s.mem.byte b

/-- What an instruction that writes only registers of its own thread leaves: every other general register and predicate, the rest of
the context but for PC and loop stack, the slot but for its trail, its count of issues and the progress of its word, every other
slot, and everything outside the slots, memory among it. -/
structure RegFrame (s t : State) (gs : List Reg) (ps : List Pred) : Prop where
  regs : ∀ n, n ∉ gs → t.g n = s.g n
  preds : ∀ n, n ∉ ps → t.p n = s.p n
  ctx : t.ctx = { s.ctx with g := t.ctx.g, p := t.ctx.p, pc := t.ctx.pc, loops := t.ctx.loops }
  slot : t.slot = { s.slot with ctx := t.ctx, trail := t.slot.trail, hcount := t.slot.hcount, prog := {} }
  others : ∀ m, m ≠ s.cur → t.slotAt m = s.slotAt m
  rest : t = { s with slots := t.slots }
  mem : SameMem s t

end Sys2Proof.Machine
end

