-- ==== Sys2Proof/Certificates/Slice0/Obligations.lean ====
section
/-! DEFINITION. The statements for the provers. Each names its rule of spec/; what rests on a choice of the model says so. -/

namespace Sys2Proof.Machine

/-! ## Scalar instructions (05_scalar) -/

/-- The result that R104 to R112 and R114 give a scalar instruction that writes one general register: its guard, its destination and
the value. -/
def scalarResult (s : State) : Instr → Option (Guard × Reg × Word)
  | .add g d a b => some (g, d, .ofNat 64 ((s.g a).toNat + (s.g b).toNat))
  | .sub g d a b => some (g, d, .ofInt 64 ((s.g a).toInt - (s.g b).toInt))
  | .and g d a b => some (g, d, s.g a &&& s.g b)
  | .or g d a b => some (g, d, s.g a ||| s.g b)
  | .xor g d a b => some (g, d, s.g a ^^^ s.g b)
  | .andn g d a b => some (g, d, s.g a &&& ~~~ (s.g b))
  | .min g d a b => some (g, d, if (s.g a).toInt ≤ (s.g b).toInt then s.g a else s.g b)
  | .max g d a b => some (g, d, if (s.g a).toInt ≤ (s.g b).toInt then s.g b else s.g a)
  | .minu g d a b => some (g, d, if (s.g a).toNat ≤ (s.g b).toNat then s.g a else s.g b)
  | .maxu g d a b => some (g, d, if (s.g a).toNat ≤ (s.g b).toNat then s.g b else s.g a)
  | .adds g d a b => some (g, d, .ofInt 64 (max (-2 ^ 63) (min (2 ^ 63 - 1) ((s.g a).toInt + (s.g b).toInt))))
  | .subs g d a b => some (g, d, .ofInt 64 (max (-2 ^ 63) (min (2 ^ 63 - 1) ((s.g a).toInt - (s.g b).toInt))))
  | .lea g d a b k => some (g, d, .ofNat 64 ((s.g a).toNat + (s.g b).toNat * 2 ^ k.toNat))
  | .mul g d a b => some (g, d, .ofNat 64 ((s.g a).toNat * (s.g b).toNat))
  | .mulhi g d a b => some (g, d, .ofInt 64 ((s.g a).toInt * (s.g b).toInt / 2 ^ 64))
  | .mulhu g d a b => some (g, d, .ofNat 64 ((s.g a).toNat * (s.g b).toNat / 2 ^ 64))
  | .shl g d a b => some (g, d, .ofNat 64 ((s.g a).toNat * 2 ^ ((s.g b).toNat % 64)))
  | .shr g d a b => some (g, d, .ofNat 64 ((s.g a).toNat / 2 ^ ((s.g b).toNat % 64)))
  | .sra g d a b => some (g, d, .ofInt 64 ((s.g a).toInt / 2 ^ ((s.g b).toNat % 64)))
  | .rol g d a b => some (g, d, (s.g a).rotateLeft ((s.g b).toNat % 64))
  | .clz g d a => some (g, d, .ofNat 64 (leadingZeros (s.g a) 64))
  | .ctz g d a => some (g, d, .ofNat 64 (trailingZeros (s.g a) 0 64))
  | .popc g d a => some (g, d, .ofNat 64 (((List.range 64).filter fun k => (s.g a).getLsbD k).length))
  | .sext g d a z => some (g, d, ((s.g a).setWidth (8 * sizeBytes z)).signExtend 64)
  | .zext g d a z => some (g, d, .ofNat 64 ((s.g a).toNat % 2 ^ (8 * sizeBytes z)))
  | .sel g d a b n => some (g, d, if s.p n = true then s.g a else s.g b)
  | .addi g d a i => some (g, d, s.g a + i.signExtend 64)
  | .andi g d a i => some (g, d, s.g a &&& i.signExtend 64)
  | .ori g d a i => some (g, d, s.g a ||| i.signExtend 64)
  | .xori g d a i => some (g, d, s.g a ^^^ i.signExtend 64)
  | .shli g d a n => some (g, d, .ofNat 64 ((s.g a).toNat * 2 ^ n.toNat))
  | .shri g d a n => some (g, d, .ofNat 64 ((s.g a).toNat / 2 ^ n.toNat))
  | .srai g d a n => some (g, d, .ofInt 64 ((s.g a).toInt / 2 ^ n.toNat))
  | .movi g d i => some (g, d, i.signExtend 64)
  | .movhi g d a i => some (g, d, .ofNat 64 ((s.g a).toNat * 2 ^ 13 + i.toNat))
  | .addpc g d i => some (g, d, s.ctx.pc + .ofInt 64 (4 * i.toInt))
  | _ => none

/-- What R113 and R115 give an instruction that writes one predicate: its guard, its destination and the value. -/
def predResult (s : State) : Instr → Option (Guard × Pred × Bool)
  | .cmp g p a b c => some (g, p, condHolds c (s.g a) (s.g b))
  | .cmpi g c p a i => some (g, p, condHolds c (s.g a) (i.signExtend 64))
  | .pand g p q r => some (g, p, s.p q && s.p r)
  | .por g p q r => some (g, p, s.p q || s.p r)
  | .pxor g p q r => some (g, p, s.p q ^^ s.p r)
  | .pmov g p q => some (g, p, s.p q)
  | _ => none

/-- The four divisions: guard, operation, destination and operands. -/
def divisionOf : Instr → Option (Guard × DivOp × Reg × Reg × Reg)
  | .div g d a b => some (g, .div, d, a, b)
  | .divu g d a b => some (g, .divu, d, a, b)
  | .rem g d a b => some (g, .rem, d, a, b)
  | .remu g d a b => some (g, .remu, d, a, b)
  | _ => none

/-- R104, R105, R106, R108 to R112, R114: a scalar instruction that writes a general register completes with its result there, and
changes nothing else of R102's. The room asked for is that of the hardware trail (R75). -/
def Rules.ScalarResults : Prop :=
  ∀ (s : State) (i : Instr) (g : Guard) (d : Reg) (v : Word), i.wf = true → scalarResult s i = some (g, d, v) →
    s.Performs g 0 false → s.TrailRoom →
    ∃ t, exec i s = .next t ∧ t.g d = v ∧ t.ctx.pc = s.nextPc ∧ RegFrame s t [d] []

/-- R113, R115, R12: an instruction that writes a predicate completes with its result there; a write to p0 is discarded, and p0 reads
1. -/
def Rules.PredicateResults : Prop :=
  ∀ (s : State) (i : Instr) (g : Guard) (p : Pred) (b : Bool), predResult s i = some (g, p, b) →
    s.Performs g 0 false → s.TrailRoom →
    ∃ t, exec i s = .next t ∧ t.p p = (decide (p = 0) || b) ∧ t.ctx.pc = s.nextPc ∧ RegFrame s t [] [p]

/-- R113: what each condition holds of. -/
def Rules.ConditionMeanings : Prop :=
  ∀ (a b : Word),
    (condHolds .eq a b = true ↔ a = b) ∧ (condHolds .ne a b = true ↔ a ≠ b) ∧
    (condHolds .lt a b = true ↔ a.toInt < b.toInt) ∧ (condHolds .le a b = true ↔ a.toInt ≤ b.toInt) ∧
    (condHolds .gt a b = true ↔ b.toInt < a.toInt) ∧ (condHolds .ge a b = true ↔ b.toInt ≤ a.toInt) ∧
    (condHolds .ltu a b = true ↔ a.toNat < b.toNat) ∧ (condHolds .leu a b = true ↔ a.toNat ≤ b.toNat) ∧
    (condHolds .gtu a b = true ↔ b.toNat < a.toNat) ∧ (condHolds .geu a b = true ↔ b.toNat ≤ a.toNat)

/-- R108: CLZ counts the 0 bits above the highest 1 bit, CTZ those below the lowest, and both give 64 for 0. -/
def Rules.ZeroCounts : Prop :=
  ∀ a : Word,
    (a = 0 → leadingZeros a 64 = 64 ∧ trailingZeros a 0 64 = 64) ∧
    (∀ k, k < 64 → a.getLsbD k = true → (∀ j, k < j → a.getLsbD j = false) → leadingZeros a 64 = 63 - k) ∧
    (∀ k, a.getLsbD k = true → (∀ j, j < k → a.getLsbD j = false) → trailingZeros a 0 64 = k)

/-- R106: quotients and remainders, truncated toward zero, with the results of a divisor of 0 and of the signed overflow. -/
def Rules.DivisionValues : Prop :=
  ∀ a b : Word,
    (b = 0 → divide .div a b = .allOnes 64 ∧ divide .divu a b = .allOnes 64 ∧ divide .rem a b = a ∧ divide .remu a b = a) ∧
    (a = .intMin 64 → b = .allOnes 64 → divide .div a b = a ∧ divide .rem a b = 0) ∧
    (b ≠ 0 → (divide .divu a b).toNat = a.toNat / b.toNat ∧ (divide .remu a b).toNat = a.toNat % b.toNat) ∧
    (b ≠ 0 → ¬ (a = .intMin 64 ∧ b = .allOnes 64) →
      (divide .div a b).toInt = a.toInt.tdiv b.toInt ∧ (divide .rem a b).toInt = a.toInt - b.toInt * (a.toInt.tdiv b.toInt))

/-- R99: DIV, DIVU, REM and REMU join their core's divider with the operands as read at issue, for 16 cycles from now or from the end
of the division before, and the thread leaves the rotation with its word in progress. The next state is `s` but for that divider and
that slot's wait: no other unit of the core, no other core, no other slot and no other field of the slot changes. -/
def Rules.DivisionStarts : Prop :=
  ∀ (s : State) (i : Instr) (g : Guard) (o : DivOp) (d a b : Reg), divisionOf i = some (g, o, d, a, b) →
    s.Performs g 0 false →
    let u := s.coreAt s.coreIdx
    ∃ e, exec i s = .next ((s.parks i .divider none).setCoreAt s.coreIdx
        { u with divider := u.divider ++ [⟨s.cur, o, d, s.g a, s.g b, e⟩] }) ∧
      (u.divider = [] → e = s.cycles s.cluster + 16) ∧
      (∀ v, u.divider.getLast? = some v → e = max (s.cycles s.cluster) v.ends + 16)

/-- R99: a division whose 16 cycles have passed ends: its result is written under R102 for the thread that waits, which may issue
again 4 cycles later. Every other general register and predicate, the rest of the slot but for PC, loop stack and trail, every other
slot, the rest of that core and every other unit stay; before then nothing happens. -/
def Rules.DividerDone : Prop :=
  ∀ (s₀ s : State) (core : Nat) (v : Division) (r : List Division), (s₀.coreAt core).divider = v :: r →
    (s₀.cycles (core / 16) < v.ends → exec (.dividerDone core) s₀ = .next s₀) ∧
    (v.ends ≤ s₀.cycles (core / 16) → s = { s₀ with cur := v.slot } → s.slot.run = .waiting .divider → s.TrailRoom →
      ∃ t l, exec (.dividerDone core) s₀ = .next t ∧ t.g v.d = divide v.op v.a v.b ∧
        (l = s.slot.trail ∨ s.slot.points ≠ [] ∧ l = ⟨.greg v.d, s.g v.d, s.slot.frame v.d⟩ :: s.slot.trail) ∧
        t = (s.setCoreAt core { s₀.coreAt core with divider := r }).setSlot { s.slot with
          ctx := ({ s.slot.ctx with g := s.slot.ctx.g.set v.d (divide v.op v.a v.b) } : Ctx).endCheck s.ctx.pc
          run := .runnable, ready := v.ends + 4, trail := l, prog := {} })

/-- R75, R102, R331: an instruction of `scalarResult` executed while a choice point is open pushes the old value of its destination
first, whatever the new one is; with a deeper window current, g8 to g15 are not trailed (R124). That an entry of g8 to g15 holds its
window too is the model's own. -/
def Rules.ScalarTrail : Prop :=
  ∀ (s : State) (i : Instr) (g : Guard) (d : Reg) (v : Word) (q : Point) (r : List Point), i.wf = true →
    scalarResult s i = some (g, d, v) →
    s.Performs g 0 false → s.slot.points = q :: r → s.slot.inh = false → s.slot.trail.length < 256 →
    ∃ t, exec i s = .next t ∧
      (d.val < 8 ∨ s.slot.wf = q.wf → t.slot.trail = ⟨.greg d, s.g d, s.slot.frame d⟩ :: s.slot.trail) ∧
      (8 ≤ d.val → s.slot.wf ≠ q.wf → t.slot.trail = s.slot.trail)

/-! ## Control flow (06_control) -/

/-- The target of BR, JR and JMP (R117). -/
def transferOf (s : State) : Instr → Option (Guard × Word)
  | .br g o => some (g, s.ctx.pc + .ofInt 64 (4 * o.toInt))
  | .jr g a => some (g, s.g a)
  | .jmp g a i => some (g, s.g a + .ofInt 64 (4 * i.toInt))
  | _ => none

/-- The target of CALL and CALLR (R122). -/
def callOf (s : State) : Instr → Option (Guard × Word)
  | .call g o => some (g, s.ctx.pc + .ofInt 64 (4 * o.toInt))
  | .callr g a => some (g, s.g a)
  | _ => none

/-- The trips and the end offset of LOOP and LOOPI (R126). -/
def loopOf (s : State) : Instr → Option (Guard × Nat × BitVec 9)
  | .loop g c e => some (g, (s.g c).toNat, e)
  | .loopi g n e => some (g, n.toNat, e)
  | _ => none

/-- R116, R117: a taken transfer sets the PC to its target, writes no register, and leaves the loop stack as it is (R127). -/
def Rules.Transfers : Prop :=
  ∀ (s : State) (i : Instr) (g : Guard) (v : Word), transferOf s i = some (g, v) → s.Performs g 0 false →
    ∃ t, exec i s = .next t ∧ t.ctx.pc = v ∧ t.ctx.loops = s.ctx.loops ∧ RegFrame s t [] [] ∧ t.slot.trail = s.slot.trail

/-- R122: CALL and CALLR, with fewer than four older windows cached: the caller's window is cached, the new one holds 0 but for the
caller's g14 and the return address in g15, and g0 to g7 stand. -/
def Rules.Calls : Prop :=
  ∀ (s : State) (i : Instr) (g : Guard) (v : Word), callOf s i = some (g, v) → s.Performs g 0 false →
    s.slot.windows.length < 4 →
    ∃ t, exec i s = .next t ∧ t.ctx.pc = v ∧ t.slot.windows = s.ctx.window :: s.slot.windows ∧
      (∀ n : Reg, n.val < 8 → t.g n = s.g n) ∧ (∀ n : Reg, 8 ≤ n.val → n.val < 14 → t.g n = 0) ∧
      t.g 14 = s.g 14 ∧ t.g 15 = s.ctx.pc + 4 ∧ t.ctx.wsp = s.ctx.wsp ∧ t.slot.wf = s.slot.wf - 64 ∧
      t.slot.trail = s.slot.trail ∧ (∀ n, t.p n = s.p n) ∧ SameMem s t ∧
      (∀ m, m ≠ s.cur → t.slotAt m = s.slotAt m) ∧ t = { s with slots := t.slots }

/-- What EXIT and TNEXT wait for is over (R235): no choice point and no provisional entry, settled, no reservation held, not bound, and
no completion of its own to drain for. -/
abbrev State.MayEnd (s : State) : Prop :=
  s.slot.points = [] ∧ s.slot.bind = none ∧ s.provOf s.cur = [] ∧ s.slot.unacked = 0 ∧ s.ctx.rsvn = 0 ∧ s.slot.prog.lost = none ∧
    s.endScope = none ∧ s.slot.handler = false

/-- What every RET that returns does (R123, R131): the PC is the return address, `w` is the current window and `r` are the older ones,
loop entries are popped, and nothing else changes but WSP and the frame. -/
structure Returned (s t : State) (w : Window) (r : List Window) : Prop where
  pc : t.ctx.pc = s.g 15
  windows : t.slot.windows = r
  window : t.ctx.window = w
  low : ∀ n : Reg, n.val < 8 → t.g n = s.g n
  loops : t.ctx.loops = retLoops s.ctx.loops (s.g 15)
  frame : t.slot.wf = s.slot.wf + 64
  preds : ∀ n, t.p n = s.p n
  mem : SameMem s t
  others : ∀ m, m ≠ s.cur → t.slotAt m = s.slotAt m
  rest : t = { s with slots := t.slots }

/-- R123, R121, R120: RET with no choice point open. With lk not 0 the newest older window becomes current: a cached one, or with none
cached the 64 bytes at WSP, here in the executing core's own store; an address in W0 raises SEG-BOUND, and a line that fails its check
ECC-UNCORRECTABLE, with TVAL = WSP and nothing changed. With lk 0 it ends the task as EXIT does. -/
def Rules.Returns : Prop :=
  ∀ (s : State) (g : Guard), s.Performs g 0 false → s.slot.points = [] →
    (s.g 15 ≠ 0 →
      (∀ w r, s.slot.windows = w :: r → ∃ t, exec (.ret g) s = .next t ∧ Returned s t w r ∧ t.ctx.wsp = s.ctx.wsp) ∧
      (s.slot.windows = [] →
        (winOf (localAddr s.ctx.wsp) = some .w0 → exec (.ret g) s = .next (s.counted.trap 0x03 s.ctx.wsp)) ∧
        (∀ pl, winOf (localAddr s.ctx.wsp) ≠ some .w0 → s.access s.ctx.wsp 64 { r := true, n := true } = .ok (.here pl) →
          pl.home = s.coreIdx →
          (s.badAt pl.phys = true → exec (.ret g) s = .next (s.counted.trap 0x17 s.ctx.wsp)) ∧
          (s.badAt pl.phys = false → ∃ t, exec (.ret g) s = .next t ∧ t.ctx.wsp = s.ctx.wsp + 64 ∧
            Returned s t (Vector.ofFn fun i => .ofNat 64 (s.mem.read (pl.phys + 8 * i.val) 8)) [])))) ∧
    (s.g 15 = 0 → s.MayEnd → ∃ t, exec (.ret g) s = .next t ∧ exec (.exit g) s = .next t ∧
      t.slotAt s.cur = { part := s.slot.part, ready := s.slot.ready, gen := s.slot.gen } ∧
      ∀ m, m ≠ s.cur → t.slotAt m = s.slotAt m)

/-- R131: RET pops entries, newest first, until one whose body, the L words that end at E in bits [12:2], holds the return address. -/
def Rules.LoopsPopped : Prop :=
  ∀ (t : Word) (e : Half) (r : List Half) (l : Loops),
    popFor t [] = [] ∧
    ((∃ k, k < loopL e ∧ t.toNat / 4 % 2 ^ 11 = (loopE e + 2 ^ 11 + 1 + k - loopL e) % 2 ^ 11) → popFor t (e :: r) = e :: r) ∧
    ((∀ k, k < loopL e → t.toNat / 4 % 2 ^ 11 ≠ (loopE e + 2 ^ 11 + 1 + k - loopL e) % 2 ^ 11) → popFor t (e :: r) = popFor t r) ∧
    loopsUsed (retLoops l t) = (popFor t (loopsUsed l).reverse).reverse

/-- R123: with a choice point open whose window is the current one, RET raises CHOICE-ESCAPE with TVAL = g15. -/
def Rules.ReturnEscapes : Prop :=
  ∀ (s : State) (g : Guard) (q : Point) (r : List Point), s.Performs g 0 false → s.slot.inh = false →
    s.slot.points = q :: r → q.wf = s.slot.wf →
    exec (.ret g) s = .next (s.counted.trap 0x12 (s.g 15))

/-- R118, R119: JTAB falls through to PC + 4 with no access when its index is not below its length. -/
def Rules.JumpTableDefault : Prop :=
  ∀ (s : State) (g : Guard) (a b : Reg) (l : BitVec 9), s.Performs g 0 false → l.toNat ≤ (s.g a).toNat →
    ∃ t, exec (.jtab g a b l) s = .next t ∧ t.ctx.pc = s.nextPc ∧ RegFrame s t [] [] ∧ t.slot.trail = s.slot.trail

/-- R118: JTAB jumps by the signed entry that it reads, counted in words from its own address; here where the entry's home is the
executing core. -/
def Rules.JumpTableTaken : Prop :=
  ∀ (s : State) (g : Guard) (a b : Reg) (l : BitVec 9) (pl : Place) (v : Nat), s.Performs g 0 false →
    (s.g a).toNat < l.toNat → s.access (s.g b + 4 * s.g a) 4 { r := true, n := true } = .ok (.here pl) →
    pl.home = s.coreIdx → s.readAt (s.g b + 4 * s.g a) pl 4 = .ok v →
    ∃ t, exec (.jtab g a b l) s = .next t ∧ t.ctx.pc = s.ctx.pc + .ofInt 64 (4 * (BitVec.ofNat 32 v).toInt) ∧
      RegFrame s t [] [] ∧ t.ctx.loops = s.ctx.loops

/-- R126, R127, R128: LOOP and LOOPI. A count above 4,095, or a fifth entry, raises LOOP-DEPTH; a count of 0 skips the body; any other
opens the loop, and the end check sees it. -/
def Rules.Loops : Prop :=
  ∀ (s : State) (i : Instr) (g : Guard) (n : Nat) (e : BitVec 9), loopOf s i = some (g, n, e) → s.Performs g 0 false →
    (4095 < n → exec i s = .next (s.counted.trap 0x0B (.ofNat 64 n))) ∧
    (n = 0 → ∃ t, exec i s = .next t ∧ t.ctx.pc = s.ctx.pc + 4 * (e.setWidth 64 + 1) ∧ t.ctx.loops = s.ctx.loops ∧
      RegFrame s t [] []) ∧
    (0 < n → n ≤ 4095 → 4 ≤ (loopsUsed s.ctx.loops).length → exec i s = .next (s.counted.trap 0x0B 0)) ∧
    (0 < n → n ≤ 4095 → (loopsUsed s.ctx.loops).length < 4 →
      ∃ t, exec i s = .next t ∧ RegFrame s t [] [] ∧
        (t.ctx.pc, t.ctx.loops) =
          let c : Ctx := { s.ctx with loops := loopsOf (loopsUsed s.ctx.loops ++
            [loopEntry (n - 1) e.toNat ((s.ctx.pc + 4 * e.setWidth 64).toNat / 4 % 2 ^ 11)]) }
          ((c.endCheck s.ctx.pc).pc, (c.endCheck s.ctx.pc).loops))

/-- R127: the end check. With no loop active the PC moves on by 4; at the end address of the active loop the word loops back while
loop-backs remain, and else pops the entry and looks at the next one. -/
def Rules.EndCheck : Prop :=
  ∀ (a : Word) (e : Half) (r : List Half), loopL e ≠ 0 →
    endCheckFrom a [] = ([], none) ∧
    (a.toNat / 4 % 2 ^ 11 ≠ loopE e → endCheckFrom a (e :: r) = (e :: r, none)) ∧
    (a.toNat / 4 % 2 ^ 11 = loopE e → loopC e = 0 → endCheckFrom a (e :: r) = endCheckFrom a r) ∧
    (a.toNat / 4 % 2 ^ 11 = loopE e → 0 < loopC e → ∃ f, endCheckFrom a (e :: r) =
      (f :: r, some (a - .ofNat 64 (4 * (loopL e - 1)))) ∧ loopC f + 1 = loopC e ∧ loopL f = loopL e ∧ loopE f = loopE e)

/-- R129, R130: LEXIT pops the active loop before its end check, and NOP does nothing. -/
def Rules.LoopExitAndNop : Prop :=
  ∀ (s : State) (g : Guard), s.Performs g 0 false →
    (∃ t, exec (.nop g) s = .next t ∧ t.ctx = s.ctx.endCheck s.ctx.pc ∧ RegFrame s t [] []) ∧
    (∃ t, exec (.lexit g) s = .next t ∧ RegFrame s t [] [] ∧
      t.ctx = ({ s.ctx with loops := loopsOf (loopsUsed s.ctx.loops).dropLast } : Ctx).endCheck s.ctx.pc)

/-! ## Memory (07_instant) -/

/-- A value of `n` bytes extended to 64 bits (R60). -/
def extended (n : Nat) (x : Bool) (v : Nat) : Word :=
  if x then (BitVec.ofNat (8 * n) v).signExtend 64 else .ofNat 64 (v % 2 ^ (8 * n))

/-- The Instant-domain loads: guard, destination, size, sign extension, address and instant (R160). -/
def instLoad (s : State) : Instr → Option (Guard × Reg × Size × Bool × Word × Instant)
  | .ld g d a z x o => some (g, d, z, x, s.g a + .ofInt 64 (o.toInt * sizeBytes z), s.ctx.rel)
  | .lda g d a z x i => some (g, d, z, x, s.g a, instOf s i)
  | _ => none

/-- The Instant-domain stores: guard, source, size, address and instant (R161). -/
def instStore (s : State) : Instr → Option (Guard × Reg × Size × Word × Instant)
  | .st g d a z o => some (g, d, z, s.g a + .ofInt 64 (o.toInt * sizeBytes z), s.ctx.vis)
  | .stv g d a z i => some (g, d, z, s.g a, instOf s i)
  | _ => none

/-- The store of R161, as it leaves the thread. -/
def storeMade (s : State) (va : Word) (pl : Place) (z : Size) (d : Reg) (v : Instant) : Store :=
  { va := va, pl := pl, n := sizeBytes z, x := .ofNat 512 ((s.g d).toNat % 2 ^ (8 * sizeBytes z)), mask := .allOnes 64, v := v
    ord := s.ctx.ord, slip := s.ctx.pol }

/-- R160, R74, R156: LD and LDA at their home core, for an instant that is neither above NOW nor below the line's floor: the
destination gets the line's value as of that instant, and nothing else changes. -/
def Rules.InstantLoads : Prop :=
  ∀ (s : State) (i : Instr) (g : Guard) (d : Reg) (z : Size) (x : Bool) (va : Word) (v : Instant) (pl : Place),
    i.wf = true → instLoad s i = some (g, d, z, x, va, v) → s.Performs g 0 false → s.TrailRoom → s.slot.prog.inst = none →
    s.access va (sizeBytes z) { r := true, i := true } = .ok (.here pl) → pl.home = s.coreIdx → s.badAt pl.phys = false →
    v.toNat ≤ s.part.now.toNat → s.floor s.slot.part (pl.home / 16) (pl.phys / 64) ≤ v.toNat →
    ∃ t, exec i s = .next t ∧ RegFrame s t [d] [] ∧ t.ctx.pc = s.nextPc ∧
      t.g d = extended (sizeBytes z) x
        (s.lineAt s.slot.part (pl.home / 16) (pl.phys / 64) v / 2 ^ (8 * (pl.phys % 64)) % 2 ^ (8 * sizeBytes z))

/-- R74, R160: an instant above NOW holds the thread at the home until NOW reaches it, with nothing written; and one below the line's
floor raises INSTANT-EXPIRED. -/
def Rules.InstantLoadWaits : Prop :=
  ∀ (s : State) (i : Instr) (g : Guard) (d : Reg) (z : Size) (x : Bool) (va : Word) (v : Instant) (pl : Place),
    instLoad s i = some (g, d, z, x, va, v) → s.Performs g 0 false → s.slot.prog.inst = none →
    s.access va (sizeBytes z) { r := true, i := true } = .ok (.here pl) → pl.home = s.coreIdx →
    (s.part.now.toNat < v.toNat → ∃ t, exec i s = .next t ∧ t.slot.run = .waiting (.instant v) ∧ t.slot.prog.inst = some v ∧
      t.ctx = s.ctx ∧ t = { s with slots := t.slots }) ∧
    (v.toNat ≤ s.part.now.toNat → s.badAt pl.phys = false → v.toNat < s.floor s.slot.part (pl.home / 16) (pl.phys / 64) →
      exec i s = .next (s.counted.trap 0x09 va))

/-- R74: the line's value as of an instant is that of the earliest version superseded after it, else the current value. -/
def Rules.VersionChosen : Prop :=
  ∀ (s : State) (p : Fin 8) (port line : Nat) (i : Instant),
    ((∀ v ∈ (s.portAt port).history, v.part = p → v.line = line → v.sup.toNat ≤ i.toNat) →
      s.lineAt p port line i = s.mem.read (line * 64) 64) ∧
    (∀ w ∈ (s.portAt port).history, w.part = p → w.line = line → i.toNat < w.sup.toNat →
      (∀ v ∈ (s.portAt port).history, v.part = p → v.line = line → i.toNat < v.sup.toNat → v = w ∨ w.sup.toNat < v.sup.toNat) →
      s.lineAt p port line i = w.old.toNat)

/-- R161, R146, R336: a store of the Instant domain while a choice point is open is placed in its core's provisional buffer, which has
room, with the ordinal as it stands; ORD[15:0] then counts it, and the thread goes on. Memory and ports stand. -/
def Rules.ProvisionalStores : Prop :=
  ∀ (s : State) (i : Instr) (g : Guard) (d : Reg) (z : Size) (va : Word) (v : Instant) (pl : Place),
    instStore s i = some (g, d, z, va, v) → s.Performs g 0 true → s.slot.open_ = true → s.slot.prog.inst = none →
    s.ctx.seqNo ≠ 0xFFFF → s.access va (sizeBytes z) { w := true, i := true } = .ok (.here pl) →
    (s.coreAt s.coreIdx).prov.length < 64 →
    ∃ t, exec i s = .next t ∧
      (t.coreAt s.coreIdx).prov = (s.coreAt s.coreIdx).prov ++ [⟨s.cur, s.slot.part, storeMade s va pl z d v, false⟩] ∧
      t.ctx.ord = s.ctx.ord + 1 ∧ t.ctx.pc = s.nextPc ∧ (∀ n, t.g n = s.g n) ∧ (∀ n, t.p n = s.p n) ∧ SameMem s t ∧
      t = { s with slots := t.slots, cores := t.cores } ∧ (∀ m, m ≠ s.cur → t.slotAt m = s.slotAt m)

/-- R159, R161: with no choice point open, a store at its home core, or of a thread that does not roam, is sent to its home port and its
thread leaves the rotation until the port has accepted it. Nothing else changes. -/
def Rules.StoresSent : Prop :=
  ∀ (s : State) (i : Instr) (g : Guard) (d : Reg) (z : Size) (va : Word) (v : Instant) (pl : Place),
    instStore s i = some (g, d, z, va, v) → s.Performs g 0 true → s.slot.open_ = false → s.slot.prog.inst = none →
    s.ctx.seqNo ≠ 0xFFFF → s.access va (sizeBytes z) { w := true, i := true } = .ok (.here pl) →
    (pl.home = s.coreIdx ∨ s.slot.roams = false) →
    ∃ t, exec i s = .next t ∧ t.net = s.net ++ [⟨s.slot.part, .store (.slot s.cur) (storeMade s va pl z d v)⟩] ∧
      t.slot.run = .waiting .reply ∧ t.ctx = s.ctx ∧ SameMem s t ∧ t = { s with slots := t.slots, net := t.net } ∧
      (∀ m, m ≠ s.cur → t.slotAt m = s.slotAt m)

/-- R146: a store issued with ORD[15:0] = 0xFFFF raises INSTANT-MISS with TVAL = the address, whatever the miss policy. -/
def Rules.StoreSequenceEnds : Prop :=
  ∀ (s : State) (i : Instr) (g : Guard) (d : Reg) (z : Size) (va : Word) (v : Instant),
    instStore s i = some (g, d, z, va, v) → s.Performs g 0 true → s.ctx.seqNo = 0xFFFF →
    exec i s = .next (s.counted.trap 0x08 va)

/-- R162, R60: LDN at its home core reads the bytes at its place, little-endian (R6), and extends them. -/
def Rules.NowLoads : Prop :=
  ∀ (s : State) (g : Guard) (d a : Reg) (z : Size) (x : Bool) (o : BitVec 9) (pl : Place),
    (Instr.ldn g d a z x o).wf = true → s.Performs g 0 false → s.TrailRoom →
    s.access (s.g a + .ofInt 64 (o.toInt * sizeBytes z)) (sizeBytes z) { r := true, n := true } = .ok (.here pl) →
    pl.home = s.coreIdx → s.badAt pl.phys = false →
    ∃ t, exec (.ldn g d a z x o) s = .next t ∧ t.g d = extended (sizeBytes z) x (s.mem.read pl.phys (sizeBytes z)) ∧
      RegFrame s t [d] [] ∧ t.ctx.pc = s.nextPc

/-- R162, R6: STN at its home core, with no choice point open, writes the low bytes of g[d] at its place, little-endian, and no other
byte of memory; registers and predicates stand. Where the line fails its check, it raises ECC-UNCORRECTABLE in place of that (R4, R73). -/
def Rules.NowStores : Prop :=
  ∀ (s : State) (g : Guard) (d a : Reg) (z : Size) (o : BitVec 9) (pl : Place),
    s.Performs g 0 false → s.slot.open_ = false →
    s.access (s.g a + .ofInt 64 (o.toInt * sizeBytes z)) (sizeBytes z) { w := true, n := true } = .ok (.here pl) →
    pl.home = s.coreIdx →
    (s.badAt pl.phys = false → ∃ t, exec (.stn g d a z o) s = .next t ∧
      t.mem.read pl.phys (sizeBytes z) = (s.g d).toNat % 2 ^ (8 * sizeBytes z) ∧ SameMemBut s t pl.phys (sizeBytes z) ∧
      (∀ n, t.g n = s.g n) ∧ (∀ n, t.p n = s.p n) ∧ t.ctx.pc = s.nextPc ∧ (∀ m, m ≠ s.cur → t.slotAt m = s.slotAt m)) ∧
    (s.badAt pl.phys = true →
      exec (.stn g d a z o) s = .next (s.counted.trap 0x17 (s.g a + .ofInt 64 (o.toInt * sizeBytes z))))

/-- R74: while a choice point is open, STN outside the trail arena raises CHOICE-ESCAPE with TVAL = the address. -/
def Rules.NowStoreEscapes : Prop :=
  ∀ (s : State) (g : Guard) (d a : Reg) (z : Size) (o : BitVec 9) (tg : Target),
    s.Performs g 0 false → s.slot.open_ = true →
    s.access (s.g a + .ofInt 64 (o.toInt * sizeBytes z)) (sizeBytes z) { w := true, n := true } = .ok tg →
    s.slot.inArena (s.g a + .ofInt 64 (o.toInt * sizeBytes z)) (sizeBytes z) = false →
    exec (.stn g d a z o) s = .next (s.counted.trap 0x12 (s.g a + .ofInt 64 (o.toInt * sizeBytes z)))

/-- R163: SCANCEL at its home core withdraws the task's bytes that wait for an instant above NOW, leaves the other entries, and writes no
register and no memory. -/
def Rules.CancelsWithdraw : Prop :=
  ∀ (s : State) (g : Guard) (a : Reg) (z : Size) (o : BitVec 9) (pl : Place),
    s.Performs g 0 false → s.slot.open_ = false →
    s.access (s.g a + .ofInt 64 (o.toInt * sizeBytes z)) (sizeBytes z) { w := true, i := true } = .ok (.here pl) →
    pl.home = s.coreIdx →
    ∃ t, exec (.scancel g a z o) s = .next t ∧ SameMem s t ∧ (∀ n, t.g n = s.g n) ∧ t.ctx.ord = s.ctx.ord ∧
      t.ctx.pc = s.nextPc ∧
      (∀ e ∈ (t.portAt (pl.home / 16)).pending, e.part = s.slot.part → e.line = pl.phys / 64 → e.task = s.ctx.taskIdx →
        e.host = false → s.part.now.toNat < e.v.toNat →
        ∀ b ∈ e.bytes, b.1 < pl.phys % 64 ∨ pl.phys % 64 + sizeBytes z ≤ b.1) ∧
      (∀ e ∈ (s.portAt (pl.home / 16)).pending, e.bytes ≠ [] → (e.task ≠ s.ctx.taskIdx ∨ e.line ≠ pl.phys / 64) →
        e ∈ (t.portAt (pl.home / 16)).pending)

/-- R166: LKUP gives the slot whose valid entry holds the key, or 0xFFFF. -/
def Rules.TagLookups : Prop :=
  ∀ (s : State) (g : Guard) (d a : Reg), s.Performs g 0 false → s.TrailRoom →
    ∃ t, exec (.lkup g d a) s = .next t ∧ RegFrame s t [d] [] ∧ t.ctx.pc = s.nextPc ∧
      t.g d = match s.tagFind (tagKey (tagLs s.part.regs.tagcfg) (s.g a)) with
        | some n => .ofNat 64 n
        | none => 0xFFFF

/-- R167: TAGIN and TAGOUT with no choice point open change the tag table of their core and partition, and nothing else but TAGOUT's
destination. TAGIN invalidates any other entry that holds the key and puts it into its slot; TAGOUT gives the key of its slot, or all
ones, and invalidates it. -/
def Rules.TagChanges : Prop :=
  ∀ (s : State) (g : Guard) (a b d : Reg), s.Performs g 0 false → s.slot.open_ = false →
    let u := s.coreAt s.coreIdx
    let k := tagKey (tagLs s.part.regs.tagcfg) (s.g a)
    ((s.g b).toNat < tagSize s.part.regs.tagcfg → (∃ sg, s.slot.dataSeg (s.g a) = some sg ∧ sg.n = true) →
      ∃ l : Table Word, exec (.tagin g a b) s = .next ((s.setCoreAt s.coreIdx { u with tags := l }).completes s.slot) ∧
        Table.get 0 l (s.tagAt (s.g b).toNat) = k ∧ l.any (fun e => e.1 == s.tagAt (s.g b).toNat) = true ∧
        (∀ e ∈ l, e.1 / 1024 = s.slot.part.val → e.2 = k → e.1 = s.tagAt (s.g b).toNat) ∧
        (∀ e, e.1 ≠ s.tagAt (s.g b).toNat → (e ∈ l ↔ e ∈ u.tags ∧ ¬ (e.1 / 1024 = s.slot.part.val ∧ e.2 = k)))) ∧
    ((s.g a).toNat < tagSize s.part.regs.tagcfg →
      let v : Word := ((u.tags.find? fun e => e.1 == s.tagAt (s.g a).toNat).map (·.2)).getD 0xFFFFFFFFFFFFFFFF
      exec (.tagout g d a) s = .next
        ((s.setCoreAt s.coreIdx { u with tags := u.tags.filter fun e => e.1 != s.tagAt (s.g a).toNat }).completes
          { s.slot with ctx := { s.ctx with g := s.ctx.g.set d v } }))

/-- R167: what TAGIN and TAGOUT raise, in the rule's order: CHOICE-ESCAPE while a choice point is open, SEG-BOUND for a slot number not
below SIZE, and for TAGIN SEG-BOUND for an address in no segment and SEG-RIGHTS for one whose segment lacks N. -/
def Rules.TagTraps : Prop :=
  ∀ (s : State) (g : Guard) (a b d : Reg), s.Performs g 0 false →
    (s.slot.open_ = true → exec (.tagin g a b) s = .next (s.counted.trap 0x12 (s.g a)) ∧
      exec (.tagout g d a) s = .next (s.counted.trap 0x12 (s.g a))) ∧
    (s.slot.open_ = false →
      (tagSize s.part.regs.tagcfg ≤ (s.g b).toNat → exec (.tagin g a b) s = .next (s.counted.trap 0x03 (s.g b))) ∧
      (tagSize s.part.regs.tagcfg ≤ (s.g a).toNat → exec (.tagout g d a) s = .next (s.counted.trap 0x03 (s.g a))) ∧
      ((s.g b).toNat < tagSize s.part.regs.tagcfg →
        (s.slot.dataSeg (s.g a) = none → exec (.tagin g a b) s = .next (s.counted.trap 0x03 (s.g a))) ∧
        (∀ sg, s.slot.dataSeg (s.g a) = some sg → sg.n = false →
          exec (.tagin g a b) s = .next (s.counted.trap 0x04 (s.g a)))))

/-! ## Requests, stores and replies on their way (R15, R152, R159), and ordering (08_ordering) -/

/-- R159, R162: the request of a thread, a read or a write of the Now domain, is performed at its home: a read changes no byte and answers
with the bytes; a write changes its bytes and no others, and answers when it has completed. One whose line fails its check changes
nothing, and answers with ECC-UNCORRECTABLE and the address (R4, R73). -/
def Rules.RequestsServed : Prop :=
  ∀ (s : State) (k n len : Nat) (p : Fin 8) (va : Word) (pl : Place) (x : Vec),
    (s.net[k]? = some ⟨p, .request n (.read va pl len .plain)⟩ → s.badAt pl.phys = false →
      ∃ t note, exec (.remoteRequest k) s = .next t ∧ t = { s with net := t.net } ∧ note.line.all (· == pl.phys / 64) = true ∧
        t.net = s.net.eraseIdx k ++ [⟨p, .reply n (.ok (.ofNat 512 (s.mem.read pl.phys len))) note⟩]) ∧
    (s.net[k]? = some ⟨p, .request n (.write va pl len x)⟩ → s.badAt pl.phys = false →
      ∃ t note, exec (.remoteRequest k) s = .next t ∧ t.mem.read pl.phys len = x.toNat % 256 ^ len ∧
        SameMemBut s t pl.phys len ∧ ⟨p, .reply n (.ok 0) note⟩ ∈ t.net) ∧
    (∀ r, r = .read va pl len .plain ∨ r = .write va pl len x → s.net[k]? = some ⟨p, .request n r⟩ → s.badAt pl.phys = true →
      ∃ t note, exec (.remoteRequest k) s = .next t ∧ t = { s with net := t.net } ∧
        t.net = s.net.eraseIdx k ++ [⟨p, .reply n (.fail 0x17 va) note⟩])

/-- R152, R153: a store of a thread that reaches its home port before its instant takes its place in the pending buffer, and its thread
is told; one that has missed under TRAP is discarded and answers INSTANT-MISS with the address; under SLIP its V becomes NOW + 1 and
SLIPS counts it. Memory stands until the step. One whose line fails its check is discarded and answers ECC-UNCORRECTABLE (R73). -/
def Rules.StoreArrivals : Prop :=
  ∀ (s : State) (k n : Nat) (p : Fin 8) (st : Store) (q : Port), s.net[k]? = some ⟨p, .store (.slot n) st⟩ →
    (s.badAt st.pl.phys = true →
      exec (.storeArrival k) s = .next { s with net := s.net.eraseIdx k ++ [⟨p, .reply n (.fail 0x17 st.va) (.plain (st.pl.phys / 64))⟩] }) ∧
    (s.badAt st.pl.phys = false →
      ((s.partAt p).now.toNat < st.v.toNat → (s.portAt (st.pl.home / 16)).take p st st.v false = some q →
        ∃ t, exec (.storeArrival k) s = .next t ∧ t.portAt (st.pl.home / 16) = q ∧ SameMem s t ∧
          t.net = s.net.eraseIdx k ++ [⟨p, .reply n (.ok 0) (.plain (st.pl.phys / 64))⟩] ∧ t = { s with net := t.net, ports := t.ports }) ∧
      (st.v.toNat ≤ (s.partAt p).now.toNat → st.slip = false →
        ∃ t, exec (.storeArrival k) s = .next t ∧
          t.net = s.net.eraseIdx k ++ [⟨p, .reply n (.fail 0x08 st.va) (.plain (st.pl.phys / 64))⟩] ∧ t = { s with net := t.net }) ∧
      (st.v.toNat ≤ (s.partAt p).now.toNat → st.slip = true →
        (s.portAt (st.pl.home / 16)).take p st ((s.partAt p).now + 1) false = some q →
        ∃ t, exec (.storeArrival k) s = .next t ∧ t.portAt (st.pl.home / 16) = q ∧ SameMem s t ∧
          (t.partAt p).regs.slips.toNat = min ((s.partAt p).regs.slips.toNat % 2 ^ 48 + 1) (2 ^ 48 - 1) ∧
          t.net = s.net.eraseIdx k ++ [⟨p, .reply n .slipped (.plain (st.pl.phys / 64))⟩]))

/-- R152: within an entry of the pending buffer the higher sequence wins each byte. That the newcomer wins at an equal sequence is the
model's choice, log entry 70, and no rule of the spec. -/
def Rules.PendingBytes : Prop :=
  ∀ (bs : List (Nat × BitVec 16 × Byte)) (c b : Nat × BitVec 16 × Byte),
    (∀ x ∈ bs, ∀ y ∈ bs, x.1 = y.1 → x = y) → b ∈ bs → b.1 = c.1 →
    (b.2.1.toNat ≤ c.2.1.toNat → c ∈ mergeCell bs c ∧ ∀ x ∈ mergeCell bs c, x.1 = c.1 → x = c) ∧
    (c.2.1.toNat < b.2.1.toNat → mergeCell bs c = bs)

/-- A reply that leaves the remote-line buffer of the router it passes as it is. -/
abbrev LineNote.Inert (w : LineNote) : Prop := ∀ (x : State) (r : Nat) (p : Fin 8), x.noteLine r p w = x

/-- R159, R146, R76: a reply ends the wait of the slot it is for. A load's value goes to its destination, an accepted store is
counted in ORD, and a failure raises its cause; the thread is runnable. -/
def Rules.RepliesTaken : Prop :=
  ∀ (s₀ s : State) (k n : Nat) (p : Fin 8) (w : LineNote), s = { s₀ with cur := n } → n < 2 ^ 20 → s.slot.run = .waiting .reply → w.Inert →
    (∀ (d : Reg) (z : Size) (x : Bool) (v : Vec), s₀.net[k]? = some ⟨p, .reply n (.ok v) w⟩ →
      s.slot.prog.fin = some (.load d z x) → s.TrailRoom →
      ∃ t, exec (.replyArrival k) s₀ = .next t ∧ t.cur = s₀.cur ∧ t.net = s₀.net.eraseIdx k ∧ SameMem s t ∧
        (t.slotAt n).run = .runnable ∧ (t.slotAt n).prog = {} ∧
        (t.slotAt n).ctx.g = s.ctx.g.set d (extend z x (v.setWidth 64)) ∧ (t.slotAt n).ctx.pc = s.nextPc ∧
        (∀ m, m ≠ n → t.slotAt m = s₀.slotAt m)) ∧
    (s₀.net[k]? = some ⟨p, .reply n (.ok 0) w⟩ → s.slot.prog.fin = some .accepted →
      ∃ t, exec (.replyArrival k) s₀ = .next t ∧ t.cur = s₀.cur ∧ t.net = s₀.net.eraseIdx k ∧ SameMem s t ∧
        (t.slotAt n).run = .runnable ∧ (t.slotAt n).ctx.ord = s.ctx.ord + 1 ∧ (t.slotAt n).ctx.g = s.ctx.g ∧
        (t.slotAt n).ctx.pc = s.nextPc) ∧
    (∀ (c : Byte) (va : Word) (d : Reg) (z : Size) (x : Bool), s₀.net[k]? = some ⟨p, .reply n (.fail c va) w⟩ →
      c ≠ 0x01 → s.slot.prog.fin = some (.load d z x) → s.slot.inh = false → s.part.regs.tvec ≠ 0 →
      ∃ t, exec (.replyArrival k) s₀ = .next t ∧ (t.slotAt n).cause = c ∧ (t.slotAt n).epc = s.ctx.pc ∧
        (t.slotAt n).tval = va ∧ (t.slotAt n).ctx.pc = s.part.regs.tvec ∧ (t.slotAt n).ctx.g = s.ctx.g)

/-- R173: LDAQ at its home core reads its place and extends the value, at any scope. It leaves no word fetched ahead (R69, R178; that it
drops them all is the model's choice, log entry 109). -/
def Rules.AcquireLoads : Prop :=
  ∀ (s : State) (g : Guard) (d a : Reg) (c : Scope) (z : DSize) (x : Bool) (o : BitVec 9) (pl : Place),
    (Instr.ldaq g d a c z x o).wf = true → s.Performs g 0 false → s.TrailRoom →
    s.access (s.g a + .ofInt 64 (o.toInt * dsizeBytes z)) (dsizeBytes z) { r := true, n := true } = .ok (.here pl) →
    pl.home = s.coreIdx → s.badAt pl.phys = false →
    ∃ t, exec (.ldaq g d a c z x o) s = .next t ∧ t.g d = extended (dsizeBytes z) x (s.mem.read pl.phys (dsizeBytes z)) ∧
      RegFrame s.dropAhead t [d] [] ∧ t.ctx.pc = s.nextPc

/-- The drain of a scope has nothing to wait for (R172): the thread's writes are acknowledged, and no invalidation is on its way to a
router of the scope. -/
abbrev State.Drained (s : State) (c : Scope) : Prop :=
  s.slot.unacked = 0 ∧ ∀ r ∈ s.scopeRouters s.cluster c, s.owes r = false

/-- R174: STRL at its home core with its drain done and no choice point open writes its bytes, and no other byte of memory. -/
def Rules.ReleaseStores : Prop :=
  ∀ (s : State) (g : Guard) (d a : Reg) (c : Scope) (z : DSize) (o : BitVec 9) (pl : Place),
    s.Performs g 0 false → s.slot.open_ = false → s.Drained c → s.slot.prog.drained = false →
    s.access (s.g a + .ofInt 64 (o.toInt * dsizeBytes z)) (dsizeBytes z) { w := true, n := true } = .ok (.here pl) →
    pl.home = s.coreIdx → s.badAt pl.phys = false →
    ∃ t, exec (.strl g d a c z o) s = .next t ∧
      t.mem.read pl.phys (dsizeBytes z) = (s.g d).toNat % 2 ^ (8 * dsizeBytes z) ∧ SameMemBut s t pl.phys (dsizeBytes z) ∧
      (∀ n, t.g n = s.g n) ∧ t.ctx.pc = s.nextPc

/-- R172, R175: a fence whose drain has nothing to wait for, and FENCE.acq always, discards the words that the thread has fetched ahead and
goes on; nothing else changes: the next state is `s` but for those words and the end of the word. -/
def Rules.Fences : Prop :=
  ∀ (s : State) (g : Guard) (c : Scope), s.Performs g 0 false → s.slot.prog.drained = false →
    exec (.fenceAcq g c) s = .next (s.completes { s.slot with ahead := [] }) ∧
    (s.Drained c →
      exec (.fenceFull g c) s = .next (s.completes { s.slot with ahead := [] }) ∧
      exec (.fenceRel g c) s = .next (s.completes { s.slot with ahead := [] }))

/-- R171, R172: a fence of a thread with a write that is not acknowledged waits until it is settled; then for a token at each router of its
scope that an invalidation is still on its way to. Nothing changes but the wait and the tokens that are sent. -/
def Rules.FenceWaits : Prop :=
  ∀ (s : State) (g : Guard) (c : Scope) (i : Instr), (i = .fenceFull g c ∨ i = .fenceRel g c) → s.Performs g 0 false →
    s.slot.prog.drained = false →
    (s.slot.unacked ≠ 0 → exec i s = .next (s.parks i .settle none)) ∧
    (s.slot.unacked = 0 → ∀ l, l = (s.scopeRouters s.cluster c).filter s.owes → l ≠ [] →
      exec i s = .next (State.parks { s with net := s.net ++ l.map fun r => ⟨s.slot.part, .token s.cur r⟩ } i (.drain l.length) none))

/-- R170 to R172: an invalidation drops every entry that its router holds for the line and acknowledges the write, whose thread, once all
are acknowledged, is settled; a token counts for its thread's drain, which the last one ends. -/
def Rules.DrainPackets : Prop :=
  ∀ (s : State) (k n r line m : Nat) (p : Fin 8),
    (s.net[k]? = some ⟨p, .inval line r (some n)⟩ → n < 2 ^ 20 →
      ∃ t, exec (.invalidation k) s = .next t ∧ t.net = s.net.eraseIdx k ∧ SameMem s t ∧
        (∀ e ∈ (t.portAt r).remote, e.line ≠ line) ∧ (∀ e ∈ (s.portAt r).remote, e.line ≠ line → e ∈ (t.portAt r).remote) ∧
        (t.slotAt n).unacked = (s.slotAt n).unacked - 1 ∧
        ((s.slotAt n).run = .waiting .settle → (s.slotAt n).unacked ≤ 1 → (t.slotAt n).run = .runnable)) ∧
    (s.net[k]? = some ⟨p, .token n r⟩ → (s.slotAt n).run = .waiting (.drain m) →
      ∃ t, exec (.drainToken k) s = .next t ∧ t.net = s.net.eraseIdx k ∧ SameMem s t ∧ (t.slotAt n).ctx = (s.slotAt n).ctx ∧
        (1 < m → (t.slotAt n).run = .waiting (.drain (m - 1))) ∧
        (m ≤ 1 → (t.slotAt n).run = .runnable ∧ (t.slotAt n).prog.drained = true))

/-! ## Synchronisation (09_synchronisation) -/

/-- R197, R198: RSV of a word whose home is the executing core's, with an empty queue and room there, makes the thread its holder: the entry
is queued, the destination gets the word's value zero-extended, and the count in the mode byte rises by one. It leaves no word fetched
ahead (R69, R178, R199; that it drops them all is the model's choice, log entry 109). Memory stands. -/
def Rules.Reserves : Prop :=
  ∀ (s : State) (g : Guard) (d a : Reg) (z : DSize) (o : BitVec 9) (pl : Place),
    s.Performs g 0 true → s.TrailRoom → s.slot.open_ = false → s.onDevice (s.g a + .ofInt 64 (o.toInt * dsizeBytes z)) = true →
    s.access (s.g a + .ofInt 64 (o.toInt * dsizeBytes z)) (dsizeBytes z) { r := true, w := true, n := true } = .ok (.here pl) →
    pl.home = s.coreIdx → s.badAt pl.phys = false → s.ctx.rsvn < 4 → s.queueAt pl.phys = [] →
    (s.reservations.filter fun e => homeId e.pl == homeId pl).length < 64 →
    ∃ t, exec (.rsv g d a z o) s = .next t ∧ t.g d = .ofNat 64 (s.mem.read pl.phys (dsizeBytes z)) ∧
      (∀ n, n ≠ d → t.g n = s.g n) ∧ t.ctx.rsvn = s.ctx.rsvn + 1 ∧ t.ctx.priv = s.ctx.priv ∧ SameMem s t ∧ t.slot.ahead = [] ∧
      t.reservations = s.reservations ++
        [⟨s.slot.part, s.g a + .ofInt 64 (o.toInt * dsizeBytes z), pl, z, s.ctx.taskIdx, s.cur⟩] ∧ t.ctx.pc = s.nextPc

/-- R198, R197: RSV with four reservations held, or with a choice point open, raises RSV-MISUSE or CHOICE-ESCAPE, and nothing is queued. -/
def Rules.ReserveTraps : Prop :=
  ∀ (s : State) (g : Guard) (d a : Reg) (z : DSize) (o : BitVec 9) (w : Win),
    s.Performs g 0 true →
    (s.slot.open_ = true → exec (.rsv g d a z o) s = .next (s.counted.trap 0x12 (s.g a + .ofInt 64 (o.toInt * dsizeBytes z)))) ∧
    (s.slot.open_ = false → s.onDevice (s.g a + .ofInt 64 (o.toInt * dsizeBytes z)) = true → s.ctx.rsvn = 4 →
      s.checks5 (s.g a + .ofInt 64 (o.toInt * dsizeBytes z)) (dsizeBytes z) { r := true, w := true, n := true } = .ok w →
      exec (.rsv g d a z o) s = .next (s.counted.trap 0x0D (s.g a + .ofInt 64 (o.toInt * dsizeBytes z))))

/-- What RLS and RLSN release: guard, address base and offset, size, and the value that RLS writes (R199). -/
def releaseOf (s : State) : Instr → Option (Guard × Word × DSize × Option Nat)
  | .rls g d a z o =>
    some (g, s.g a + .ofInt 64 (o.toInt * dsizeBytes z), z, some ((s.g d).toNat % 2 ^ (8 * dsizeBytes z)))
  | .rlsn g a z o => some (g, s.g a + .ofInt 64 (o.toInt * dsizeBytes z), z, none)
  | _ => none

/-- R199: RLS and RLSN of a word that the thread holds, at the executing core, with no waiter behind it and the drain done: the entry is
freed, RLS writes the word and RLSN leaves memory as it is, and the count falls by one. An RLS whose line fails its check raises
ECC-UNCORRECTABLE (R73). -/
def Rules.Releases : Prop :=
  ∀ (s : State) (i : Instr) (g : Guard) (va : Word) (z : DSize) (x : Option Nat) (pl : Place) (e : Reservation),
    releaseOf s i = some (g, va, z, x) → s.Performs g 0 false → s.slot.open_ = false → s.Drained .dev →
    s.slot.prog.drained = false → s.access va (dsizeBytes z) { w := true, n := true } = .ok (.here pl) → pl.home = s.coreIdx →
    s.queueAt pl.phys = [e] → e.part = s.slot.part → e.key = s.ctx.taskIdx → e.z = z → 0 < s.ctx.rsvn →
    (s.badAt pl.phys = true → x ≠ none → exec i s = .next (s.counted.trap 0x17 va)) ∧
    (s.badAt pl.phys = false ∨ x = none → ∃ t, exec i s = .next t ∧ t.reservations = s.reservations.erase e ∧
      t.ctx.rsvn = s.ctx.rsvn - 1 ∧ (∀ n, t.g n = s.g n) ∧ t.ctx.pc = s.nextPc ∧
      (∀ v, x = some v → t.mem.read pl.phys (dsizeBytes z) = v ∧ SameMemBut s t pl.phys (dsizeBytes z)) ∧
      (x = none → SameMem s t))

/-- R199: a release by any but the head of the word's queue, or with another size, raises RSV-MISUSE and changes nothing. -/
def Rules.ReleaseMisuse : Prop :=
  ∀ (s : State) (i : Instr) (g : Guard) (va : Word) (z : DSize) (x : Option Nat) (pl : Place),
    releaseOf s i = some (g, va, z, x) → s.Performs g 0 false → s.slot.open_ = false → s.Drained .dev →
    s.slot.prog.drained = false → s.access va (dsizeBytes z) { w := true, n := true } = .ok (.here pl) → pl.home = s.coreIdx →
    (∀ e ∈ (s.queueAt pl.phys).head?, ¬ (e.part = s.slot.part ∧ e.key = s.ctx.taskIdx ∧ e.z = z)) →
    exec i s = .next (s.counted.trap 0x0D va)

/-- R198, R201, R202: a refused RSV is sent again once its ticks have passed. An abandon packet removes every entry of its holder key and no
other, but for waiters whose line fails its check and which are answered with that (R198); it leaves memory as it is, and lets the thread
that ends go on with no reservation held. -/
def Rules.ReservationEvents : Prop :=
  ∀ (s : State) (k n t₀ : Nat) (p : Fin 8) (key : Half),
    ((s.slotAt n).run = .waiting (.resend t₀) → t₀ ≤ s.refcnt →
      exec (.rsvResend n) s = .next (s.setSlotAt n { s.slotAt n with run := .runnable })) ∧
    (s.net[k]? = some ⟨p, .abandon n key⟩ →
      ∃ t, exec (.abandonPacket k) s = .next t ∧ SameMem s t ∧ (t.slotAt n).run = .runnable ∧ (t.slotAt n).ctx.rsvn = 0 ∧
        (∀ e ∈ t.reservations, e ∈ s.reservations ∧ ¬ (e.part = p ∧ e.key = key)) ∧
        (∀ e ∈ s.reservations, ¬ (e.part = p ∧ e.key = key) → s.badAt e.pl.phys = false → e ∈ t.reservations))

/-- R204: LAMO on a word of the executing core's store, its checks 1 to 5 passed: the word becomes the operation's result on the old value
and g[b], of 4 or 8 bytes, the destination gets the old value sign-extended, and no other byte and no other register changes. -/
def Rules.LocalAtomics : Prop :=
  ∀ (s : State) (g : Guard) (d a b : Reg) (o : AOp) (z : DSize) (pl : Place),
    s.Performs g 0 false → s.slot.open_ = false →
    (∃ w, s.checks5 (s.g a) (dsizeBytes z) { r := true, w := true, n := true } = .ok w) →
    s.ownWord (s.g a) = some pl → s.badAt pl.phys = false →
    ∃ t, exec (.lamo g d a b o z) s = .next t ∧
      t.g d = (BitVec.ofNat (8 * dsizeBytes z) (s.mem.read pl.phys (dsizeBytes z))).signExtend 64 ∧
      (∀ n, n ≠ d → t.g n = s.g n) ∧ (∀ n, t.p n = s.p n) ∧ t.ctx.pc = s.nextPc ∧ SameMemBut s t pl.phys (dsizeBytes z) ∧
      t.mem.read pl.phys (dsizeBytes z) = atomicNew o (dsizeBytes z) (s.mem.read pl.phys (dsizeBytes z))
        ((s.g b).toNat % 2 ^ (8 * dsizeBytes z)) ((s.g d).toNat % 2 ^ (8 * dsizeBytes z)) % 256 ^ dsizeBytes z

/-- R204: what each operation of LAMO and of the host's atomics makes of an old value and an operand of n bytes. -/
def Rules.AtomicValues : Prop :=
  ∀ (n old y cmp : Nat), old < 2 ^ (8 * n) → y < 2 ^ (8 * n) → 0 < n →
    atomicNew .add n old y cmp = (old + y) % 2 ^ (8 * n) ∧ atomicNew .and n old y cmp = old &&& y ∧
    atomicNew .or n old y cmp = old ||| y ∧ atomicNew .xor n old y cmp = old ^^^ y ∧ atomicNew .swap n old y cmp = y ∧
    (old = cmp → atomicNew .cas n old y cmp = y) ∧ (old ≠ cmp → atomicNew .cas n old y cmp = old) ∧
    (BitVec.ofNat (8 * n) (atomicNew .min n old y cmp)).toInt =
      min (BitVec.ofNat (8 * n) old).toInt (BitVec.ofNat (8 * n) y).toInt ∧
    (BitVec.ofNat (8 * n) (atomicNew .max n old y cmp)).toInt =
      max (BitVec.ofNat (8 * n) old).toInt (BitVec.ofNat (8 * n) y).toInt

/-- R206, R208: MON arms a line at its home core when an entry is free; MOFF disarms the entry that holds the line, if there is one. -/
def Rules.Monitors : Prop :=
  ∀ (s : State) (g : Guard) (a : Reg), s.Performs g 0 false →
    (∀ pl w, s.checks5 (s.g a) 1 { r := true, n := true } = .ok w → s.onDevice (s.g a) = true →
      s.slot.monitorOf (vline (s.g a)) = none → s.slot.monitors.toList.all (·.isSome) = false →
      s.access (s.g a) 1 { r := true, n := true } = .ok (.here pl) → pl.home = s.coreIdx →
      pl.phys < 2 ^ 512 → ∃ t, exec (.mon g a) s = .next t ∧ some ⟨vline (s.g a), pl.phys / 64, false⟩ ∈ t.slot.monitors.toList ∧ SameMem s t ∧
        s.cluster ∈ Table.get [] t.watchers (pl.phys / 64) ∧ (∀ n, t.g n = s.g n) ∧ t.ctx.pc = s.nextPc) ∧
    (∃ t, exec (.moff g a) s = .next t ∧ SameMem s t ∧ (∀ n, t.g n = s.g n) ∧ t.ctx.pc = s.nextPc ∧
      t = { s with slots := t.slots } ∧ (s.slot.monitorOf (vline (s.g a)) = none → t.slot.monitors = s.slot.monitors) ∧
      ∀ k, s.slot.monitorOf (vline (s.g a)) = some k → t.slot.monitors.toList[k]? = some none)

/-- R207: MWAIT with a fired monitor returns at once with the flags that were set in [3:0] and clears them; with none, it leaves the
rotation with its deadline, counted from issue, or with none when g[a][31:0] is 0. -/
def Rules.MonitorWaits : Prop :=
  ∀ (s : State) (g : Guard) (d a : Reg), s.Performs g 0 true → s.slot.prog.int = false →
    (s.slot.fired ≠ 0 → s.TrailRoom →
      ∃ t, exec (.mwait g d a) s = .next t ∧ t.g d = .ofNat 64 s.slot.fired ∧ t.slot.fired = 0 ∧
        (∀ n, n ≠ d → t.g n = s.g n) ∧ t.ctx.pc = s.nextPc ∧ t = { s with slots := t.slots }) ∧
    (s.slot.fired = 0 → ∃ t, exec (.mwait g d a) s = .next t ∧ t.ctx = s.ctx ∧ t = { s with slots := t.slots } ∧
      t.slot.run = .waiting (.monitor
        (if (s.g a).toNat % 2 ^ 32 = 0 then none else some (s.refcnt + (s.g a).toNat % 2 ^ 32))))

/-- R205, R207: a notice fires every entry on its line in its cluster's slots, leaves the other entries, and ends the wait of a slot in MWAIT
that has such an entry; a timeout ends a wait. -/
def Rules.MonitorEvents : Prop :=
  ∀ (s : State) (k n r line t₀ : Nat) (p : Fin 8),
    (s.net[k]? = some ⟨p, .notice line r⟩ → n / 256 = r →
      (∃ m ∈ (s.slotAt n).monitors.toList, ∃ e, m = some e ∧ e.home = line) →
      ∃ t, exec (.monitorNotice k) s = .next t ∧ t.net = s.net.eraseIdx k ∧ t = { s with net := t.net, slots := t.slots } ∧
        t.slotAt n = { s.slotAt n with run := (t.slotAt n).run, monitors := (t.slotAt n).monitors } ∧
        (∀ m ∈ (t.slotAt n).monitors.toList, ∀ e, m = some e → e.home = line → e.fired = true) ∧
        (∀ (j : Nat) (e : Monitor), (s.slotAt n).monitors.toList[j]? = some (some e) → e.home ≠ line →
          (t.slotAt n).monitors.toList[j]? = some (some e)) ∧
        (∀ u, (s.slotAt n).run = .waiting (.monitor u) → (t.slotAt n).run = .runnable)) ∧
    ((s.slotAt n).run = .waiting (.monitor (some t₀)) → t₀ ≤ s.refcnt →
      exec (.mwaitTimeout n) s = .next (s.setSlotAt n { s.slotAt n with run := .runnable }))

/-- R210: BARI with a legal id and configuration sends its registration to its cluster router and waits for phase 0; its thread is not
changed otherwise. -/
def Rules.BarrierRegisters : Prop :=
  ∀ (s : State) (g : Guard) (a b : Reg), s.Performs g 0 true → s.slot.open_ = false → (s.g a).toNat < s.share64 →
    (s.g b).toNat < 2 ^ 18 → 1 ≤ barN (s.g b) →
    barN (s.g b) ≤ (s.ordinary s.slot.part).length * s.scopeCores s.slot.part (barScope (s.g b)) →
    (s.resident = true ∨ barScope (s.g b) = .core ∨ barScope (s.g b) = .clu) →
    ∃ t, exec (.bari g a b) s = .next t ∧ t.ctx = s.ctx ∧ SameMem s t ∧
      t.slot.run = .waiting (.opening (s.slot.part.val * s.share64 + (s.g a).toNat)) ∧
      t.net = s.net ++ [⟨s.slot.part, .barReg s.cluster s.cur (s.slot.part.val * s.share64 + (s.g a).toNat) (s.g b)⟩]

/-- R213: an id that the partition may not use raises BARRIER-MISUSE with TVAL = g[a], for each of the four instructions. -/
def Rules.BarrierMisuse : Prop :=
  ∀ (s : State) (i : Instr) (g : Guard) (a d : Reg),
    (i = .bari g a d ∨ i = .bara g d a ∨ i = .bard g d a ∨ i = .barw g a d) → s.Performs g 0 true →
    s.slot.open_ = false → s.share64 ≤ (s.g a).toNat → exec i s = .next (s.counted.trap 0x1D (s.g a))

/-- R211: BARA and BARD, their drain done, send one arrival packet, which BARD's drop rides with, and continue with the number of the phase
arrived at in g[d]: the one after the last that is complete once the barrier's packets on their way to the router have come. -/
def Rules.BarrierArrives : Prop :=
  ∀ (s : State) (i : Instr) (g : Guard) (d a : Reg) (b : Barrier) (drops : Nat),
    (i = .bara g d a ∧ drops = 0 ∨ i = .bard g d a ∧ drops = 1) → s.Performs g 0 true → s.TrailRoom → s.slot.open_ = false →
    s.slot.prog.drained = false → s.barHere (s.g a) = some b → s.Drained (barScope b.config) →
    ∃ t, exec i s = .next t ∧ (∀ n, n ≠ d → t.g n = s.g n) ∧
      t.g d = .ofNat 64 ((((s.barAfter s.cluster (s.slot.part.val * s.share64 + (s.g a).toNat)).getD b).phase.toNat + 1) % 2 ^ 16) ∧
      ((∀ q ∈ s.net, (∀ c ph o, q.body ≠ .barDone s.cluster c ph o) ∧ ∀ c port m dr, q.body ≠ .barArr s.cluster c port m dr) →
        t.g d = .ofNat 64 ((b.phase.toNat + 1) % 2 ^ 16)) ∧
      t.ctx.pc = s.nextPc ∧ SameMem s t ∧
      t.net = s.net ++ [⟨s.slot.part, .barArr s.cluster (s.slot.part.val * s.share64 + (s.g a).toNat) s.coreIdx 1 drops⟩]

/-- R212: BARW returns when (c − q) mod 2^16 < 2^15 for the last completed phase c, as an acquire that leaves no word fetched ahead (R69), and
leaves the rotation otherwise; on a context whose launch has lost tasks it raises BARRIER-MISUSE in place of waiting (R232). That it drops
every word fetched ahead is the model's choice (log entry 109). -/
def Rules.BarrierWaits : Prop :=
  ∀ (s : State) (g : Guard) (a b : Reg) (c : Barrier), s.Performs g 0 true → s.slot.open_ = false → s.barHere (s.g a) = some c →
    ((c.phase.toNat + 2 ^ 16 - (s.g b).toNat % 2 ^ 16) % 2 ^ 16 < 2 ^ 15 →
      exec (.barw g a b) s = .next (s.completes { s.slot with ahead := [] })) ∧
    (2 ^ 15 ≤ (c.phase.toNat + 2 ^ 16 - (s.g b).toNat % 2 ^ 16) % 2 ^ 16 →
      (s.broken s.slot.part c.launch = false → exec (.barw g a b) s = .next (s.parks (.barw g a b)
        (.phase (s.slot.part.val * s.share64 + (s.g a).toNat) ((s.g b).setWidth 16)) none)) ∧
      (s.broken s.slot.part c.launch = true → exec (.barw g a b) s = .next (s.counted.trap 0x1D (s.g a))))

/-- R210: a registration packet goes on to its root. There it counts, and the last one of N opens phase 0 and tells the root's own waiters and
every router below that it has marked; one whose configuration differs, or whose context is already open, is answered with
BARRIER-MISUSE and the id (R213), and the context stays. -/
def Rules.BarrierPackets : Prop :=
  ∀ (s : State) (k n r c : Nat) (p : Fin 8) (w : Word) (b : Barrier), s.net[k]? = some ⟨p, .barReg r n c w⟩ →
    (r ≠ s.barRoot (slotKey n / 256) (barScope w) → exec (.barrierRegistration k) s =
      .next { s with net := s.net.eraseIdx k ++ [⟨p, .barReg (s.barRoot (slotKey n / 256) (barScope w)) n c w⟩] }) ∧
    (r = s.barRoot (slotKey n / 256) (barScope w) → s.barAt r c = some b →
      (b.config ≠ w ∨ b.opened = true → exec (.barrierRegistration k) s = .next { s with net := s.net.eraseIdx k ++
        [⟨p, .reply n (.fail 0x1D (.ofNat 64 (c - p.val * s.share64))) .none⟩] }) ∧
      (b.config = w → b.opened = false → s.broken p b.launch = false →
        ∃ t e, exec (.barrierRegistration k) s = .next t ∧ t.barAt r c = some e ∧ e.registered = b.registered + 1 ∧
          e.config = w ∧ e.phase = b.phase ∧ t.mem = s.mem ∧ t.slots = s.slots ∧
          e.opened = decide (barN w ≤ b.registered + 1) ∧ (b.registered + 1 < barN w → t.net = s.net.eraseIdx k) ∧
          (barN w ≤ b.registered + 1 → ∀ q, q = r ∨ (∃ x ∈ e.ports, x.port = 2048 + q) →
            ⟨p, .barDone q c 0xFFFF true⟩ ∈ t.net)))

/-- The context when `m` arrivals and `d` drops have come in by a port (R211). -/
def Barrier.came (b : Barrier) (port m d : Nat) : Barrier :=
  { b with ports := b.ports.map fun q => if q.port = port then { q with arrived := q.arrived + m, drops := q.drops + d } else q }

/-- R211: how a context turns to its next phase: the participants that have dropped leave, ports with none left are unmarked, arrivals
are counted anew, and the context has the new phase number. -/
def Rules.BarrierTurns : Prop :=
  ∀ (b : Barrier) (phase : BitVec 16),
    b.turn phase = { b with ports := (b.turn phase).ports, phase := phase, reported := false } ∧
    ∀ q, q ∈ (b.turn phase).ports ↔ ∃ x ∈ b.ports, x.drops < x.members ∧
      q = { x with members := x.members - x.drops, arrived := 0, drops := 0 }

/-- R211: an arrival packet counts at the port that it came in by; one by a port that is not marked counts at none (the model's choice,
log entry 119). Where a port is still short, nothing is sent. At a router below the root where every marked port has now reported its
participants, one packet goes up with all of them and their drops; a drop that comes after that goes up by itself. The root completes
the phase: its context turns to the next, and it tells its own waiters and every router below that it has marked, and no other. -/
def Rules.BarrierArrivals : Prop :=
  ∀ (s : State) (k r c port m d : Nat) (p : Fin 8) (b e : Barrier), s.net[k]? = some ⟨p, .barArr r c port m d⟩ →
    s.barAt r c = some b → e = b.came port m d → e.ports ≠ [] →
    ((∃ q ∈ e.ports, q.arrived < q.members) → e.reported = false → ∃ t, exec (.barrierArrival k) s = .next t ∧ t.barAt r c = some e ∧
      t = { s with net := s.net.eraseIdx k, ports := t.ports }) ∧
    ((∀ q ∈ e.ports, q.members ≤ q.arrived) → r = s.barRoot r (barScope b.config) →
      ∃ t l, exec (.barrierArrival k) s = .next t ∧ t.barAt r c = some (e.turn (b.phase + 1)) ∧
        t = { s with net := s.net.eraseIdx k ++ l, ports := t.ports } ∧
        ∀ x, x ∈ l ↔ ∃ q, x = ⟨p, .barDone q c (b.phase + 1) false⟩ ∧ (q = r ∨ ∃ y ∈ e.ports, y.port = 2048 + q)) ∧
    (r ≠ s.barRoot r (barScope b.config) →
      (e.reported = false → (∀ q ∈ e.ports, q.members ≤ q.arrived) →
        ∃ t, exec (.barrierArrival k) s = .next t ∧ t.barAt r c = some { e with reported := true } ∧
          t = { s with ports := t.ports, net := s.net.eraseIdx k ++ [⟨p, .barArr (s.barRoot r (barScope b.config)) c (2048 + r)
            (e.ports.map (·.members)).sum (e.ports.map (·.drops)).sum⟩] }) ∧
      (e.reported = true →
        ∃ t, exec (.barrierArrival k) s = .next t ∧ t.barAt r c = some e ∧
          t = { s with ports := t.ports, net := s.net.eraseIdx k ++
            (if d ≠ 0 ∧ ∃ q ∈ e.ports, q.port = port then [⟨p, .barArr (s.barRoot r (barScope b.config)) c (2048 + r) d d⟩] else []) }))

/-- R210, R211, R212: a completion opens a context's phase 0, or turns that of a router below the root to the next phase; the root's has
turned already, and with no participant left it is freed. The slots of that router which wait in BARW for a phase that is
now complete run on, and those in BARI for the opening of phase 0. -/
def Rules.BarrierCompletions : Prop :=
  ∀ (s : State) (k n r c : Nat) (p : Fin 8) (b : Barrier) (phase : BitVec 16) (opening : Bool),
    s.net[k]? = some ⟨p, .barDone r c phase opening⟩ → s.barAt r c = some b →
    ∃ t, exec (.barrierCompletion k) s = .next t ∧ SameMem s t ∧ t.net = s.net.eraseIdx k ∧
      (opening = true → b.ports ≠ [] → t.barAt r c = some { b with opened := true }) ∧
      (opening = false → r ≠ s.barRoot r (barScope b.config) → t.barAt r c = some (b.turn phase)) ∧
      (opening = false → r = s.barRoot r (barScope b.config) → t.barAt r c = if b.ports = [] then none else some b) ∧
      (n / 256 = r → (s.slotAt n).part = p →
        (∀ q, (s.slotAt n).run = .waiting (.phase c q) →
          (t.slotAt n).run = if (phase.toNat + 2 ^ 16 - q.toNat) % 2 ^ 16 < 2 ^ 15 then .runnable else .waiting (.phase c q)) ∧
        ((s.slotAt n).run = .waiting (.opening c) → (t.slotAt n).run = if opening then .runnable else .waiting (.opening c)))

/-! ## Threads, tasks and messages (10_thread) -/

/-- The thread that acts goes on with a word in progress, whose blocks have been read (R294). -/
abbrev State.Resumes (s : State) (got : List Vec) : Prop := s.slot.prog.word.isSome = true ∧ s.slot.prog.got = got

/-- R235: EXIT frees its slot; TNEXT holds it while its core's list has tasks that have not started, and else frees it, as it does for a
spawned thread. Every other slot stays. -/
def Rules.ThreadEnds : Prop :=
  ∀ (s : State) (g : Guard), s.MayEnd →
    (s.Performs g 0 false → ∃ t, exec (.exit g) s = .next t ∧
      t.slotAt s.cur = { part := s.slot.part, ready := s.slot.ready, gen := s.slot.gen } ∧
      ∀ m, m ≠ s.cur → t.slotAt m = s.slotAt m) ∧
    (s.Performs g 0 true → ∃ t, exec (.tnext g) s = .next t ∧
      t.slotAt s.cur = { part := s.slot.part, ready := s.slot.ready, gen := s.slot.gen
                         run := if s.slot.spawned = false ∧ s.listed s.slot.part s.coreIdx = true then .held else .free } ∧
      ∀ m, m ≠ s.cur → t.slotAt m = s.slotAt m)

/-- R236: YIELD and SLEEP take the thread out of the rotation, for 16 cycles and for g[a][31:0] reference ticks, and change nothing else; a
SLEEP of 0 is no wait. -/
def Rules.TimedWaits : Prop :=
  ∀ (s : State) (g : Guard) (a : Reg), s.Performs g 0 true →
    exec (.yield g) s = .next (s.parks (.yield g) (.yield (s.cycles s.cluster + 16)) none) ∧
    ((s.g a).toNat % 2 ^ 32 ≠ 0 →
      exec (.sleep g a) s = .next (s.parks (.sleep g a) (.sleep (s.refcnt + (s.g a).toNat % 2 ^ 32)) none)) ∧
    ((s.g a).toNat % 2 ^ 32 = 0 → exec (.sleep g a) s = .next (s.completes s.slot))

/-- R236, R389: the end of a YIELD's or a SLEEP's wait completes its word, with its end check, makes the thread runnable and changes nothing
else; before its cycle or its tick nothing happens, and a stop holds a SLEEP's end. -/
def Rules.TimedWaitsEnd : Prop :=
  ∀ (s : State) (n c : Nat),
    let ended := s.setSlotAt n { s.slotAt n with
      run := .runnable, ctx := (s.slotAt n).ctx.endCheck (s.slotAt n).ctx.pc, prog := {} }
    ((s.slotAt n).run = .waiting (.yield c) →
      exec (.yieldExpiry n) s = .next (if c ≤ s.cycles (n / 256) then ended else s)) ∧
    ((s.slotAt n).run = .waiting (.sleep c) →
      exec (.sleepExpiry n) s =
        .next (if c ≤ s.refcnt ∧ (s.partAt (s.slotAt n).part).stopping = false then ended else s))

/-- R236, R367: ANCHOR and ROAM set and clear the mode byte's ANCH, no other field of it, and nothing else. -/
def Rules.AnchorAndRoam : Prop :=
  ∀ (s : State) (i : Instr) (g : Guard) (b : Bool), (i = .anchor g ∧ b = true ∨ i = .roam g ∧ b = false) → s.Performs g 0 false →
    ∃ m, exec i s = .next (s.completes { s.slot with ctx := { s.ctx with mode := m } }) ∧
      let c : Ctx := { mode := m }
      c.anch = b ∧ c.priv = s.ctx.priv ∧ c.pol = s.ctx.pol ∧ c.slip = s.ctx.slip ∧ c.rsvn = s.ctx.rsvn

/-- R236: WHO gives device, partition, core, slot and ANCH in their fields. -/
def Rules.WhoGives : Prop :=
  ∀ (s : State) (g : Guard) (d : Reg), s.Performs g 0 false → s.TrailRoom → s.ownIdx < 2 ^ 13 → s.cur < 2 ^ 15 →
    ∃ t, exec (.who g d) s = .next t ∧ RegFrame s t [d] [] ∧ t.ctx.pc = s.nextPc ∧
      (t.g d).toNat / 2 ^ 48 = s.ownIdx ∧ (t.g d).toNat / 2 ^ 32 % 2 ^ 16 = s.slot.part.val ∧
      (t.g d).toNat / 2 ^ 19 % 2 ^ 13 = s.cur / 16 ∧ (t.g d).toNat / 16 % 2 ^ 15 = s.cur % 16 ∧
      (t.g d).toNat % 16 = s.ctx.anch.toNat

/-- R236, R370: MIGR to the thread's own core, or in a supervisor handler, makes its checks and goes on at PC + 4 without moving; to
another core, with no window cached and settled, the thread leaves its slot in a migration packet with its word done, and nothing else
changes; a W4 address raises SEG-BOUND, and one on another device is first asked for at that device (R139). -/
def Rules.Migrates : Prop :=
  ∀ (s : State) (g : Guard) (a : Reg), s.Performs g 0 false → s.slot.open_ = false → (s.slot.dataSeg (s.g a)).isSome = true →
    (∀ pl, s.locate s.coreIdx s.slot.part (s.g a) 1 0 = .ok (.here pl) →
      (pl.home = s.coreIdx ∨ s.slot.inh = true → exec (.migr g a) s = .next (s.completes s.slot)) ∧
      (pl.home ≠ s.coreIdx → s.slot.inh = false → s.slot.windows = [] → s.slot.unacked = 0 → s.slot.handler = false →
        exec (.migr g a) s = .next ((s.send s.slot.part (.migration pl.home { s.slot.pack none with
            ctx := s.ctx.endCheck s.ctx.pc, core := s.coreIdx, va := s.g a, undo := some (s.ctx.pc, s.ctx.loops) })).setSlot
          { part := s.slot.part, ready := s.slot.ready, gen := s.slot.gen }))) ∧
    (∀ v, s.locate s.coreIdx s.slot.part (s.g a) 1 0 = .ok (.reg v) → exec (.migr g a) s = .next (s.counted.trap 0x03 (s.g a))) ∧
    (∀ d, s.locate s.coreIdx s.slot.part (s.g a) 1 0 = .ok (.away d) → winOf (localAddr (s.g a)) ≠ some .w4 →
      s.slot.inh = false → s.slot.prog.route = none →
      ∃ t, exec (.migr g a) s = .next t ∧ t.slot.run = .waiting .reply ∧ t.slot.prog.fin = some .route ∧ t.ctx = s.ctx ∧
        t = { s with slots := t.slots, dev := t.dev })

/-- R237, R228: SPAWN with a free ordinary slot starts a child there, which may issue from the parent's next issue opportunity on; with none
it gives all ones and starts nothing. -/
def Rules.Spawns : Prop :=
  ∀ (s : State) (g : Guard) (d a b : Reg), s.Performs g 0 true → s.slot.open_ = false → s.TrailRoom →
    (s.freeSlot s.coreIdx s.slot.part = none →
      ∃ t, exec (.spawn g d a b) s = .next t ∧ t.g d = .allOnes 64 ∧ RegFrame s t [d] [] ∧ t.ctx.pc = s.nextPc) ∧
    (∀ n, s.freeSlot s.coreIdx s.slot.part = some n → n ≠ s.cur →
      ∃ t, exec (.spawn g d a b) s = .next t ∧ t.g d = .ofNat 64 (n % 16) ∧ (∀ m, m ≠ d → t.g m = s.g m) ∧ t.ctx.pc = s.nextPc ∧
        t = { s with slots := t.slots, parts := t.parts } ∧ (∀ m, m ≠ n → m ≠ s.cur → t.slotAt m = s.slotAt m) ∧
        (t.slotAt n).run = .runnable ∧ s.cycles s.cluster + 4 ≤ (t.slotAt n).ready ∧ (t.slotAt n).ctx.pc = s.g a ∧
        (∀ m : Reg, m.val < 8 → (t.slotAt n).ctx.g[m] = s.g m) ∧ (t.slotAt n).ctx.g[15] = 0 ∧
        (t.slotAt n).ctx.rsvn = 0 ∧ (t.slotAt n).ctx.priv = s.ctx.priv ∧ (t.slotAt n).ctx.rel = s.ctx.rel ∧
        (t.slotAt n).ctx.vis = s.ctx.vis ∧ (t.slotAt n).ctx.ord.toNat = (s.g b).toNat % 2 ^ 32 * 2 ^ 16 ∧
        (t.slotAt n).ctx.wsp = s.stackTop s.slot.part n ∧ (t.slotAt n).v = .replicate 16 0 ∧ (t.slotAt n).task = s.slot.task)

/-- R238, R222: SEND, its block read and its drain done, puts the message with its header in flight to the home core of g[a] and waits for
the answer; ORD and the predicate wait for it, and nothing else changes. -/
def Rules.Sends : Prop :=
  ∀ (s : State) (g : Guard) (p : Pred) (a b : Reg) (h : Bool) (m : Vec) (pl : Place), s.Resumes [m] → s.slot.open_ = false →
    s.ctx.seqNo ≠ 0xFFFF → s.locate s.coreIdx s.slot.part (s.g a) 1 1 = .ok (.here pl) → s.Drained (scopeOf s.coreIdx pl.home) →
    s.slot.prog.drained = false →
    exec (.send g p a b h) s = .next ((s.send s.slot.part (.message (s.g a) pl.home h
        (withHeader m (header h 0 s.ownIdx s.ctx.taskIdx s.ctx.seqNo)) (.slot s.cur))).setSlot { s.slot with
      run := .waiting .reply, prog := { s.slot.prog with word := encodeWord (.send g p a b h), fin := some (.send p) } })

/-- R222: the fields of a header. -/
def Rules.HeaderFields : Prop :=
  ∀ (hi : Bool) (kind dev : Nat) (task : Half) (seq : BitVec 16), kind < 4 → dev < 2 ^ 13 →
    (header hi kind dev task seq).toNat / 2 ^ 63 = hi.toNat ∧ (header hi kind dev task seq).toNat / 2 ^ 61 % 4 = kind ∧
      (header hi kind dev task seq).toNat / 2 ^ 48 % 2 ^ 13 = dev ∧
      (header hi kind dev task seq).toNat / 2 ^ 16 % 2 ^ 32 = task.toNat ∧ (header hi kind dev task seq).toNat % 2 ^ 16 = seq.toNat ∧
      (dev ≠ 0x1FFF → header hi kind dev task seq ≠ .allOnes 64)

/-- INBOX and TWAIT: guard, destination, buffer address and key (R238). -/
def takeOf (s : State) : Instr → Option (Guard × Reg × Word × Option (BitVec 61))
  | .inbox g d a => some (g, d, s.g a, none)
  | .twait g d a b => some (g, d, s.g b, some (.ofNat 61
      (if (s.g a).toNat / 2 ^ 48 % 2 ^ 13 = 0x1FFF then s.ownIdx * 2 ^ 48 + (s.g a).toNat % 2 ^ 48 else (s.g a).toNat)))
  | _ => none

/-- R238: INBOX and TWAIT with a message to take and a buffer at the executing core write the 64 bytes there and give its header; the message
leaves the inbox, and stays there when the buffer's line fails its check (R73). A buffer elsewhere is written by request, with the message
marked until the answer. With none to take they wait, with nothing written. As an acquire, each leaves no word fetched ahead (the model's
choice, log entry 109). -/
def Rules.MessagesTaken : Prop :=
  ∀ (s : State) (i : Instr) (g : Guard) (d : Reg) (va : Word) (key : Option (BitVec 61)), takeOf s i = some (g, d, va, key) →
    s.Performs g 0 true → s.slot.open_ = false →
    let u := s.coreAt s.coreIdx
    (∀ m v, u.takeMessage s.slot.part key = some (m, v) →
      (∀ e ∈ u.high ++ u.low, e.part = s.slot.part → e.m = m → e.running = false) →
      (∀ pl, s.access va 64 { w := true, n := true } = .ok (.here pl) → pl.home = s.coreIdx →
        (s.badAt pl.phys = false →
          ∃ t, exec i s = .next t ∧ t.g d = dw m 1 ∧ (∀ n, n ≠ d → t.g n = s.g n) ∧ t.mem.read pl.phys 64 = m.toNat ∧
            SameMemBut s t pl.phys 64 ∧ t.coreAt s.coreIdx = v ∧ t.slot.ahead = [] ∧ t.ctx.pc = s.nextPc) ∧
        (s.badAt pl.phys = true → s.slot.inh = false → s.part.regs.tvec ≠ 0 →
          ∃ t, exec i s = .next t ∧ t.coreAt s.coreIdx = u ∧ SameMem s t ∧ t.slot.cause = 0x17 ∧ t.slot.tval = va)) ∧
      (∀ x, s.access va 64 { w := true, n := true } = .ok x → (∀ pl, x = .here pl → pl.home ≠ s.coreIdx) →
        ∃ t, exec i s = .next t ∧ t.slot.run = .waiting .reply ∧ t.slot.prog.fin = some (.took d m) ∧ t.ctx = s.ctx ∧
          SameMem s t ∧ t.coreAt s.coreIdx = u.holdMessage s.slot.part key)) ∧
    (u.takeMessage s.slot.part key = none → exec i s = .next (s.parks i (key.elim .inbox .key) none))

/-- R238: a message taken is the partition's oldest that meets the test, high inbox first. -/
def Rules.MessageOrder : Prop :=
  ∀ (u u' : CoreUnit) (p : Fin 8) (key : Option (BitVec 61)) (m : Vec), u.takeMessage p key = some (m, u') →
    (∃ j, ∃ x, u.high[j]? = some x ∧ x.m = m ∧ x.takes p key = true ∧ (∀ k y, k < j → u.high[k]? = some y → y.takes p key = false) ∧
      u'.high = u.high.eraseIdx j ∧ u'.low = u.low) ∨
    ((∀ y ∈ u.high, y.takes p key = false) ∧ ∃ j, ∃ x, u.low[j]? = some x ∧ x.m = m ∧ x.takes p key = true ∧
      (∀ k y, k < j → u.low[k]? = some y → y.takes p key = false) ∧ u'.low = u.low.eraseIdx j ∧ u'.high = u.high)

/-- R238: IPEEK gives the header of the message that INBOX would take, or all ones, and takes nothing. -/
def Rules.InboxPeeks : Prop :=
  ∀ (s : State) (g : Guard) (d : Reg), s.Performs g 0 false → s.TrailRoom →
    ∃ t, exec (.ipeek g d) s = .next t ∧ RegFrame s t [d] [] ∧ t.ctx.pc = s.nextPc ∧
      (∀ m, (s.coreAt s.coreIdx).takeMessage s.slot.part none = some m → t.g d = dw m.1 1) ∧
      ((s.coreAt s.coreIdx).takeMessage s.slot.part none = none → t.g d = .allOnes 64)

/-- R233, R239: LAUNCH, its descriptor read and its drain done, puts it at the end of the partition's queue of 64 and sets p[d]; LAUNCH.n
that finds the queue full clears p[d] and queues nothing, and LAUNCH.w, settled and with no window cached, is parked with its slot saved
and free, but with CTXB = 0 or in a supervisor handler does as LAUNCH.n (R370, R377). -/
def Rules.Launches : Prop :=
  ∀ (s : State) (g : Guard) (p : Pred) (a : Reg) (z : Bool) (m : Vec), s.Resumes [m] → s.slot.open_ = false →
    s.Drained .dev → s.slot.prog.drained = false →
    (s.part.queue.length < 64 → ∃ t, exec (.launch g p a z) s = .next t ∧ t.p p = true ∧ (∀ n, n ≠ p → t.p n = s.p n) ∧
      (∀ n, t.g n = s.g n) ∧ (t.partAt s.slot.part).queue = s.part.queue ++ [(m, s.coreIdx)] ∧ SameMem s t ∧ t.ctx.pc = s.nextPc) ∧
    (64 ≤ s.part.queue.length → z = false ∨ s.slot.inh = true ∨ s.part.regs.ctxb = 0 →
      ∃ t, exec (.launch g p a z) s = .next t ∧ t.p p = decide (p = 0) ∧ (∀ n, n ≠ p → t.p n = s.p n) ∧ (∀ n, t.g n = s.g n) ∧
        t.ctx.pc = s.nextPc ∧ t = { s with slots := t.slots }) ∧
    (64 ≤ s.part.queue.length → z = true → s.slot.inh = false → s.part.regs.ctxb ≠ 0 → s.slot.windows = [] → s.slot.unacked = 0 →
      (∃ pl, s.areaAt s.slot.part s.cur = .ok pl) →
      ∃ t th, exec (.launch g p a z) s = .next t ∧ (t.partAt s.slot.part).queue = s.part.queue ∧ th.ctx = s.ctx ∧
        th.word = none ∧ (t.partAt s.slot.part).parked = s.part.parked ++ [(s.coreIdx, th)] ∧ (t.slotAt s.cur).run = .free)

/-- R223, R238, R207, R380: a thread's message reaches an inbox where its partition's share has room: it enters last, and the sender is
answered 1; a slot of that core and partition that waits for it in INBOX runs on, one in IDLE has its wait ended, and one in MWAIT is
interrupted by a message of the high inbox. With no room the sender is answered 0 and nothing is delivered. -/
def Rules.MessagesDelivered : Prop :=
  ∀ (s : State) (k core n : Nat) (p : Fin 8) (va : Word) (hi : Bool) (m : Vec),
    s.net[k]? = some ⟨p, .message va core hi m (.slot n)⟩ → s.running p = true →
    (holdsOf p (if hi then (s.coreAt core).high else (s.coreAt core).low) < s.share64 →
      ∃ t, exec (.messageDelivery k) s = .next t ∧ SameMem s t ∧ ⟨p, .reply n (.ok 1) (.core core)⟩ ∈ t.net ∧
        (hi = true → (t.coreAt core).high = (s.coreAt core).high ++ [{ part := p, m := m }] ∧ (t.coreAt core).low = (s.coreAt core).low) ∧
        (hi = false → (t.coreAt core).low = (s.coreAt core).low ++ [{ part := p, m := m }] ∧ (t.coreAt core).high = (s.coreAt core).high) ∧
        ∀ j, j / 16 = core → (s.slotAt j).part = p →
          ((s.slotAt j).run = .waiting .inbox → dw m 0 = 0 → (t.slotAt j).run = .runnable) ∧
          ((s.slotAt j).run = .waiting .idle → (t.slotAt j).run = .runnable ∧ (t.slotAt j).prog = {}) ∧
          (∀ u, (s.slotAt j).run = .waiting (.monitor u) → hi = true →
            (t.slotAt j).run = .runnable ∧ (t.slotAt j).prog.int = true)) ∧
    (s.share64 ≤ holdsOf p (if hi then (s.coreAt core).high else (s.coreAt core).low) →
      exec (.messageDelivery k) s = .next { s with net := s.net.eraseIdx k ++ [⟨p, .reply n (.ok 0) (.core core)⟩] })

/-- R222: a handler starts in its message slot with the state that the rule lists. -/
def Rules.HandlerStarts : Prop :=
  ∀ (s : State) (core k j : Nat) (p : Fin 8) (m : Message), s.messageSlot p = some k → (s.slotAt (core * 16 + k)).run = .free →
    s.running p = true → nextHandler p (s.coreAt core).high = some j → (s.coreAt core).high[j]? = some m →
    ∃ t, exec (.handlerStart core p) s = .next t ∧ SameMem s t ∧
      (t.coreAt core).high = (s.coreAt core).high.set j { m with running := true } ∧
      let x := t.slotAt (core * 16 + k)
      x.handler = true ∧ x.ctx.pc = dw m.m 0 ∧ (∀ n : Reg, n.val < 8 → x.ctx.g[n] = dw m.m n.val) ∧ x.ctx.g[15] = 0 ∧
        x.ctx.priv = 0 ∧ x.ctx.anch = true ∧ x.ctx.rel = (s.partAt p).now ∧ x.ctx.vis = (s.partAt p).now + 1 ∧
        x.ctx.taskIdx = 0xFFFFFFFF ∧ x.ctx.seqNo = 0 ∧ x.ctx.wsp = s.stackTop p (core * 16 + k) ∧ x.ctx.loops = .replicate 4 0

/-- R220, R13, R205, R241: a thread that arrives where none of its partition waits takes the lowest-numbered free ordinary slot with its
context, and v, VL, k, windows and monitors of a slot newly given a thread; with none free, or behind others, it enters the arrival queue
while that has room for it, and else its packet stays. -/
def Rules.Arrivals : Prop :=
  ∀ (s : State) (k core : Nat) (p : Fin 8) (th : Thread), s.net[k]? = some ⟨p, .migration core th⟩ → s.running p = true →
    th.vec = none →
    let waits := (s.coreAt core).arrivals.any fun e => e.part == p
    (∀ n, waits = false → s.freeSlot core p = some n → ∃ t, exec (.migrationArrival k) s = .next t ∧ SameMem s t ∧
      let x := t.slotAt n
      x.ctx = th.ctx ∧ x.prog.word = th.word ∧ x.part = th.part ∧ x.task = th.task ∧ x.v = .replicate 16 0 ∧ x.vl = 128 ∧
        x.k = .replicate 8 0 ∧ x.windows = [] ∧ x.monitors = .replicate 4 none ∧ x.points = [] ∧ x.trail = [] ∧ x.bind = none) ∧
    (waits = true ∨ s.freeSlot core p = none →
      (s.arrivalRoom core p = true → ∃ t, exec (.migrationArrival k) s = .next t ∧ t.net = s.net.eraseIdx k ∧
        (t.coreAt core).arrivals = (s.coreAt core).arrivals ++ [th] ∧ t = { s with net := t.net, cores := t.cores }) ∧
      (s.arrivalRoom core p = false → exec (.migrationArrival k) s = .next s))

/-- R76, R142, R223: a wake makes a dropped thread runnable, to reissue its word, and one that waits for a unit; so does the end of the 64
ticks of a refused fault; and a message refused before is offered again when its ticks have passed. -/
def Rules.WakesAndRetries : Prop :=
  ∀ (s : State) (k n t₀ core : Nat) (p : Fin 8),
    (s.net[k]? = some ⟨p, .wake n⟩ → ((∃ r, (s.slotAt n).run = .dropped r) ∨ (s.slotAt n).run = .waiting .unit) →
      exec (.wakeMessage k) s = .next { s.setSlotAt n { s.slotAt n with run := .runnable } with net := s.net.eraseIdx k }) ∧
    ((s.slotAt n).run = .dropped (some t₀) →
      exec (.pageFaultReissue n) s =
        .next (if t₀ ≤ s.refcnt then s.setSlotAt n { s.slotAt n with run := .runnable } else s)) ∧
    (∀ m, (s.coreAt core).retry = [(false, m, t₀)] → t₀ ≤ s.refcnt → s.running m.part = true →
      holdsOf m.part (s.coreAt core).low < s.share64 →
      ∃ t, exec (.messageRetry core) s = .next t ∧ (t.coreAt core).retry = [] ∧ (t.coreAt core).low = (s.coreAt core).low ++ [m])

/-! ## Vectors (11_vector) -/

/-- What a vector instruction leaves (R14, R242): every other vector register, the context but for ANCH, PC and loop stack, the slot but
for its count of issues and the progress of its word, every other slot, and everything outside the slots. -/
structure VecFrame (s t : State) (vs : List Reg) : Prop where
  vecs : ∀ n, n ∉ vs → t.slot.v[n] = s.slot.v[n]
  ctx : t.ctx = (s.ctx.setAnch true).endCheck s.ctx.pc
  slot : t.slot = { s.slot with ctx := t.ctx, v := t.slot.v, hcount := t.slot.hcount, prog := {} }
  others : ∀ m, m ≠ s.cur → t.slotAt m = s.slotAt m
  rest : t = { s with slots := t.slots }
  mem : SameMem s t

/-- Lanes below n of w bits hold the given values, and the bits above them what they held. -/
def LanesAre (w n : Nat) (old new : Vec) (f : Nat → Nat) : Prop :=
  (∀ i, i < n → w * (i + 1) ≤ 512 → lane w new i = f i % 2 ^ w) ∧ new.toNat / 2 ^ (w * n) = old.toNat / 2 ^ (w * n)

/-- The instructions of R246 to R249, R251, R254 to R256 that give each active lane a value: guard, destination, format and value. -/
def laneResult (s : State) : Instr → Option (Guard × Reg × Elem × (Nat → Nat))
  | .vadd g d a b t r => some (g, d, t, fun i =>
    if elemFloat t then (s.rounding r i).code 0 t
      ((floatVal t (s.vlane a t i)).add ((s.rounding r i).mode == .rdn) (floatVal t (s.vlane b t i)))
    else bitsOf (elemBits t) (sint (elemBits t) (s.vlane a t i) + sint (elemBits t) (s.vlane b t i)))
  | .vsub g d a b t r => some (g, d, t, fun i =>
    if elemFloat t then (s.rounding r i).code 0 t
      ((floatVal t (s.vlane a t i)).add ((s.rounding r i).mode == .rdn) (floatVal t (s.vlane b t i)).neg)
    else bitsOf (elemBits t) (sint (elemBits t) (s.vlane a t i) - sint (elemBits t) (s.vlane b t i)))
  | .vmul g d a b t r => some (g, d, t, fun i =>
    if elemFloat t then (s.rounding r i).code 0 t ((floatVal t (s.vlane a t i)).mul (floatVal t (s.vlane b t i)))
    else bitsOf (elemBits t) (sint (elemBits t) (s.vlane a t i) * sint (elemBits t) (s.vlane b t i)))
  | .vfma g d a b t r => some (g, d, t, fun i =>
    if elemFloat t then (s.rounding r i).code 0 t
      (((floatVal t (s.vlane a t i)).mul (floatVal t (s.vlane b t i))).add ((s.rounding r i).mode == .rdn)
        (floatVal t (s.vlane d t i)))
    else bitsOf (elemBits t) (sint (elemBits t) (s.vlane d t i)
      + sint (elemBits t) (s.vlane a t i) * sint (elemBits t) (s.vlane b t i)))
  | .vmin g d a b t _ => some (g, d, t, fun i =>
    if elemFloat t then (s.rounding .rne i).code 0 t ((floatVal t (s.vlane a t i)).min (floatVal t (s.vlane b t i)))
    else bitsOf (elemBits t) (min (sint (elemBits t) (s.vlane a t i)) (sint (elemBits t) (s.vlane b t i))))
  | .vmax g d a b t _ => some (g, d, t, fun i =>
    if elemFloat t then (s.rounding .rne i).code 0 t ((floatVal t (s.vlane a t i)).max (floatVal t (s.vlane b t i)))
    else bitsOf (elemBits t) (max (sint (elemBits t) (s.vlane a t i)) (sint (elemBits t) (s.vlane b t i))))
  | .vabs g d a t => some (g, d, t, fun i =>
    if elemFloat t then (if floatVal t (s.vlane a t i) = .nan then nanCode t else s.vlane a t i % signBit t)
    else (sint (elemBits t) (s.vlane a t i)).natAbs)
  | .vneg g d a t => some (g, d, t, fun i =>
    if elemFloat t then (if floatVal t (s.vlane a t i) = .nan then nanCode t else s.vlane a t i + signBit t)
    else bitsOf (elemBits t) (-sint (elemBits t) (s.vlane a t i)))
  | .vand g d a b t => some (g, d, t, fun i => s.vlane a t i &&& s.vlane b t i)
  | .vor g d a b t => some (g, d, t, fun i => s.vlane a t i ||| s.vlane b t i)
  | .vxor g d a b t => some (g, d, t, fun i => s.vlane a t i ^^^ s.vlane b t i)
  | .vshl g d a b t => some (g, d, t, fun i => s.vlane a t i * 2 ^ (s.vlane b t i % elemBits t))
  | .vshr g d a b t => some (g, d, t, fun i => s.vlane a t i / 2 ^ (s.vlane b t i % elemBits t))
  | .vsra g d a b t => some (g, d, t, fun i =>
    bitsOf (elemBits t) (sint (elemBits t) (s.vlane a t i) / (2 ^ (s.vlane b t i % elemBits t) : Nat)))
  | .vcmp g d a b t c => some (g, d, t, fun i =>
    if vcmpHolds t c (s.vlane a t i) (s.vlane b t i) then 2 ^ elemBits t - 1 else 0)
  | .vsel g d a b t => some (g, d, t, fun i =>
    if (s.vlane d t i).testBit (elemBits t - 1) then s.vlane a t i else s.vlane b t i)
  | .vscl g d a b t r => some (g, d, t, fun i =>
    (s.rounding r i).code 0 t ((floatVal t (s.vlane a t i)).mul (floatVal .f32 ((s.g b).toNat % 2 ^ 32))))
  | .vexp2 g d a t r => some (g, d, t, fun i => (s.rounding r i).code 0 t (floatVal t (s.vlane a t i)).exp2)
  | .vlog2 g d a t r => some (g, d, t, fun i => (s.rounding r i).code 0 t (floatVal t (s.vlane a t i)).log2)
  | .vrcp g d a t r => some (g, d, t, fun i => (s.rounding r i).code 0 t (floatVal t (s.vlane a t i)).rcp)
  | .vrsq g d a t r => some (g, d, t, fun i => (s.rounding r i).code 0 t (floatVal t (s.vlane a t i)).rsq)
  | .vbc g d a t => some (g, d, t, fun _ => (s.g a).toNat)
  | .vperm g d a b t => some (g, d, t, fun i => if s.vlane b t i < lanes t then s.vlane a t (s.vlane b t i) else 0)
  | .vmov g d a t => some (g, d, t, fun i => s.vlane a t i)
  | .viota g d t => some (g, d, t, fun i => i)
  | _ => none

/-- R242, R245 to R249, R251, R254 to R256: an instruction of `laneResult` completes with its value, as the lane's bits, in each active lane
of its destination; the bits above stand, and so does everything else but ANCH. The quotients and powers of R254 are those of log
entry 15. -/
def Rules.LaneResults : Prop :=
  ∀ (s : State) (i : Instr) (g : Guard) (d : Reg) (e : Elem) (f : Nat → Nat), i.wf = true →
    laneResult s i = some (g, d, e, f) → s.Performs g 0 false →
    ∃ t, exec i s = .next t ∧ LanesAre (elemBits e) (s.slot.active e) s.slot.v[d] t.slot.v[d] f ∧ VecFrame s t [d]

/-- R250, R90, R245: VCVT converts the lanes that both formats have active, one rounding each; a value that needs no change keeps its
code. -/
def Rules.Conversions : Prop :=
  ∀ (s : State) (g : Guard) (d a : Reg) (u e : Elem) (r : Rnd), s.Performs g 0 false →
    ∃ t, exec (.vcvt g d a u e r) s = .next t ∧ VecFrame s t [d] ∧
      LanesAre (elemBits e) (min (s.slot.active e) (lanes u)) s.slot.v[d] t.slot.v[d] fun i =>
        if e = u ∧ (elemFloat e = false ∨ floatVal e (s.vlane a u i) ≠ .nan) then s.vlane a u i
        else (s.rounding r i).code 0 e (elemVal u (s.vlane a u i))

/-- R252: VDOT adds to each active 32-bit lane the products of its group of lanes: exact and modulo 2^32 for integers, and for bf16 two
rounded products, their rounded sum, and its rounded sum with the lane. -/
def Rules.DotProducts : Prop :=
  ∀ (s : State) (g : Guard) (d a b : Reg) (e : Elem) (r : Rnd), (Instr.vdot g d a b e r).wf = true → s.Performs g 0 false →
    ∃ t, exec (.vdot g d a b e r) s = .next t ∧ VecFrame s t [d] ∧
      LanesAre 32 (s.slot.active .f32) s.slot.v[d] t.slot.v[d] fun i =>
        if e = .bf16 then
          let rd := s.rounding r i
          let x := fun k => rd.val k .f32 ((floatVal e (s.vlane a e (2 * i + k))).mul (floatVal e (s.vlane b e (2 * i + k))))
          rd.code 3 .f32 ((floatVal .f32 (s.vlane d .f32 i)).add (rd.mode == .rdn)
            (rd.val 2 .f32 ((x 0).add (rd.mode == .rdn) (x 1))))
        else bitsOf 32 (sint 32 (s.vlane d .f32 i) + ((List.range (32 / elemBits e)).map fun j =>
          sint (elemBits e) (s.vlane a e (32 / elemBits e * i + j)) * sint (elemBits e) (s.vlane b e (32 / elemBits e * i + j))).sum)

/-- R97, R253: VREDS and VREDM put one value into lane 0 and leave every other bit. For integers it is the sum of the active lanes modulo
2^w, and the largest active lane; for floats, the value of R97's tree. -/
def Rules.Reductions : Prop :=
  ∀ (s : State) (g : Guard) (d a : Reg) (e : Elem) (r : Rnd), s.Performs g 0 false →
    (∃ t, exec (.vreds g d a e r) s = .next t ∧ VecFrame s t [d] ∧ t.slot.v[d].toNat / 2 ^ elemBits e = s.slot.v[d].toNat / 2 ^ elemBits e ∧
      (elemFloat e = false → lane (elemBits e) t.slot.v[d] 0 =
        ((List.range (min (s.slot.active e) (lanes e))).map (s.vlane a e)).sum % 2 ^ elemBits e) ∧
      (elemFloat e = true → lane (elemBits e) t.slot.v[d] 0 =
        (tree (s.slot.active e) (s.vlane a e) (fun lo j x y => (s.rounding r lo).code j e
          ((floatVal e x).add ((s.rounding r lo).mode == .rdn) (floatVal e y))) (Nat.log2 (lanes e)) 0).getD 0 % 2 ^ elemBits e)) ∧
    (∃ t, exec (.vredm g d a e) s = .next t ∧ VecFrame s t [d] ∧ t.slot.v[d].toNat / 2 ^ elemBits e = s.slot.v[d].toNat / 2 ^ elemBits e ∧
      (s.slot.active e = 0 → lane (elemBits e) t.slot.v[d] 0 = if elemFloat e then nanCode e else signBit e) ∧
      (elemFloat e = false → 0 < s.slot.active e → s.slot.active e ≤ lanes e →
        (∃ i, i < s.slot.active e ∧ lane (elemBits e) t.slot.v[d] 0 = s.vlane a e i) ∧
        ∀ i, i < s.slot.active e →
          sint (elemBits e) (s.vlane a e i) ≤ sint (elemBits e) (lane (elemBits e) t.slot.v[d] 0)) ∧
      (elemFloat e = true → 0 < s.slot.active e → lane (elemBits e) t.slot.v[d] 0 =
        (tree (s.slot.active e) (s.vlane a e) (fun _ _ x y => toFloat e .rne 0 false ((floatVal e x).max (floatVal e y)))
          (Nat.log2 (lanes e)) 0).getD 0 % 2 ^ elemBits e))

/-- What a vector instruction that writes a general register leaves, beside VL: as `VecFrame`, with g[d] written. -/
structure VecRegFrame (s t : State) (d : Reg) : Prop where
  vecs : t.slot.v = s.slot.v
  regs : ∀ n, n ≠ d → t.g n = s.g n
  preds : ∀ n, t.p n = s.p n
  ctx : t.ctx = { (s.ctx.setAnch true).endCheck s.ctx.pc with g := t.ctx.g }
  others : ∀ m, m ≠ s.cur → t.slotAt m = s.slotAt m
  rest : t = { s with slots := t.slots }
  mem : SameMem s t

/-- R255, R256, R273: VEXT reads the lane that g[b] names, zero-extended for a float and sign-extended for an integer, or 0 beyond the last
lane; VINS replaces that lane alone, and nothing beyond the last; VLEN sets the active length to g[a] cut to the lanes of the format (for
i4 to an even count) and gives it; KSET sets its k register to g[a][31:0]. -/
def Rules.LaneMoves : Prop :=
  ∀ (s : State) (g : Guard) (d a b : Reg) (e : Elem) (k : KReg), s.Performs g 0 false →
    (s.TrailRoom → ∃ t, exec (.vext g d a b e) s = .next t ∧ VecRegFrame s t d ∧ t.slot.vl = s.slot.vl ∧
      t.g d = if lanes e ≤ (s.g b).toNat then 0
        else if elemFloat e then .ofNat 64 (s.vlane a e (s.g b).toNat)
        else .ofInt 64 (sint (elemBits e) (s.vlane a e (s.g b).toNat))) ∧
    (∃ t, exec (.vins g d a b e) s = .next t ∧ VecFrame s t [d] ∧ ∀ i, i < lanes e →
      lane (elemBits e) t.slot.v[d] i = if i = (s.g b).toNat then (s.g a).toNat % 2 ^ elemBits e else s.vlane d e i) ∧
    (s.TrailRoom → ∃ t, exec (.vlen g d a e) s = .next t ∧ VecRegFrame s t d ∧
      let n := min (s.g a).toNat (lanes e)
      let n := if e = .i4 then n - n % 2 else n
      t.g d = .ofNat 64 n ∧ t.slot.active e = n) ∧
    (∃ t, exec (.kset g k a) s = .next t ∧ t.slot.k = s.slot.k.set k ((s.g a).setWidth 32) ∧ t.slot.v = s.slot.v ∧
      t.ctx = (s.ctx.setAnch true).endCheck s.ctx.pc ∧ t = { s with slots := t.slots } ∧ ∀ m, m ≠ s.cur → t.slotAt m = s.slotAt m)

/-- The active bytes of a format (R257). -/
abbrev Slot.activeBytes (x : Slot) (e : Elem) : Nat := x.active e * elemBits e / 8

/-- R14, R257: VLD at its home core reads the active bytes of a line: as they are in a Now-domain segment, as of REL in an Instant-domain
one; the bytes above the active ones stand. -/
def Rules.VectorLoads : Prop :=
  ∀ (s : State) (g : Guard) (d a : Reg) (e : Elem) (q : Seg) (pl : Place), s.Performs g 0 false → 0 < s.slot.activeBytes e →
    (s.g a).toNat % 64 = 0 → s.slot.dataSeg (s.g a) = some q → pl.home = s.coreIdx → s.badAt pl.phys = false →
    (q.i = false → s.access (s.g a) (s.slot.activeBytes e) { r := true, n := true } = .ok (.here pl) →
      ∃ t, exec (.vld g d a e) s = .next t ∧ VecFrame s t [d] ∧ t.slot.v[d].toNat =
        (s.slot.v[d].toNat / 2 ^ (8 * s.slot.activeBytes e) * 2 ^ (8 * s.slot.activeBytes e)
          + s.mem.read pl.phys (s.slot.activeBytes e)) % 2 ^ 512) ∧
    (q.i = true → s.access (s.g a) (s.slot.activeBytes e) { r := true, i := true } = .ok (.here pl) →
      s.ctx.rel.toNat ≤ s.part.now.toNat → s.floor s.slot.part (pl.home / 16) (pl.phys / 64) ≤ s.ctx.rel.toNat →
      ∃ t, exec (.vld g d a e) s = .next t ∧ VecFrame s t [d] ∧ t.slot.v[d].toNat =
        (s.slot.v[d].toNat / 2 ^ (8 * s.slot.activeBytes e) * 2 ^ (8 * s.slot.activeBytes e)
          + s.lineAt s.slot.part (pl.home / 16) (pl.phys / 64) s.ctx.rel / 2 ^ (8 * (pl.phys % 64))
            % 2 ^ (8 * s.slot.activeBytes e)) % 2 ^ 512)

/-- R14, R73, R257: VST with no choice point open. In a Now-domain segment at its home core it writes the active bytes and no other byte, or
raises ECC-UNCORRECTABLE where the line fails its check; in an Instant-domain one it sends them to their home port as one store at VIS.
With no active byte VLD and VST do nothing, and a line that is not aligned raises ALIGN, with the thread anchored. -/
def Rules.VectorStores : Prop :=
  ∀ (s : State) (g : Guard) (d a : Reg) (e : Elem), s.Performs g 0 false →
    (s.slot.activeBytes e = 0 → (∃ t, exec (.vst g d a e) s = .next t ∧ VecFrame s t []) ∧
      ∃ t, exec (.vld g d a e) s = .next t ∧ VecFrame s t []) ∧
    (0 < s.slot.activeBytes e → (s.g a).toNat % 64 ≠ 0 →
      exec (.vst g d a e) s = .next ((s.counted.setCtx (s.ctx.setAnch true)).trap 0x05 (s.g a))) ∧
    (∀ q pl, 0 < s.slot.activeBytes e → (s.g a).toNat % 64 = 0 → s.slot.open_ = false → s.slot.dataSeg (s.g a) = some q →
      (q.i = false → s.access (s.g a) (s.slot.activeBytes e) { w := true, n := true } = .ok (.here pl) → pl.home = s.coreIdx →
        s.badAt pl.phys = true →
        exec (.vst g d a e) s = .next ((s.counted.setCtx (s.ctx.setAnch true)).trap 0x17 (s.g a))) ∧
      (q.i = false → s.access (s.g a) (s.slot.activeBytes e) { w := true, n := true } = .ok (.here pl) → pl.home = s.coreIdx →
        s.badAt pl.phys = false →
        ∃ t, exec (.vst g d a e) s = .next t ∧ SameMemBut s t pl.phys (s.slot.activeBytes e) ∧
          t.mem.read pl.phys (s.slot.activeBytes e) = s.slot.v[d].toNat % 2 ^ (8 * s.slot.activeBytes e) ∧
          t.slot.v = s.slot.v ∧ t.ctx = (s.ctx.setAnch true).endCheck s.ctx.pc) ∧
      (q.i = true → s.access (s.g a) (s.slot.activeBytes e) { w := true, i := true } = .ok (.here pl) → s.ctx.seqNo ≠ 0xFFFF →
        ∃ t, exec (.vst g d a e) s = .next t ∧ SameMem s t ∧ t.slot.run = .waiting .reply ∧ t.slot.v = s.slot.v ∧
          t.ctx = s.ctx.setAnch true ∧ t.net = s.net ++ [⟨s.slot.part, .store (.slot s.cur)
            { va := s.g a, pl := pl, n := s.slot.activeBytes e, x := .ofNat 512 (s.slot.v[d].toNat % 2 ^ (8 * s.slot.activeBytes e))
              mask := .allOnes 64, v := s.ctx.vis, ord := s.ctx.ord, slip := s.ctx.pol }⟩]))

/-- A lane of VLDX or VSTX may be made (R258): the word goes on, or starts with every lane's checks passed. -/
abbrev State.LaneNext (s : State) (g : Guard) (a b : Reg) (e : Elem) (store : Bool) : Prop :=
  (s.slot.prog.word.isSome = true ∧ s.slot.prog.lanes ≠ 0) ∨
    (s.Performs g 0 false ∧ s.slot.prog.lanes = 0 ∧
      s.checkLanes (s.g a) (s.g b) (elemBits e / 8) store (s.slot.active e) 0 = .ok ())

/-- R258: VLDX and VSTX make their lanes in ascending order, at g[a] + i × g[b], here at the executing core and in the Now domain, a lane an
issue (the model's choice); the instruction ends when every lane has been made, and VLDX then writes the bytes of the active lanes. -/
def Rules.StridedLanes : Prop :=
  ∀ (s : State) (g : Guard) (d a b : Reg) (e : Elem),
    (∀ k q pl, k = s.slot.prog.lanes → k < s.slot.active e → s.LaneNext g a b e false → pl.home = s.coreIdx →
      s.badAt pl.phys = false → s.slot.dataSeg (s.g a + .ofNat 64 k * s.g b) = some q → q.i = false →
      s.access (s.g a + .ofNat 64 k * s.g b) (elemBits e / 8) { r := true, n := true } = .ok (.here pl) →
      ∃ t, exec (.vldx g d a b e) s = .next t ∧ t.slot.prog.lanes = k + 1 ∧ t.slot.run = s.slot.run ∧ t.slot.v = s.slot.v ∧
        t.slot.prog.read = s.slot.prog.read + 2 ^ (8 * (elemBits e / 8) * k) * s.mem.read pl.phys (elemBits e / 8) ∧
        t.ctx = s.ctx.setAnch true ∧ SameMem s t ∧ t = { s with slots := t.slots }) ∧
    (s.slot.active e ≤ s.slot.prog.lanes → (s.slot.prog.word.isSome = true ∨ s.Performs g 0 false) →
      (∃ t, exec (.vldx g d a b e) s = .next t ∧ VecFrame s t [d] ∧ t.slot.v[d].toNat =
        (s.slot.v[d].toNat / 2 ^ (8 * (elemBits e / 8 * s.slot.active e)) * 2 ^ (8 * (elemBits e / 8 * s.slot.active e))
          + s.slot.prog.read % 2 ^ (8 * (elemBits e / 8 * s.slot.active e))) % 2 ^ 512) ∧
      ∃ t, exec (.vstx g d a b e) s = .next t ∧ VecFrame s t []) ∧
    (∀ k pl, k = s.slot.prog.lanes → k < s.slot.active e → s.LaneNext g a b e true → s.slot.open_ = false → pl.home = s.coreIdx →
      s.badAt pl.phys = false →
      s.access (s.g a + .ofNat 64 k * s.g b) (elemBits e / 8) { w := true, n := true } = .ok (.here pl) →
      ∃ t, exec (.vstx g d a b e) s = .next t ∧ t.slot.prog.lanes = k + 1 ∧ t.slot.run = s.slot.run ∧ t.slot.v = s.slot.v ∧
        t.mem.read pl.phys (elemBits e / 8) = s.vlane d e k % 2 ^ (8 * (elemBits e / 8)) ∧
        SameMemBut s t pl.phys (elemBits e / 8) ∧ t.ctx = s.ctx.setAnch true)


/-! ## How results are rounded (04_number_formats) -/

/-- The exponent of a float format's smallest subnormal (R80 to R82). -/
def unitExp : Elem → Int
  | .f32 => -149
  | .bf16 => -133
  | .e4m3 => -9
  | .e5m2 => -16
  | _ => 0

/-- The magnitude of a float format's code c without its sign, in units of the smallest subnormal (R79), with the exponent unbounded at the
top (R86). -/
def unitsOf (t : Elem) (c : Nat) : Nat :=
  if c / 2 ^ mantBits t = 0 then c else (2 ^ mantBits t + c % 2 ^ mantBits t) * 2 ^ (c / 2 ^ mantBits t - 1)

/-- R86, R87: of adjacent magnitudes `lo` and `hi`, numbered c and c + 1, `r` is the one that a mode chooses for a value whose magnitude x lies
from `lo` to below `hi`. -/
def Chosen (mode : RMode) (rnd : Nat) (neg : Bool) (c lo hi x r : Nat) : Prop :=
  (x = lo → r = c) ∧
  (lo < x → match mode with
    | .rne => (2 * x < lo + hi → r = c) ∧ (lo + hi < 2 * x → r = c + 1) ∧ (2 * x = lo + hi → r = c + c % 2)
    | .rtz => r = c
    | .rdn => r = if neg then c + 1 else c
    | .rup => r = if neg then c else c + 1
    | .srk => r = if 2 ^ 32 ≤ (x - lo) * 2 ^ 32 / (hi - lo) + rnd then c + 1 else c)

/-- R89: what an infinite value gives. -/
def infiniteGives (t : Elem) (sat neg : Bool) : Nat :=
  match t with
  | .f32 => if neg then 0xFF800000 else 0x7F800000
  | .bf16 => if neg then 0xFF80 else 0x7F80
  | .e5m2 => if sat then (if neg then 0xFB else 0x7B) else (if neg then 0xFC else 0x7C)
  | .e4m3 => if sat then (if neg then 0xFE else 0x7E) else 0x7F
  | _ => 0

/-- R79 to R82: what the codes of a float format stand for: finite ones up to the largest, then the infinities where it has them, and NaN. -/
def Rules.FloatCodes : Prop :=
  ∀ (t : Elem) (neg : Bool) (c : Nat), elemFloat t = true → c < 2 ^ (elemBits t - 1) →
    let code := if neg then 2 ^ (elemBits t - 1) + c else c
    (maxCode .f32 = 0x7F7FFFFF ∧ maxCode .bf16 = 0x7F7F ∧ maxCode .e4m3 = 0x7E ∧ maxCode .e5m2 = 0x7B) ∧
    (c ≤ maxCode t → ∃ m e, floatVal t code = .fin neg m e ∧ unitExp t ≤ e ∧ m * 2 ^ (e - unitExp t).toNat = unitsOf t c) ∧
    (maxCode t < c → floatVal t code = if t ≠ .e4m3 ∧ c = maxCode t + 1 then .inf neg else .nan)

/-- R84 to R87, R89: a finite value in a float format, rounded once: of the two magnitudes that it lies between, the one that its mode
chooses, with its sign; beyond the largest finite one, R89's result for the mode; NaN gives the format's own, and an infinity R89's. -/
def Rules.FloatsRounded : Prop :=
  ∀ (t : Elem) (mode : RMode) (rnd : Nat) (sat neg : Bool), elemFloat t = true →
    let sign := fun (c : Nat) => if neg then 2 ^ (elemBits t - 1) + c else c
    (∀ (m c : Nat) (e : Int), let x := m * 2 ^ (e - unitExp t).toNat
      let lo := unitsOf t c * 2 ^ (unitExp t - e).toNat
      let hi := unitsOf t (c + 1) * 2 ^ (unitExp t - e).toNat
      lo ≤ x → x < hi → ∃ r, Chosen mode rnd neg c lo hi x r ∧
        toFloat t mode rnd sat (.fin neg m e) =
          if r ≤ maxCode t then sign r
          else if mode = .rne ∨ mode = .srk ∨ (mode = .rdn ∧ neg = true) ∨ (mode = .rup ∧ neg = false) then infiniteGives t sat neg
          else sign (maxCode t)) ∧
    toFloat t mode rnd sat (.inf neg) = infiniteGives t sat neg ∧
    (toFloat .f32 mode rnd sat .nan = 0x7FC00000 ∧ toFloat .bf16 mode rnd sat .nan = 0x7FC0 ∧ toFloat .e4m3 mode rnd sat .nan = 0x7F ∧
      toFloat .e5m2 mode rnd sat .nan = 0x7E)

/-- R86, R87, R90: a finite value in an integer format, rounded once, and then held to the nearest end of its range; an infinity gives that
end, and NaN gives 0. -/
def Rules.IntegersRounded : Prop :=
  ∀ (w : Nat) (mode : RMode) (rnd : Nat) (neg : Bool), 0 < w →
    (∀ (m c : Nat) (e : Int), c * 2 ^ (-e).toNat ≤ m * 2 ^ e.toNat → m * 2 ^ e.toNat < (c + 1) * 2 ^ (-e).toNat →
      ∃ r, Chosen mode rnd neg c (c * 2 ^ (-e).toNat) ((c + 1) * 2 ^ (-e).toNat) (m * 2 ^ e.toNat) r ∧
        toInt w mode rnd (.fin neg m e) =
          max (-(2 ^ (w - 1) : Nat) : Int) (min ((2 ^ (w - 1) : Nat) - 1 : Int) (if neg then -(r : Int) else r))) ∧
    toInt w mode rnd (.inf neg) = (if neg then -(2 ^ (w - 1) : Nat) else (2 ^ (w - 1) : Nat) - 1 : Int) ∧ toInt w mode rnd .nan = 0

/-- R88, R90: the k-th rounding for a site takes R88's bits of the key, the site with k in its upper bits, and the instant; its code is that of
the destination's format. -/
def Rules.RoundingsDraw : Prop :=
  ∀ (r : Rounding) (k : Nat) (t : Elem) (x : Num),
    (let site := k % 2 ^ 16 * 2 ^ 48 + r.site.toNat
     let x₀ := r.key.toNat ^^^ site
     let x₁ := (x₀ ^^^ x₀ / 2 ^ 29) * 0xA4C193E56B27D10F % 2 ^ 64
     let x₂ := x₁ ^^^ r.inst.toNat * 2 ^ 16
     let x₃ := (x₂ ^^^ x₂ / 2 ^ 31) * 0xE2B85C1749D306AB % 2 ^ 64
     r.bits k = (x₃ ^^^ x₃ / 2 ^ 33) % 2 ^ 32) ∧
    (elemFloat t = true → r.code k t x = toFloat t r.mode (r.bits k) r.sat x ∧ r.val k t x = floatVal t (r.code k t x)) ∧
    (elemFloat t = false → (r.code k t x : Int) = toInt (elemBits t) r.mode (r.bits k) x % 2 ^ elemBits t)

/-! ## The matrix array (12_matrix) -/

/-- What a word that acts on its partition or its array leaves of its thread: every general register but those named, every predicate,
the context but for registers, ANCH, PC and loop stack, every other slot, and memory. -/
structure ThreadFrame (s t : State) (gs : List Reg) : Prop where
  regs : ∀ n, n ∉ gs → t.g n = s.g n
  preds : ∀ n, t.p n = s.p n
  ctx : t.ctx = { s.ctx with g := t.ctx.g, mode := t.ctx.mode, pc := t.ctx.pc, loops := t.ctx.loops }
  vecs : t.slot.v = s.slot.v
  others : ∀ m, m ≠ s.cur → t.slotAt m = s.slotAt m
  mem : SameMem s t

/-- R270, R271: HNEW, its descriptor read. A descriptor that R271 refuses raises TILE-SHAPE; otherwise the thread sends its shape to the
partition's handle table and waits for the handle, which goes to g[d]. -/
def Rules.HandlesAsked : Prop :=
  ∀ (s : State) (g : Guard) (d a b : Reg) (w0 w1 w2 w3 : Vec), s.Resumes [w0, w1, w2, w3] → s.slot.open_ = false →
    (s.g a).toNat % 32 = 0 →
    (shapeOf (dw w0 0) (dw w1 0) (dw w2 0) (dw w3 0) (s.g b) = none →
      exec (.hnew g d a b) s = .next (s.trap 0x0C (s.g a))) ∧
    (∀ sh, shapeOf (dw w0 0) (dw w1 0) (dw w2 0) (dw w3 0) (s.g b) = some sh →
      exec (.hnew g d a b) s = .next ((s.send s.slot.part (.request s.cur (.handle sh))).setSlot { s.slot with
        run := .waiting .reply
        prog := { s.slot.prog with word := encodeWord (.hnew g d a b), fin := some (.load d .d false) } }))

/-- R269, R271: at the handle table the lowest-numbered free slot takes the shape, and the answer is the handle, or 0 with no slot free;
nothing else changes. -/
def Rules.HandlesMade : Prop :=
  ∀ (s : State) (k n : Nat) (p : Fin 8) (sh : Shape), s.net[k]? = some ⟨p, .request n (.handle sh)⟩ →
    ((∀ u, u < 4095 → (Table.get {} (s.partAt p).handles u).shape ≠ none) →
      exec (.remoteRequest k) s = .next { s with net := s.net.eraseIdx k ++ [⟨p, .reply n (.ok 0) (.core (s.firstDie * 256))⟩] }) ∧
    (∀ u, u < 4095 → (Table.get {} (s.partAt p).handles u).shape = none →
      (∀ v, v < u → (Table.get {} (s.partAt p).handles v).shape ≠ none) → (Table.get {} (s.partAt p).handles u).gen < 2 ^ 20 →
      ∃ t, exec (.remoteRequest k) s = .next t ∧
        t.net = s.net.eraseIdx k ++
          [⟨p, .reply n (.ok (.ofNat 512 (2 ^ 20 * u + (Table.get {} (s.partAt p).handles u).gen))) (.core (s.firstDie * 256))⟩] ∧
        (t.partAt p).shape (2 ^ 20 * u + (Table.get {} (s.partAt p).handles u).gen) = some sh ∧
        (∀ v, v ≠ u → Table.get {} (t.partAt p).handles v = Table.get {} (s.partAt p).handles v) ∧
        t.partAt p = { s.partAt p with handles := (t.partAt p).handles } ∧ (∀ q, q ≠ p → t.partAt q = s.partAt q) ∧
        t = { s with net := t.net, parts := t.parts })

/-- R271: the shape that a descriptor's doublewords stand for: extents e + 1, pitches that hold them, and one of the formats. -/
def Rules.DescriptorValues : Prop :=
  ∀ (d0 d1 p1 p2 base : Word) (sh : Shape), shapeOf d0 d1 p1 p2 base = some sh →
    Elem.ofCode (d0.toNat % 2 ^ 32) = some sh.fmt ∧ sh.e0 = d0.toNat / 2 ^ 32 + 1 ∧ sh.e1 = d1.toNat % 2 ^ 32 + 1 ∧
      sh.e2 = d1.toNat / 2 ^ 32 + 1 ∧ sh.p1 = p1 ∧ sh.p2 = p2 ∧ sh.base = base ∧
      sh.e0 ≤ 2 ^ 20 ∧ sh.e1 ≤ 2 ^ 20 ∧ sh.e2 ≤ 2 ^ 20 ∧
      sh.e0 * elemBits sh.fmt ≤ 8 * sh.p1.toNat ∧ sh.p1.toNat * sh.e1 ≤ sh.p2.toNat

/-- R269, R272: HDEL of a handle that names a shape frees its slot and advances the generation, from 2^20 − 1 to 1, so that the handle is
stale from then on; one that names none raises HANDLE-STALE. -/
def Rules.HandlesDeleted : Prop :=
  ∀ (s : State) (g : Guard) (a : Reg), s.Performs g 0 true → s.slot.open_ = false →
    (s.part.shape ((s.g a).toNat % 2 ^ 32) = none → exec (.hdel g a) s = .next (s.counted.trap 0x0A (s.g a))) ∧
    (s.part.shape ((s.g a).toNat % 2 ^ 32) ≠ none →
      ∃ t, exec (.hdel g a) s = .next t ∧ t.part.shape ((s.g a).toNat % 2 ^ 32) = none ∧
        Table.get {} t.part.handles ((s.g a).toNat % 2 ^ 32 / 2 ^ 20) =
          { gen := if (s.g a).toNat % 2 ^ 20 = 0xFFFFF then 1 else (s.g a).toNat % 2 ^ 20 + 1, shape := none } ∧
        (∀ v, v ≠ (s.g a).toNat % 2 ^ 32 / 2 ^ 20 → Table.get {} t.part.handles v = Table.get {} s.part.handles v) ∧
        t.part = { s.part with handles := t.part.handles } ∧ (∀ q, q ≠ s.slot.part → t.partAt q = s.partAt q) ∧
        t = { s with slots := t.slots, parts := t.parts } ∧ ThreadFrame s t [] ∧ t.ctx.pc = s.nextPc)

/-- R285: TSTAT gives TSTATUS. -/
def Rules.TileStatus : Prop :=
  ∀ (s : State) (g : Guard) (d : Reg), s.Performs g 0 false → s.TrailRoom →
    ∃ t, exec (.tstat g d) s = .next t ∧ t.g d = s.slot.tstatus ∧ t.ctx.pc = s.nextPc ∧ RegFrame s t [d] []

/-- The commands of a list at `va` (R71), in lines that have been read: only the last is MEND, and no MREP's body is refused. -/
abbrev ListIs (va : Word) (got : List Vec) (cmds : List Instr) : Prop :=
  0 < cmds.length ∧ cmds.length ≤ 4096 ∧ (va.toNat % 64 / 32 + cmds.length + 1) / 2 ≤ got.length ∧
    ∀ j c, cmds[j]? = some c →
      decodeTile ((got.getD ((va.toNat % 64 / 32 + j) / 2) 0).toNat / 2 ^ (256 * ((va.toNat % 64 / 32 + j) % 2)) % 2 ^ 256) = some c ∧
        mrepBad (cmds.take j) c = false ∧ (isMend c = true ↔ j + 1 = cmds.length)

/-- R71, R262, R282: TRUN, its list read. With the array free and no TRUN issued before this one waiting for it, the list is accepted: its
commands, the shapes its handles name and the registers it samples are fixed, TSTATUS is cleared, and the thread waits. A stale handle
raises HANDLE-STALE and TSTATUS records the command. With the array busy the thread waits for it. -/
def Rules.ListsAccepted : Prop :=
  ∀ (s : State) (g : Guard) (a : Reg) (got : List Vec) (cmds : List Instr), s.Resumes got → s.slot.open_ = false →
    (s.g a).toNat % 32 = 0 →
    ((s.arrayAt s.coreIdx).run ≠ none →
      ∃ t, exec (.trun g a) s = .next t ∧ t.slot.run = .waiting .array ∧ (t.arrayAt s.coreIdx).run = (s.arrayAt s.coreIdx).run ∧
        s.cur ∈ (t.arrayAt s.coreIdx).queue ∧ t.ctx = s.ctx.setAnch true ∧ t = { s with slots := t.slots, arrays := t.arrays }) ∧
    ((s.arrayAt s.coreIdx).run = none → (s.arrayQueue s.coreIdx).head? = some s.cur ∨ s.arrayQueue s.coreIdx = [] →
      ListIs (s.g a) got cmds →
      (∀ n, resolveShapes s.part s.slot.k 0 cmds = .error n →
        ∃ l, exec (.trun g a) s = .next (((s.setCtx (s.ctx.setAnch true)).setArrayAt s.coreIdx
          { s.arrayAt s.coreIdx with queue := l }).listFault n 0x0A (.ofNat 64 n))) ∧
      (∀ shapes, resolveShapes s.part s.slot.k 0 cmds = .ok shapes →
        ∃ t x, exec (.trun g a) s = .next t ∧ (t.arrayAt s.coreIdx).run = some x ∧ x.slot = s.cur ∧ x.cmds = cmds ∧
          x.shapes = shapes ∧ x.idx = 0 ∧ x.rep = 0 ∧ x.k = s.slot.k ∧ x.rel = s.ctx.rel ∧ x.vis = s.ctx.vis ∧ x.now = s.part.now ∧
          x.sat = s.part.regs.fmt.getLsbD 0 ∧ x.mode = s.part.regs.rmode ∧ x.key = s.part.regs.srkey ∧ x.wide = false ∧ x.rnd = none ∧
          (t.arrayAt s.coreIdx).owner = some s.slot.part ∧
          ((s.arrayAt s.coreIdx).owner = some s.slot.part → (t.arrayAt s.coreIdx).acc = (s.arrayAt s.coreIdx).acc ∧
            (t.arrayAt s.coreIdx).macros = (s.arrayAt s.coreIdx).macros ∧ (t.arrayAt s.coreIdx).rows = (s.arrayAt s.coreIdx).rows) ∧
          ((s.arrayAt s.coreIdx).owner ≠ some s.slot.part → (t.arrayAt s.coreIdx).acc = [] ∧
            (t.arrayAt s.coreIdx).macros = .replicate 2 {} ∧ (t.arrayAt s.coreIdx).rows = []) ∧
          t.slot.tstatus = 0 ∧ t.slot.run = .waiting .list ∧ t.ctx = s.ctx.setAnch true ∧
          t = { s with slots := t.slots, arrays := t.arrays, stamp := t.stamp } ∧
          ∀ m, m ≠ s.cur → t.slotAt m = s.slotAt m))

/-- The array of the acting slot's core runs its list, whose next command may start. -/
abbrev State.Runs (s : State) (x : ListRun) : Prop :=
  (s.arrayAt s.coreIdx).run = some x ∧ x.slot = s.cur ∧ s.listReady s.coreIdx x = true

/-- A list goes on with its next command, and nothing but its array, the outstanding choices and its die's tokens changes. -/
structure ListNext (s t : State) (x y : ListRun) : Prop where
  run : (t.arrayAt s.coreIdx).run = some y
  idx : y.idx = x.idx + 1
  kept : y.slot = x.slot ∧ y.stamp = x.stamp ∧ y.cmds = x.cmds ∧ y.shapes = x.shapes ∧ y.k = x.k ∧ y.rel = x.rel ∧ y.vis = x.vis ∧
    y.now = x.now ∧ y.mode = x.mode ∧ y.key = x.key ∧ y.out = x.out ∧ y.miss = x.miss ∧ y.lost = x.lost
  fresh : y.lines = [] ∧ y.written = [] ∧ y.ord = none
  arrays : ∀ c, c ≠ s.coreIdx → t.arrayAt c = s.arrayAt c
  rest : t = { s with arrays := t.arrays, dies := t.dies, ports := t.ports, choices := t.choices }
  mem : SameMem s t

/-- R278: MZERO clears the accumulators of its tile and no other; an extent outside 1 to 128 raises TILE-SHAPE. -/
def Rules.TilesZeroed : Prop :=
  ∀ (s : State) (x : ListRun) (m n : Ext), s.Runs x →
    (x.ext m = 0 ∨ 128 < x.ext m ∨ x.ext n = 0 ∨ 128 < x.ext n →
      exec (.mzero m n) s = .next (s.failList s.coreIdx x 0x0C (.ofNat 64 x.idx))) ∧
    (0 < x.ext m → x.ext m ≤ 128 → 0 < x.ext n → x.ext n ≤ 128 →
      ∃ t y, exec (.mzero m n) s = .next t ∧ ListNext s t x y ∧ y.rep = x.rep ∧
        (t.arrayAt s.coreIdx).macros = (s.arrayAt s.coreIdx).macros ∧ (t.arrayAt s.coreIdx).rows = (s.arrayAt s.coreIdx).rows ∧
        ∀ r c, c < 128 → Table.get 0 (t.arrayAt s.coreIdx).acc (r * 128 + c) =
          if r < x.ext m ∧ c < x.ext n then 0 else Table.get 0 (s.arrayAt s.coreIdx).acc (r * 128 + c))

/-- R283: MFMT sets the list's width, and its saturation and rounding where it names them. -/
def Rules.ListFormats : Prop :=
  ∀ (s : State) (x : ListRun) (rnd : Option Rnd) (wide : Bool) (sat : Option Bool), s.Runs x →
    ∃ t y, exec (.mfmt rnd wide sat) s = .next t ∧ ListNext s t x y ∧ y.rep = x.rep ∧ y.wide = wide ∧ y.sat = sat.getD x.sat ∧
      y.rnd = rnd.or x.rnd ∧ { t.arrayAt s.coreIdx with run := none } = { s.arrayAt s.coreIdx with run := none }

/-- R281: MREP sends its list back to its body until the body has run c times; a count of 0 raises TILE-SHAPE. -/
def Rules.BodiesRepeat : Prop :=
  ∀ (s : State) (x : ListRun) (c : Ext) (len : BitVec 32), s.Runs x →
    (x.ext c = 0 → exec (.mrep c len) s = .next (s.failList s.coreIdx x 0x0C (.ofNat 64 x.idx))) ∧
    (x.rep + 1 < x.ext c → ∃ t y, exec (.mrep c len) s = .next t ∧ (t.arrayAt s.coreIdx).run = some y ∧ y.idx = x.idx - len.toNat ∧
      y.rep = x.rep + 1 ∧ y.cmds = x.cmds ∧ y.accs = x.accs ∧
      { t.arrayAt s.coreIdx with run := none } = { s.arrayAt s.coreIdx with run := none } ∧ t = { s with arrays := t.arrays }) ∧
    (0 < x.ext c → x.ext c ≤ x.rep + 1 → ∃ t y, exec (.mrep c len) s = .next t ∧ ListNext s t x y ∧ y.rep = 0 ∧
      { t.arrayAt s.coreIdx with run := none } = { s.arrayAt s.coreIdx with run := none })

/-- R279, R282, R284, R285: MEND waits for every piece and for the invalidations owed to its router; then the array is free, TSTATUS shows
the misses with DONE, and TRUN is complete, with no word fetched ahead left (R69; that it drops them all is the model's choice, log entry
109), unless a piece was discarded: then TRUN raises INSTANT-MISS with its address. -/
def Rules.ListsEnd : Prop :=
  ∀ (s : State) (x : ListRun), s.Runs x →
    (x.out ≠ 0 ∨ s.owes (s.coreIdx / 16) = true → exec .mend s = .next s) ∧
    (x.out = 0 → s.owes (s.coreIdx / 16) = false →
      (x.lost = none → ∃ t, exec .mend s = .next t ∧ (t.arrayAt s.coreIdx).run = none ∧ t.slot.run = .runnable ∧
        t.slot.tstatus = .ofNat 64 (2 ^ 48 * min x.miss 0xFFFF + 2 ^ 16 * (x.idx % 2 ^ 13) + 1) ∧
        t.ctx = s.ctx.endCheck s.ctx.pc ∧ t.slot.ahead = [] ∧ t = { s with arrays := t.arrays, slots := t.slots } ∧
        ∀ m, m ≠ s.cur → t.slotAt m = s.slotAt m) ∧
      (∀ va, x.lost = some va → ∃ t : State, exec .mend s = .next (t.trap 0x08 va) ∧ (t.arrayAt s.coreIdx).run = none ∧
        t.slot.tstatus = .ofNat 64 (2 ^ 48 * min x.miss 0xFFFF + 2 ^ 16 * (x.idx % 2 ^ 13) + 2 ^ 8 * 0x08 + 3) ∧ t.ctx = s.ctx))

/-- R280: MSCL, its factors read, multiplies each accumulator of its tile by its row's factor and its column's, one rounding each; an
address of 0 leaves that factor out. With both 0, or an extent of 0, it changes nothing. -/
def Rules.TilesScaled : Prop :=
  ∀ (s : State) (x : ListRun) (m n : Ext) (sr sc : BitVec 48), s.Runs x →
    (x.ext m = 0 ∨ x.ext n = 0 ∨ sr = 0 ∧ sc = 0 → ∃ t y, exec (.mscl m n sr sc) s = .next t ∧ ListNext s t x y ∧ y.rep = x.rep ∧
      { t.arrayAt s.coreIdx with run := none } = { s.arrayAt s.coreIdx with run := none }) ∧
    (0 < x.ext m → x.ext m ≤ 128 → 0 < x.ext n → x.ext n ≤ 128 →
    (∀ a ∈ scaleLines sr ((List.range (x.ext m)).map (4 * ·)) 4 ++ scaleLines sc ((List.range (x.ext n)).map (4 * ·)) 4,
      ∃ l ∈ x.lines, l.1 = a) →
    ∃ t y, exec (.mscl m n sr sc) s = .next t ∧ ListNext s t x y ∧ y.rep = x.rep ∧
      (t.arrayAt s.coreIdx).macros = (s.arrayAt s.coreIdx).macros ∧ (t.arrayAt s.coreIdx).rows = (s.arrayAt s.coreIdx).rows ∧
      ∀ r c, c < 128 →
        let old := (Table.get 0 (s.arrayAt s.coreIdx).acc (r * 128 + c)).toNat
        let rd := x.rounding (accSite s.ctx (r * 128 + c)) x.rel
        let k := Table.get 0 x.accs (r * 128 + c)
        let fr := floatVal .f32 (bytesIn x.lines (ownAddr sr + .ofNat 64 (4 * r)) 4)
        let fc := floatVal .f32 (bytesIn x.lines (ownAddr sc + .ofNat 64 (4 * c)) 4)
        Table.get 0 (t.arrayAt s.coreIdx).acc (r * 128 + c) =
          if r < x.ext m ∧ c < x.ext n then
            .ofNat 32 (
              if sr = 0 ∧ sc = 0 then old
              else if sc = 0 then rd.code k .f32 ((floatVal .f32 old).mul fr)
              else if sr = 0 then rd.code k .f32 ((floatVal .f32 old).mul fc)
              else rd.code (k + 1) .f32 ((floatVal .f32 (rd.code k .f32 ((floatVal .f32 old).mul fr))).mul fc))
          else .ofNat 32 old)

/-- What an MMA adds to accumulator (r, c) from one slice (R267): two rounded products and a rounded sum, k roundings in. -/
def sliceAdded (rd : Rounding) (k : Nat) (row : ARow) (m : Macro) (gs : Fin 4) (j : Fin 2) (c old : Nat) : Nat :=
  rd.code (k + 2) .f32 ((floatVal .f32 old).add (rd.mode == .rdn)
    (rd.val (k + 1) .f32 ((rd.val k .f32 ((floatVal .f32 row.slices[gs].scale.toNat).mul (floatVal .f32 m.slices[j].scale.toNat))).mul
      (floatVal .f32 (partial_ row m c (4 * gs) (4 * j))))))

/-- R264, R266, R267: a slice partial is the balanced FP32 sum of its four groups' results, each the integer dot product of the two groups
rounded once, or NaN where either is special. -/
def Rules.SlicePartials : Prop :=
  ∀ (row : ARow) (m : Macro) (c first g : Nat) (a b : Group),
    (a.special = false → b.special = false →
      groupResult a b = toFloat .f32 .rne 0 false (.fin (decide (((a.q.zip b.q).map fun p : Int × Int => p.1 * p.2).sum < 0))
        ((a.q.zip b.q).map fun p : Int × Int => p.1 * p.2).sum.natAbs (a.x + b.x))) ∧
    (a.special = true ∨ b.special = true → groupResult a b = nanCode .f32) ∧
    (let cell := fun j => groupResult (Table.get {} row.groups (first + j)) (Table.get {} m.groups (c * 8 + g + j))
     let sum := fun (u v : Nat) => toFloat .f32 .rne 0 false ((floatVal .f32 u).add false (floatVal .f32 v))
     partial_ row m c first g = sum (sum (cell 0) (cell 1)) (sum (cell 2) (cell 3)))

/-- A row and a macro that an MMA takes hold data of different classes (R278). -/
abbrev ClassClash (a : MatArray) (m : Nat) (macs : BitVec 2) : Prop :=
  ∃ (r : Nat) (k : Fin 2), r < m ∧ macs.getLsbD k = true ∧ a.macros[k].cls ≠ .none ∧ (Table.get {} a.rows r).cls ≠ .none ∧
    a.macros[k].cls ≠ (Table.get {} a.rows r).cls

/-- R266, R267, R278, R288, R289: MMA with a token that holds its energy, no other partition's burst close by, and no row and macro of
different classes: the token gives the burst's units; each accumulator of the tile is updated by the slices the command takes, in
ascending order, and no other is. With one wide macro the update is that of its one slice. -/
def Rules.Multiplies : Prop :=
  ∀ (s : State) (x : ListRun) (m n : Ext) (macs : BitVec 2) (j : Nat), s.Runs x →
    0 < x.ext m → x.ext m ≤ 128 → 0 < x.ext n → x.ext n ≤ 128 → ¬ ClassClash (s.arrayAt s.coreIdx) (x.ext m) macs →
    (s.dieAt (s.coreIdx / 256)).tokenFor (s.coreIdx / 16 % 16) (burstUnits (s.arrayAt s.coreIdx) (x.ext m) (x.ext n) macs) = some j →
    s.surgeOk (s.coreIdx / 16) s.slot.part = true →
    ∃ t y, exec (.mma m n macs) s = .next t ∧ ListNext s t x y ∧ y.rep = x.rep ∧
      (t.dieAt (s.coreIdx / 256)).tokens[j]? = (s.dieAt (s.coreIdx / 256)).tokens[j]?.map (fun k =>
        { k with credit := k.credit - burstUnits (s.arrayAt s.coreIdx) (x.ext m) (x.ext n) macs, kept := k.kept + 1 }) ∧
      (∀ i, i ≠ j → (t.dieAt (s.coreIdx / 256)).tokens[i]? = (s.dieAt (s.coreIdx / 256)).tokens[i]?) ∧
      (t.arrayAt s.coreIdx).macros = (s.arrayAt s.coreIdx).macros ∧ (t.arrayAt s.coreIdx).rows = (s.arrayAt s.coreIdx).rows ∧
      ∀ r c, c < 128 →
        let u := s.arrayAt s.coreIdx
        let old := (Table.get 0 u.acc (r * 128 + c)).toNat
        let rd := x.rounding (accSite s.ctx (r * 128 + c)) x.rel
        let k := Table.get 0 x.accs (r * 128 + c)
        let row := Table.get {} u.rows r
        (r < x.ext m ∧ c < x.ext n → Table.get 0 (t.arrayAt s.coreIdx).acc (r * 128 + c) =
          .ofNat 32 (mmaAcc u row rd c (mmaSlices row.cls macs) (old, k)).1) ∧
        (¬ (r < x.ext m ∧ c < x.ext n) → Table.get 0 (t.arrayAt s.coreIdx).acc (r * 128 + c) = .ofNat 32 old) ∧
        (r < x.ext m ∧ c < x.ext n → row.cls = .wide → macs = 1 → row.slices[(0 : Fin 4)].tag ≠ 3 → u.macros[(0 : Fin 2)].slices[(0 : Fin 2)].tag ≠ 3 →
          Table.get 0 (t.arrayAt s.coreIdx).acc (r * 128 + c) = .ofNat 32 (sliceAdded rd k row u.macros[(0 : Fin 2)] 0 0 c old))

/-- R278, R288, R289: MMA waits, and changes nothing, while every token in its cluster holds less than its burst's units or the cap, or has
been kept 16 times, and while the surge arbiter holds its partition; an extent outside 1 to 128, or a row and a macro of different
classes, raises TILE-SHAPE. -/
def Rules.BurstsWait : Prop :=
  ∀ (s : State) (x : ListRun) (m n : Ext) (macs : BitVec 2), s.Runs x →
    let a := s.arrayAt s.coreIdx
    let u := s.dieAt (s.coreIdx / 256)
    let units := burstUnits a (x.ext m) (x.ext n) macs
    (x.ext m = 0 ∨ 128 < x.ext m ∨ x.ext n = 0 ∨ 128 < x.ext n ∨ ClassClash a (x.ext m) macs →
      exec (.mma m n macs) s = .next (s.failList s.coreIdx x 0x0C (.ofNat 64 x.idx))) ∧
    (0 < x.ext m → x.ext m ≤ 128 → 0 < x.ext n → x.ext n ≤ 128 → ¬ ClassClash a (x.ext m) macs →
      ((∀ k ∈ u.tokens, k.at_ ≠ s.coreIdx / 16 % 16 ∨ k.credit < min units (u.cap.toNat * 256) ∨ 16 ≤ k.kept) →
        exec (.mma m n macs) s = .next s) ∧
      (s.surgeOk (s.coreIdx / 16) s.slot.part = false → exec (.mma m n macs) s = .next s))

/-- R275, R282: one of a command's lines that are not yet read is read as of its instant by one step, and the command goes on; here
MLDB's. -/
def Rules.TileLinesRead : Prop :=
  ∀ (s : State) (x : ListRun) (h : BitVec 32) (mac : Bool) (n k : Ext) (fmt : Elem) (rdi : InstField) (sh : Shape) (va : Word) (v : Vec),
    s.Runs x → x.shapes[x.idx]? = some (some sh) → sh.fmt = fmt → fmt ≠ .i4 → 0 < x.ext n → x.ext n ≤ 128 → 0 < x.ext k →
    x.ext k ≤ rowsOf (classOf fmt) → sh.covers (x.rep * x.ext k + x.ext k) (x.ext n) = true →
    ∀ left, left = ((List.range (x.ext k)).flatMap fun i => sh.rowLines (x.rep * x.ext k + i) (x.ext n)).filter (fun a =>
      !x.lines.any fun l => l.1 == a) → left[(s.pick left.length).1]? = some va →
    s.unitRead s.slot s.coreIdx va (instField rdi x.rel x.rel x.now) = .ok (.got v) →
    ∃ t, exec (.mldb h mac n k fmt false 0 rdi) s = .next t ∧
      (t.arrayAt s.coreIdx).run = some { x with lines := x.lines ++ [(va, v)], hold := none } ∧
      { t.arrayAt s.coreIdx with run := none } = { s.arrayAt s.coreIdx with run := none } ∧
      t = { s with arrays := t.arrays, choices := t.choices }

/-- The class, width and groups of elements that a load leaves at (r, g): 32 codes aligned in the format of their slice's tag (R263 to R265,
R268). -/
abbrev loadedGroup (fmt : Elem) (tag : Bool) (sl : Slice) (width : Nat) (code : Nat → Nat) : Group :=
  alignGroup (if fmt = .i4 then .bf16 else if tag then tagElem sl.tag else fmt) width ((List.range 32).map code)

/-- R263 to R265, R268, R276: MLDB, every line read: macro mac holds the aligned groups of rows j × k to j × k + k − 1 and columns 0 to n − 1,
an i4 weight in bf16, with 0 in its other rows and in those of a slice whose tag is 3; its slices hold their scales and tags; the other
macro, the row buffer and the accumulators stand. -/
def Rules.MacrosLoaded : Prop :=
  ∀ (s : State) (x : ListRun) (h : BitVec 32) (mac : Bool) (n k : Ext) (fmt : Elem) (tag : Bool) (scb : BitVec 48) (rdi : InstField)
    (sh : Shape), s.Runs x →
    x.shapes[x.idx]? = some (some sh) → sh.fmt = fmt → 0 < x.ext n → x.ext n ≤ 128 → 0 < x.ext k →
    x.ext k ≤ rowsOf (classOf fmt) → sh.covers (x.rep * x.ext k + x.ext k) (x.ext n) = true →
    let sl := fun (j : Nat) => sliceAt x.lines scb (8 * j) fmt tag
    let reads := fun (i : Nat) => tag = false ∨ (sl (i / 128)).tag ≠ 3
    (∀ a, (a ∈ scaleLines scb ((List.range (rowsOf (classOf fmt) / 128)).map (8 * ·)) 8 ∨
        (∃ i, i < x.ext k ∧ reads i ∧ a ∈ sh.rowLines (x.rep * x.ext k + i) (x.ext n)) ∨
        a ∈ sh.prologueLines (x.rep * x.ext k) (x.ext k) (x.ext n)) → ∃ l ∈ x.lines, l.1 = a) →
    ∃ t y, exec (.mldb h mac n k fmt tag scb rdi) s = .next t ∧ ListNext s t x y ∧ y.rep = x.rep ∧
      (t.arrayAt s.coreIdx).acc = (s.arrayAt s.coreIdx).acc ∧ (t.arrayAt s.coreIdx).rows = (s.arrayAt s.coreIdx).rows ∧
      (∀ i : Fin 2, i.val ≠ mac.toNat → (t.arrayAt s.coreIdx).macros[i] = (s.arrayAt s.coreIdx).macros[i]) ∧
      ∀ i : Fin 2, i.val = mac.toNat →
        (t.arrayAt s.coreIdx).macros[i].cls = classOf fmt ∧
        (∀ c g, c < x.ext n → g < rowsOf (classOf fmt) / 32 →
          Table.get {} (t.arrayAt s.coreIdx).macros[i].groups (c * 8 + g) =
            loadedGroup fmt tag (sl (g / 4)) (if classOf fmt = .wide then 16 else 8) fun j =>
              if 32 * g + j < x.ext k ∧ reads (32 * g + j) then sh.weight x.lines (x.rep * x.ext k + (32 * g + j)) c else 0) ∧
        (∀ j : Fin 2, j.val < rowsOf (classOf fmt) / 128 → (t.arrayAt s.coreIdx).macros[i].slices[j] = sl j.val)

/-- R263, R264, R268, R277: MLDA, every line read: rows 0 to m − 1 of the row buffer hold the aligned groups of rows j × m to j × m + m − 1 and
columns 0 to k − 1, with 0 beyond and in a slice whose tag is 3, and the scales and tags of their slices; the other rows, the macros and
the accumulators stand. -/
def Rules.RowsLoaded : Prop :=
  ∀ (s : State) (x : ListRun) (h : BitVec 32) (m k : Ext) (fmt : Elem) (tag : Bool) (sca : BitVec 48) (rdi : InstField) (sh : Shape),
    s.Runs x → x.shapes[x.idx]? = some (some sh) → sh.fmt = fmt → 0 < x.ext m → x.ext m ≤ 128 → 0 < x.ext k →
    x.ext k ≤ 2 * rowsOf (classOf fmt) → sh.covers (x.rep * x.ext m + x.ext m) (x.ext k) = true → fmt ≠ .i4 →
    let sl := fun (r j : Nat) => sliceAt x.lines sca ((r * 4 + j) * 8) fmt tag
    let reads := fun (r e : Nat) => tag = false ∨ (sl r (e / 128)).tag ≠ 3
    (∀ a ∈ scaleLines sca ((List.range (x.ext m)).flatMap fun r => (List.range (2 * rowsOf (classOf fmt) / 128)).map fun j =>
      (r * 4 + j) * 8) 8, ∃ l ∈ x.lines, l.1 = a) →
    (∀ r j, r < x.ext m → 128 * j < x.ext k → reads r (128 * j) →
      ∀ a ∈ linesOf (sh.at_ (x.rep * x.ext m + r) (128 * j)) (rowBytes fmt (min 128 (x.ext k - 128 * j))), ∃ l ∈ x.lines, l.1 = a) →
    ∃ t y, exec (.mlda h m k fmt tag sca rdi) s = .next t ∧ ListNext s t x y ∧ y.rep = x.rep ∧
      (t.arrayAt s.coreIdx).acc = (s.arrayAt s.coreIdx).acc ∧ (t.arrayAt s.coreIdx).macros = (s.arrayAt s.coreIdx).macros ∧
      (∀ r, x.ext m ≤ r → Table.get {} (t.arrayAt s.coreIdx).rows r = Table.get {} (s.arrayAt s.coreIdx).rows r) ∧
      ∀ r, r < x.ext m →
        let row := Table.get {} (t.arrayAt s.coreIdx).rows r
        row.cls = classOf fmt ∧ row.width = (if classOf fmt = .wide then (if x.wide then 16 else 12) else 8) ∧
        (∀ g, g < 2 * rowsOf (classOf fmt) / 32 → Table.get {} row.groups g = loadedGroup fmt tag (sl r (g / 4)) row.width fun j =>
          if 32 * g + j < x.ext k ∧ reads r (32 * g + j) then sh.elem x.lines (x.rep * x.ext m + r) (32 * g + j) else 0) ∧
        ∀ j : Fin 4, j.val < 2 * rowsOf (classOf fmt) / 128 → row.slices[j] = sl r j.val

/-- The code that MST writes for an accumulator (R88, R267, R279): rounded to its format, after its product with the scale, which is rounded
to f32 first, where there is one. -/
def storedCode (x : ListRun) (fmt : Elem) (scale : Option Nat) (acc : Nat) (va : Word) (i : Instant) : Nat :=
  let rd := x.rounding (va.setWidth 48) i
  let k := x.drawn va i
  match scale with
  | none => rd.code k fmt (floatVal .f32 acc)
  | some c => rd.code (k + 1) fmt (floatVal .f32 (rd.code k .f32 ((floatVal .f32 acc).mul (floatVal .f32 c))))

/-- R88, R279: MST, its ordinal taken and its scale read, writes one of the pieces that are left, each a row's part of a line: in a Now-domain
segment to bytes of its own cluster's memory, and to no other byte; in an Instant-domain segment as a store with the list's V and that
ordinal. With every piece written and ended it is done, and clears its tile where it says so; while one is out it waits. -/
def Rules.TilesStored : Prop :=
  ∀ (s : State) (x : ListRun) (h : BitVec 32) (m n : Ext) (fmt : Elem) (clr : Bool) (sc : BitVec 48) (vsi : InstField) (sh : Shape)
    (ord : Instant), s.Runs x →
    x.shapes[x.idx]? = some (some sh) → sh.fmt = fmt → 8 ≤ elemBits fmt → x.ord = some ord → 0 < x.ext m → x.ext m ≤ 128 →
    0 < x.ext n → x.ext n ≤ 128 → sh.covers (x.rep * x.ext m + x.ext m) (x.ext n) = true →
    (∀ a ∈ scaleLines sc [0] 4, ∃ l ∈ x.lines, l.1 = a) →
    let per := (rowBytes fmt (x.ext n) + 63) / 64
    let left := (List.range (x.ext m * per)).filter fun j => !x.written.contains j
    let w := elemBits fmt / 8
    (∀ j pl q, left[(s.pick left.length).1]? = some j →
      let va := sh.at_ (x.rep * x.ext m + j / per) 0 + .ofNat 64 (64 * (j % per))
      let nb := min 64 (rowBytes fmt (x.ext n) - 64 * (j % per))
      let code := fun (i : Instant) (e : Nat) => storedCode x fmt (if sc = 0 then none else some (bytesIn x.lines (ownAddr sc) 4))
        (Table.get 0 (s.arrayAt s.coreIdx).acc (j / per * 128 + (64 * (j % per) / w + e))).toNat (va + .ofNat 64 (e * w)) i % 2 ^ (8 * w)
      s.slot.dataSeg va = some q → s.locate s.coreIdx s.slot.part va 64 6 = .ok (.here pl) →
      (q.i = false → checkSeg s.slot va 64 { w := true, n := true } = .ok () → pl.home / 16 = s.coreIdx / 16 →
        s.badAt pl.phys = false →
        ∃ t y, exec (.mst h m n fmt clr sc vsi) s = .next t ∧ (t.arrayAt s.coreIdx).run = some y ∧ y.idx = x.idx ∧
          y.written = j :: x.written ∧ y.out = x.out ∧ SameMemBut s t pl.phys nb ∧
          ∀ e, e * w < nb → t.mem.read (pl.phys + e * w) w = code x.rel e) ∧
      (q.i = true → checkSeg s.slot va 64 { w := true, i := true } = .ok () → pl.so = false →
        ∃ t y st, exec (.mst h m n fmt clr sc vsi) s = .next t ∧ (t.arrayAt s.coreIdx).run = some y ∧ y.idx = x.idx ∧
          y.written = j :: x.written ∧ y.out = x.out + 1 ∧ SameMem s t ∧ t.slots = s.slots ∧
          t.net = s.net ++ [⟨s.slot.part, .store (.cmd x.stamp) st⟩] ∧
          st = { st with va := va, pl := pl, n := nb, mask := .allOnes 64, v := instField vsi x.vis x.rel x.now, ord := ord, slip := s.ctx.pol } ∧
          ∀ e, e * w < nb → st.x.toNat / 2 ^ (8 * (e * w)) % 2 ^ (8 * w) = code st.v e)) ∧
    (left = [] →
      (x.out ≠ 0 → exec (.mst h m n fmt clr sc vsi) s = .next s) ∧
      (x.out = 0 → ∃ t y, exec (.mst h m n fmt clr sc vsi) s = .next t ∧ ListNext s t x y ∧ y.rep = x.rep ∧
        (t.arrayAt s.coreIdx).macros = (s.arrayAt s.coreIdx).macros ∧ (t.arrayAt s.coreIdx).rows = (s.arrayAt s.coreIdx).rows ∧
        ∀ r c, c < 128 → Table.get 0 (t.arrayAt s.coreIdx).acc (r * 128 + c) =
          if clr = true ∧ r < x.ext m ∧ c < x.ext n then 0 else Table.get 0 (s.arrayAt s.coreIdx).acc (r * 128 + c)))

/-- R146, R279: an MST that begins takes its ordinal, and counts it in ORD[15:0] where its first element is in an Instant-domain segment;
there ORD[15:0] = 0xFFFF ends the list with INSTANT-MISS and that element's address. -/
def Rules.StoresBegin : Prop :=
  ∀ (s : State) (x : ListRun) (h : BitVec 32) (m n : Ext) (fmt : Elem) (clr : Bool) (sc : BitVec 48) (vsi : InstField) (sh : Shape),
    s.Runs x → x.shapes[x.idx]? = some (some sh) → sh.fmt = fmt → x.ord = none → 0 < x.ext m → x.ext m ≤ 128 → 0 < x.ext n →
    x.ext n ≤ 128 → sh.covers (x.rep * x.ext m + x.ext m) (x.ext n) = true →
    let first := sh.at_ (x.rep * x.ext m) 0
    ((∀ q, s.slot.dataSeg first = some q → q.i = false) → ∃ t, exec (.mst h m n fmt clr sc vsi) s = .next t ∧
      (t.arrayAt s.coreIdx).run = some { x with ord := some s.ctx.ord } ∧ t = { s with arrays := t.arrays }) ∧
    (∀ q, s.slot.dataSeg first = some q → q.i = true →
      (s.ctx.seqNo = 0xFFFF → exec (.mst h m n fmt clr sc vsi) s = .next (s.failList s.coreIdx x 0x08 first)) ∧
      (s.ctx.seqNo ≠ 0xFFFF → ∃ t, exec (.mst h m n fmt clr sc vsi) s = .next t ∧
        (t.arrayAt s.coreIdx).run = some { x with ord := some s.ctx.ord } ∧ t.ctx.ord = s.ctx.ord + 1 ∧ t.ctx.g = s.ctx.g ∧
        t = { s with arrays := t.arrays, slots := t.slots } ∧ ∀ k, k ≠ s.cur → t.slotAt k = s.slotAt k))

/-- R288: a token that has been in its cluster for 8 cycles, and that no burst there keeps, moves to the next cluster. At cluster 0 it is
first filled to the cap from the pool; one that the pool cannot fill takes what there is and stays there. -/
def Rules.TokenHops : Prop :=
  ∀ (s : State) (die k : Nat) (x : Token) (need : Nat), (s.dieAt die).tokens[k]? = some x →
    need = (s.dieAt die).capUnits - x.credit →
    (s.cyc < x.hop + 8 → exec (.garnetTokenHop die k) s = .next s) ∧
    (x.hop + 8 ≤ s.cyc → (16 ≤ x.kept ∨ s.burstWaits (die * 16 + x.at_) x (s.dieAt die).capUnits = false) →
      (x.at_ ≠ 0 → ∃ t, exec (.garnetTokenHop die k) s = .next t ∧
        t.dieAt die = { s.dieAt die with
          tokens := (s.dieAt die).tokens.set k { x with at_ := (x.at_ + 1) % 16, hop := s.cyc, kept := 0 } } ∧
        t = { s with dies := t.dies }) ∧
      (x.at_ = 0 → need ≤ (s.dieAt die).pool → ∃ t, exec (.garnetTokenHop die k) s = .next t ∧
        t.dieAt die = { s.dieAt die with
          pool := (s.dieAt die).pool - need
          tokens := (s.dieAt die).tokens.set k { at_ := 1, hop := s.cyc, kept := 0, credit := x.credit + need } } ∧
        t = { s with dies := t.dies }) ∧
      (x.at_ = 0 → (s.dieAt die).pool < need → ∃ t, exec (.garnetTokenHop die k) s = .next t ∧
        t.dieAt die = { s.dieAt die with
          pool := 0, tokens := (s.dieAt die).tokens.set k { x with credit := x.credit + (s.dieAt die).pool } } ∧
        t = { s with dies := t.dies }))

/-! ## Engine commands (13_engine) -/

/-- R297, R298: element (i0, i1, i2) of a handle's tile at an origin lies at the tensor's element (o0 + i0, o1 + i1, o2 + i2), for bytes
and larger elements, and the tile does not reach beyond the extents. -/
def Rules.TileElements : Prop :=
  ∀ (h : Shape) (o x : Nat × Nat × Nat) (v : View) (i0 i1 i2 : Nat), h.tile o x = some v → h.fmt ≠ .i4 →
    v.at_ i0 i1 i2 = h.base + .ofNat 64 (o.2.2 + i2) * h.p2 + .ofNat 64 (o.2.1 + i1) * h.p1
        + .ofNat 64 ((o.1 + i0) * (elemBits h.fmt / 8)) ∧
      o.1 + x.1 ≤ h.e0 ∧ o.2.1 + x.2.1 ≤ h.e1 ∧ o.2.2 + x.2.2 ≤ h.e2

/-- CPY, CPYR and FILL: guard, predicate, block address and ENG (R295). -/
def copyOf : Instr → Option (Guard × Pred × Reg × Nat)
  | .cpy g p a => some (g, p, a, 0)
  | .cpyr g p a => some (g, p, a, 1)
  | .fill g p a => some (g, p, a, 2)
  | _ => none

/-- A copy's block b (R298 to R300) names a source u, where its ENG has one, a destination v and extents x: its reserved fields are 0 and
its handles name shapes whose tiles R297 accepts. -/
structure CopyBlock (s : State) (eng : Nat) (b : Vec) (u : Option View) (v : View) (x : Nat × Nat × Nat) : Prop where
  ext : x = ((triple (dw b 3)).1 + 1, (triple (dw b 3)).2.1 + 1, (triple (dw b 3)).2.2 + 1)
  tops : (dw b 1).toNat < 2 ^ 60 ∧ (dw b 3).toNat < 2 ^ 60 ∧ (dw b 4).toNat < 2 ^ 32
  two : eng = 1 ∨ (dw b 2).toNat < 2 ^ 60
  seven : eng = 0 → dw b 7 = 0
  noDst : eng = 1 → (dw b 0).toNat % 2 ^ 32 = 0
  noSrc : eng = 2 → (dw b 0).toNat / 2 ^ 32 = 0 ∧ dw b 1 = 0 ∧ u = none
  src : eng ≠ 2 → ∃ h w, s.part.shape (s.handleOf ((dw b 0).toNat / 2 ^ 32)) = some h ∧ h.tile (triple (dw b 1)) x = some w ∧ u = some w
  dst : eng ≠ 1 → ∃ h, s.part.shape (s.handleOf ((dw b 0).toNat % 2 ^ 32)) = some h ∧ h.tile (triple (dw b 2)) x = some v
  raw : eng = 1 → ∃ w, u = some w ∧
    v = ⟨w.fmt, dw b 7, .ofNat 64 ((dw b 2).toNat % 2 ^ 32), .ofNat 64 ((dw b 2).toNat / 2 ^ 32)⟩ ∧
    rowBytes w.fmt x.1 ≤ (dw b 2).toNat % 2 ^ 32 ∧ (1 < x.2.2 → (dw b 2).toNat % 2 ^ 32 * x.2.1 ≤ (dw b 2).toNat / 2 ^ 32)

/-- What a command samples at its acceptance (R95, R294). -/
def Cmd.sampled (c : Cmd) (s : State) (rdi vsi : InstField) (b : Vec) : Prop :=
  c.stamp = s.stamp ∧ c.part = s.slot.part ∧ c.core = s.coreIdx ∧ c.task = s.slot.task ∧ c.seg = some s.slot.seg ∧ c.ord = s.ctx.ord ∧
    c.slip = s.ctx.pol ∧ c.rel = s.ctx.rel ∧ c.rdi = instField rdi s.ctx.rel s.ctx.rel s.part.now ∧
    c.vsi = instField vsi s.ctx.vis s.ctx.rel s.part.now ∧ c.mode = s.part.regs.rmode ∧ c.sat = s.part.regs.fmt.getLsbD 0 ∧
    c.key = s.part.regs.srkey ∧ c.hnd = dw b 5 ∧ c.tag = dw b 6 ∧ c.out = 0 ∧ c.bytes = 0 ∧ c.miss = 0

/-- What the acceptance of a command leaves in its thread (R294): p[d] is 1, ORD[15:0] counts the command, and STSYNC knows it. -/
structure Accepted (s t : State) (d : Pred) : Prop where
  pred : t.p d = true
  preds : ∀ n, n ≠ d → t.p n = s.p n
  regs : ∀ n, t.g n = s.g n
  pc : t.ctx.pc = s.nextPc
  ord : t.ctx.ord = s.ctx.ord + 1
  known : s.stamp ∈ t.slot.cmds
  stamp : t.stamp = s.stamp + 1
  others : ∀ m, m ≠ s.cur → t.slotAt m = s.slotAt m

/-- What the refusal of a command by a full queue leaves (R294): p[d] is 0, or 1 for p0, and nothing else changes. -/
structure Refused (s t : State) (d : Pred) : Prop where
  pred : t.p d = decide (d = 0)
  preds : ∀ n, n ≠ d → t.p n = s.p n
  ctx : t.ctx = { s.ctx with p := t.ctx.p, pc := t.ctx.pc, loops := t.ctx.loops }
  pc : t.ctx.pc = s.nextPc
  rest : t = { s with slots := t.slots }
  mem : SameMem s t

/-- A queue has room for a command of a partition (R294). -/
abbrev State.queueRoom (s : State) (q : List Cmd) : Prop :=
  (q.filter fun c => c.part == s.slot.part).length < s.share64 ∧ q.length < 64

/-- R294, R295, R297 to R300: CPY, CPYR and FILL, their block read and every check passed. With room in the cluster's copy engine the command
enters last, with what it samples; with none p[d] is 0. -/
def Rules.CopiesAccepted : Prop :=
  ∀ (s : State) (i : Instr) (g : Guard) (d : Pred) (a : Reg) (eng : Nat) (b : Vec) (u : Option View) (v : View) (x : Nat × Nat × Nat)
    (rdi vsi : InstField), copyOf i = some (g, d, a, eng) → s.Resumes [b] → s.slot.open_ = false → CopyBlock s eng b u v x →
    blockInsts (dw b 4) = some (rdi, vsi) →
    s.checkSpans ((match u with
      | some w => w.spans x false
      | none => []) ++ v.spans x true) = .ok () →
    s.ctx.seqNo ≠ 0xFFFF →
    (s.queueRoom (s.copierAt s.cluster) → ∃ t c, exec i s = .next t ∧ Accepted s t d ∧ SameMem s t ∧
      t.copierAt s.cluster = s.copierAt s.cluster ++ [c] ∧ c.sampled s rdi vsi b ∧ c.eng = eng ∧ c.unit = 0 ∧ c.cid = 0 ∧
      c.work = .copy u v x.1 x.2.1 x.2.2 (dw b 7) ∧ c.stage = .begin_ ∧ c.pos = 0 ∧
      t = { s with slots := t.slots, copiers := t.copiers, stamp := t.stamp }) ∧
    (¬ s.queueRoom (s.copierAt s.cluster) → ∃ t, exec i s = .next t ∧ Refused s t d)

/-- R269, R294, R297: a copy whose block has a field reserved as 0 that is not raises TILE-SHAPE with the block's address, and one whose
handle is stale HANDLE-STALE with the handle; an open choice point raises CHOICE-ESCAPE. -/
def Rules.CopiesRefused : Prop :=
  ∀ (s : State) (i : Instr) (g : Guard) (d : Pred) (a : Reg) (eng : Nat) (b : Vec), copyOf i = some (g, d, a, eng) →
    (s.Performs g 0 false → s.slot.open_ = true → exec i s = .next (s.counted.trap 0x12 (s.g a))) ∧
    (s.Resumes [b] → s.slot.open_ = false →
      (2 ^ 60 ≤ (dw b 1).toNat ∨ 2 ^ 60 ≤ (dw b 3).toNat ∨ 2 ^ 32 ≤ (dw b 4).toNat → exec i s = .next (s.trap 0x0C (s.g a))) ∧
      (∀ f : InstField × InstField, blockInsts (dw b 4) = some f → eng = 0 → (dw b 1).toNat < 2 ^ 60 → (dw b 2).toNat < 2 ^ 60 →
        (dw b 3).toNat < 2 ^ 60 → (dw b 4).toNat < 2 ^ 32 → dw b 7 = 0 →
        s.part.shape (s.handleOf ((dw b 0).toNat / 2 ^ 32)) = none →
        exec i s = .next (s.trap 0x0A (.ofNat 64 (s.handleOf ((dw b 0).toNat / 2 ^ 32))))))

/-- The collectives: guard, predicate, block address, operation, format and reduction (R305). -/
def collOf : Instr → Option (Guard × Pred × Reg × CollOp × Elem × Red)
  | .collReduce g p a t r => some (g, p, a, .reduce, t, r)
  | .collAllreduce g p a t r => some (g, p, a, .allreduce, t, r)
  | .collRscatter g p a t r => some (g, p, a, .rscatter, t, r)
  | .collAllgather g p a t => some (g, p, a, .allgather, t, .sum)
  | _ => none

/-- A communicator record (R304): its identity, NDEV, die mask and device list, and this core's rank in it. -/
structure Communicator (s : State) (rec_ : List Word) (cid : Word) (devs : List Nat) (per rank : Nat) : Prop where
  cid_ : rec_[0]? = some cid
  len_ : rec_.length = 2 + (devs.length + 3) / 4
  ndev_ : devs.length = cid.toNat / 2 ^ 51 + 1 ∧ devs.length ≤ 6144
  list_ : ∀ m w, m < devs.length → rec_[2 + m / 4]? = some w → devs[m]? = some (w.toNat / 2 ^ (16 * (m % 4)) % 2 ^ 16)
  dies_ : cid.extractLsb' 43 8 &&& ~~~ s.dev.dies = 0
  own_ : (cid.extractLsb' 43 8).getLsbD (s.coreIdx / 256) = true
  one_ : (devs.filter (· == s.ownIdx)).length = 1
  zero_ : ∀ w, rec_[1]? = some w → w.toNat % 2 ^ 32 = 0
  per_ : per = countDies (cid.extractLsb' 43 8)
  rank_ : rank = devs.findIdx (· == s.ownIdx) * per
    + ((List.range (s.coreIdx / 256)).filter fun k => (cid.extractLsb' 43 8).getLsbD k).length

/-- R294, R304 to R306: COLL, its block and record read and every check passed: the command enters its die's collective engine, with the number
of a record in this cluster's memory, which the record then counts; a record of another device the engine numbers later (the model's
choice, log entry 48). -/
def Rules.CollectivesAccepted : Prop :=
  ∀ (s : State) (i : Instr) (g : Guard) (d : Pred) (a : Reg) (op : CollOp) (e : Elem) (red : Red) (b v : Vec) (vs : List Vec) (cid : Word)
    (devs : List Nat) (per rank : Nat) (rdi vsi : InstField) (pl : Place), collOf i = some (g, d, a, op, e, red) →
    s.Resumes (b :: v :: vs) → s.slot.open_ = false → Communicator s ((v :: vs).map (dw · 0)) cid devs per rank →
    (dw b 3).toNat < 2 ^ 32 → (dw b 4).toNat < 2 ^ 32 → (dw b 7).toNat < 2 ^ 16 → blockInsts (dw b 4) = some (rdi, vsi) →
    0 < (dw b 3).toNat → (dw b 3).toNat ≤ 2 ^ 28 → (e = .i4 → (dw b 3).toNat % 2 = 0) → (dw b 7).toNat < devs.length * per →
    (op ≠ .reduce → (dw b 7).toNat = 0) → (dw b 1).toNat % max 1 (elemBits e / 8) = 0 →
    (op ≠ .reduce ∨ rank = (dw b 7).toNat → (dw b 2).toNat % max 1 (elemBits e / 8) = 0) →
    (let n := rowBytes e (dw b 3).toNat
     let ranks := devs.length * per
     let lens := (if op = .rscatter then ranks * n else n, if op = .allgather then ranks * n else n)
     s.checkSpans ((dw b 0 + 8, 8, true) :: (dw b 1, lens.1, false) ::
       (if op ≠ .reduce ∨ rank = (dw b 7).toNat then [(dw b 2, lens.2, true)] else [])) = .ok () → s.ctx.seqNo ≠ 0xFFFF →
     (∀ dv, s.access (dw b 0 + 8) 8 { w := true, n := true } = .ok (.away dv) → s.queueRoom (s.collectorAt (s.coreIdx / 256)) →
       ∃ t c, exec i s = .next t ∧ Accepted s t d ∧ SameMem s t ∧
         t.collectorAt (s.coreIdx / 256) = s.collectorAt (s.coreIdx / 256) ++ [c] ∧ c.sampled s rdi vsi b ∧ c.eng = 3 ∧ c.unit = 0 ∧
         c.cid = cid ∧ c.size = lens.2 ∧ c.stage = .begin_ ∧ c.entry = dw b 0 + 12) ∧
     (s.access (dw b 0 + 8) 8 { w := true, n := true } = .ok (.here pl) → pl.home / 16 = s.cluster → s.badAt (pl.phys + 4) = false →
     (s.queueRoom (s.collectorAt (s.coreIdx / 256)) → ∃ t c, exec i s = .next t ∧ Accepted s t d ∧
       t.collectorAt (s.coreIdx / 256) = s.collectorAt (s.coreIdx / 256) ++ [c] ∧ c.sampled s rdi vsi b ∧ c.eng = 3 ∧ c.unit = 0 ∧
       c.cid = cid ∧ c.size = lens.2 ∧ c.stage = .begin_ ∧ c.entry = 0 ∧
       c.work = .coll (dw b 1) lens.1 (dw b 2)
         { cid := cid, num := .ofNat 32 (s.mem.read (pl.phys + 4) 4), rank := rank
           desc := ⟨op, e, red, (dw b 3).toNat, (dw b 7).toNat⟩, data := 0, fail := none } ranks devs per ∧
       t.mem.read (pl.phys + 4) 4 = (s.mem.read (pl.phys + 4) 4 + 1) % 2 ^ 32 ∧ SameMemBut s t (pl.phys + 4) 4) ∧
     (¬ s.queueRoom (s.collectorAt (s.coreIdx / 256)) → ∃ t, exec i s = .next t ∧ Refused s t d)))

/-- An event that runs the head of a copy or collective engine's queue, and that head (R298 to R300, R306). -/
def copierHead (s : State) : Instr → Option Cmd
  | .cpyExecute k => (s.copierAt k).head?.bind fun c => if c.eng = 0 then some c else none
  | .cpyrExecute k => (s.copierAt k).head?.bind fun c => if c.eng = 1 then some c else none
  | .fillExecute k => (s.copierAt k).head?.bind fun c => if c.eng = 2 then some c else none
  | _ => none

/-- Every event that runs the head of a queue of commands, and that head (R306, R320, R361). -/
def engineHead (s : State) : Instr → Option Cmd
  | .collExecute k => (s.collectorAt k).head?
  | .maskWalk k => (s.sphinxAt k).queue.head?
  | .rmergeExecute _ => s.merges.head?
  | i => copierHead s i

/-- The completion message of a command (R301). -/
def completionOf (s : State) (c : Cmd) : Vec :=
  vecOf [c.hnd, header false 1 s.ownIdx (c.ord.extractLsb' 16 32) (c.ord.extractLsb' 0 16),
    .ofNat 64 (2 ^ 48 * min c.miss 0xFFFF + 2 ^ 40 * c.unit + 2 ^ 32 * c.eng + 2 ^ 8 * c.slipped.toNat
      + (if c.status = 0 ∧ c.lost.isSome = true then 0x08 else c.status).toNat),
    c.tag, if c.status = 0 then c.lost.getD c.tval else c.tval, .ofNat 64 (c.count.getD c.bytes), c.cid, 0]

/-- R301, R302, R181, R361: a command with every piece made waits until they are accepted, slipped or discarded and no invalidation is owed to its
router; then its completion goes to the low inbox of its core, and it leaves its queue. -/
def Rules.CommandsComplete : Prop :=
  ∀ (s : State) (i : Instr) (c : Cmd), engineHead s i = some c → c.stage = .ended →
    (c.out ≠ 0 ∨ s.owes (s.cmdCore c / 16) = true → exec i s = .next s) ∧
    (c.out = 0 → c.flight = none → s.owes (s.cmdCore c / 16) = false → s.running c.part = true →
      ∃ t va, exec i s = .next t ∧
        t.net = s.net ++ [⟨c.part, .message va c.core false (completionOf s c) (.completed (s.cmdCore c) c.stamp)⟩] ∧ SameMem s t ∧
        (∀ e ∈ t.commands, e.stamp ≠ c.stamp) ∧ (∀ e ∈ s.commands, e.stamp ≠ c.stamp → e ∈ t.commands))

/-- R90, R298 to R300: a command of one element of one byte, in the Now domain at homes of this cluster: the element is the source's,
converted with one rounding where the formats differ, or the fill value; it is written and nothing else is, and the command has made every
piece. -/
def Rules.ElementsCopied : Prop :=
  ∀ (s : State) (i : Instr) (c : Cmd) (src : Option View) (dst : View) (f : Word) (pd : Place), copierHead s i = some c →
    c.work = .copy src dst 1 1 1 f → s.cmdReady c = true → c.stage = .begin_ → c.pos = 0 → c.sub = 0 → c.elem = none → c.piece = none →
    c.got = none → elemBits dst.fmt = 8 → c.instAt dst.base = false → s.onDevice dst.base = true →
    s.cmdPlace c dst.base 1 true = .ok (.here pd) → pd.home / 16 = c.core / 16 → s.badAt pd.phys = false →
    (src = none → ∃ t e, exec i s = .next t ∧ t.mem.read pd.phys 1 = f.toNat % 2 ^ 8 ∧ SameMemBut s t pd.phys 1 ∧
      copierHead t i = some e ∧ e.stage = .ended ∧ e.bytes = c.bytes + 1 ∧ e.out = c.out) ∧
    (∀ u ps x, src = some u → u.fmt ≠ .i4 → c.instAt u.base = false →
      s.cmdPlace c u.base (elemBits u.fmt / 8) false = .ok (.here ps) → s.readAt u.base ps (elemBits u.fmt / 8) = .ok x →
      ∃ t e, exec i s = .next t ∧ t.mem.read pd.phys 1 = c.convert u.fmt dst.fmt dst.base x % 2 ^ 8 ∧ SameMemBut s t pd.phys 1 ∧
        copierHead t i = some e ∧ e.stage = .ended ∧ e.bytes = c.bytes + 1 ∧ e.out = c.out)

/-- R90, R298: the element written for one read is the same code where the formats agree, and else its value rounded once into the other, at
the write's site and instant. -/
def Rules.ElementConversion : Prop :=
  ∀ (c : Cmd) (t u : Elem) (va : Word) (x : Nat),
    (t = u → c.convert t u va x = x) ∧
    (t ≠ u → c.convert t u va x = ({
      mode := rmodeOf c.mode, sat := c.sat, key := c.key, site := va.setWidth 48
      inst := if c.instAt va then c.vsi else c.rel } : Rounding).code 0 u (elemVal t x))

/-- R306: a collective's command starts once no invalidation is on its way, and, with every contribution there and agreeing, goes on to write
the bytes of its rank; while one is missing and its device can be reached, it waits. -/
def Rules.CollectiveSteps : Prop :=
  ∀ (s : State) (die : Nat) (c : Cmd) (src dst : Word) (n : Nat) (part : CollPart) (ranks : Nat) (devs : List Nat) (per : Nat),
    (s.collectorAt die).head? = some c → c.work = .coll src n dst part ranks devs per → s.cmdReady c = true →
    (c.stage = .begin_ → c.entry = 0 → (∀ p ∈ s.net, ∀ l r w, p.body ≠ .inval l r w) →
      ∃ t e, exec (.collExecute die) s = .next t ∧ (t.collectorAt die).head? = some e ∧ e = { c with stage := .read } ∧ SameMem s t) ∧
    (∀ x, c.stage = .join → s.groups = [x] → x.part = c.part → x.cid = part.cid → x.num = part.num → x.parts.length = ranks →
      (∀ e ∈ x.parts, e.2.fail = none ∧ e.2.desc = part.desc) → 0 < ranks → (part.desc.op ≠ .reduce ∨ part.rank = part.desc.root) →
      ∃ t e, exec (.collExecute die) s = .next t ∧ (t.collectorAt die).head? = some e ∧ e.stage = .write ∧ e.size = c.size ∧
        e.data = collResult part.desc (x.parts.map (·.2)) per part.rank ∧ SameMem s t) ∧
    (∀ x, c.stage = .join → s.groups = [x] → x.part = c.part → x.cid = part.cid → x.num = part.num → x.parts.length < ranks →
      (∀ d ∈ devs, d = s.ownIdx ∨ s.reachOf d ≠ none) →
      ∃ t, exec (.collExecute die) s = .next t ∧ (t.collectorAt die).head? = some c ∧ SameMem s t)

/-- R307: an element of an integer sum is the sum of every rank's, modulo 2^w, whatever the tree; and of a gather, the bytes of rank q stand
at place q. -/
def Rules.CollectiveSums : Prop :=
  ∀ (d : CollDesc) (parts : List CollPart) (per rank k : Nat), k < d.count →
    (d.op = .allreduce → elemFloat d.t = false → d.red = .sum → 0 < per → parts.length % per = 0 → 0 < parts.length →
      parts.length / per ≤ 6144 →
      collResult d parts per rank / 2 ^ (elemBits d.t * k) % 2 ^ elemBits d.t =
        (parts.map fun p => p.data / 2 ^ (elemBits d.t * k) % 2 ^ elemBits d.t).sum % 2 ^ elemBits d.t) ∧
    (∀ q p, d.op = .allgather → parts[q]? = some p → (∀ e ∈ parts, e.data < 2 ^ (elemBits d.t * d.count)) →
      collResult d parts per rank / 2 ^ (elemBits d.t * d.count * q) % 2 ^ (elemBits d.t * d.count) = p.data)

/-- R176: STSYNC waits while a command of its thread has an Instant-domain piece that is not accepted, slipped or discarded; then it drains,
and completes with nothing else changed. -/
def Rules.StoreSync : Prop :=
  ∀ (s : State) (g : Guard) (c : Scope), s.Performs g 0 false →
    ((∃ e ∈ s.commands, e.stamp ∈ s.slot.cmds ∧ e.instDone = false) →
      exec (.stsync g c) s = .next (s.parks (.stsync g c) .stsync none)) ∧
    ((∀ e ∈ s.commands, e.stamp ∈ s.slot.cmds → e.instDone = true) → s.Drained c → s.slot.prog.drained = false →
      exec (.stsync g c) s = .next (s.completes s.slot))

/-! ## Grammar and sampling (14_grammar) -/

/-- A configuration that a word of MASK or PADV names (R312). -/
def configOf (w : Nat) : Pda := { state := w % 2 ^ 16, depth := w / 2 ^ 16 % 2 ^ 16 }

/-- R294, R319: MASK, its block and header read, with no choice point open: the checks passed, the command enters its cluster's Sphinx queue,
or finds it full. -/
def Rules.MasksAccepted : Prop :=
  ∀ (s : State) (g : Guard) (d : Pred) (a : Reg) (b h : Vec) (m : Image) (rdi vsi : InstField), s.Resumes [b, h] →
    s.slot.open_ = false → imageOf h = some m → blockInsts (dw b 4) = some (rdi, vsi) → (dw b 4).toNat < 2 ^ 32 → dw b 7 = 0 →
    (dw b 3).toNat % 64 = 0 → m.accepts (dw b 2) = true →
    s.checkSpans [(dw b 1, (dw b 2).toNat / 2 ^ 16, false)] = .ok () → s.checkSpans [(dw b 3, m.maskSize, true)] = .ok () →
    s.ctx.seqNo ≠ 0xFFFF →
    (s.queueRoom (s.sphinxAt s.cluster).queue → ∃ t c, exec (.mask g d a) s = .next t ∧ Accepted s t d ∧ SameMem s t ∧
      (t.sphinxAt s.cluster).queue = (s.sphinxAt s.cluster).queue ++ [c] ∧ c.sampled s rdi vsi b ∧ c.unit = 1 ∧ c.eng = 0 ∧
      c.cid = dw b 2 ∧ c.work = .mask b h ∧ c.stage = .begin_ ∧
      t = { s with slots := t.slots, sphinxes := t.sphinxes, stamp := t.stamp }) ∧
    (¬ s.queueRoom (s.sphinxAt s.cluster).queue → ∃ t, exec (.mask g d a) s = .next t ∧ Refused s t d)

/-- R313, R319: a header that breaks its layout, a mask that is not aligned to a line, or a configuration beyond the image's raises PDA-FORMAT
with the block's address; then the stack's bytes are checked, and after them the mask's lines, and the first that fails is raised. -/
def Rules.MasksRefused : Prop :=
  ∀ (s : State) (g : Guard) (d : Pred) (a : Reg) (b h : Vec), s.Resumes [b, h] →
    imageOf h = none ∨ (∃ m, imageOf h = some m ∧ ((dw b 3).toNat % 64 ≠ 0 ∨ m.accepts (dw b 2) = false)) →
    exec (.mask g d a) s = .next (s.trap 0x0E (s.g a))

/-- R319: the lines that MASK reads and writes are checked after its block and header, the stack's before the mask's: a stack byte that is
not readable is raised also where a line of the mask below it is not writable. -/
def Rules.MaskLinesChecked : Prop :=
  ∀ (s : State) (g : Guard) (d : Pred) (a : Reg) (b h : Vec) (m : Image) (f : InstField × InstField) (x : Cause) (tv : Word),
    s.Resumes [b, h] → imageOf h = some m → blockInsts (dw b 4) = some f → (dw b 4).toNat < 2 ^ 32 → dw b 7 = 0 →
    (dw b 3).toNat % 64 = 0 → m.accepts (dw b 2) = true →
    (s.checkSpans [(dw b 1, (dw b 2).toNat / 2 ^ 16, false)] = .error (.of x tv) →
      exec (.mask g d a) s = .next (s.trap x.code tv)) ∧
    (s.checkSpans [(dw b 1, (dw b 2).toNat / 2 ^ 16, false)] = .ok () → s.checkSpans [(dw b 3, m.maskSize, true)] = .error (.of x tv) →
      exec (.mask g d a) s = .next (s.trap x.code tv))

/-- R313: what a header says when it keeps its layout. -/
def Rules.ImageHeaders : Prop :=
  ∀ (h : Vec) (m : Image), imageOf h = some m →
    m.nstm = (dw h 0).toNat % 2 ^ 16 ∧ m.nsymm = (dw h 0).toNat / 2 ^ 16 % 2 ^ 8 ∧ m.cap = (dw h 0).toNat / 2 ^ 32 % 2 ^ 16 ∧
      0 < m.cap ∧ (dw h 0).toNat / 2 ^ 48 = 0 ∧ m.states = dw h 1 ∧ m.trans = dw h 2 ∧ m.trie = dw h 3 ∧ m.toktab = dw h 4 ∧
      m.states.toNat % 8 = 0 ∧ m.trans.toNat % 8 = 0 ∧ m.trie.toNat % 8 = 0 ∧ m.toktab.toNat % 8 = 0 ∧
      m.ntokm = (dw h 5).toNat % 2 ^ 20 ∧ m.eot = (dw h 5).toNat / 2 ^ 32 % 2 ^ 20 ∧ dw h 6 = 0 ∧ dw h 7 = 0

/-- R320, R322: MASK_WALK's steps: the engine starts once no instruction that asked for it before is left; it reads what its walk lacks; with
the walk done it goes on to write the mask, whose bits it has counted; and an image that breaks its layout ends the command with
PDA-FORMAT. -/
def Rules.MaskWalks : Prop :=
  ∀ (s : State) (k : Nat) (c : Cmd) (blk hdr : Vec) (m : Image), (s.sphinxAt k).queue.head? = some c → c.work = .mask blk hdr →
    imageOf hdr = some m → s.cmdReady c = true →
    (c.stage = .begin_ → (∀ n ∈ (s.sphinxAt (c.core / 16)).asks, s.asking n = false) →
      ∃ t, exec (.maskWalk k) s = .next t ∧ (t.sphinxAt k).queue.head? = some { c with stage := .read } ∧ SameMem s t) ∧
    (∀ va n x, c.stage = .read → m.mask (dw blk 1) (dw blk 2) c.cache = .error (.need va n) → c.got = some (va, .ok x) →
      ∃ t, exec (.maskWalk k) s = .next t ∧
        (t.sphinxAt k).queue.head? = some { c with got := none, cache := c.cache ++ [(va, n, x.toNat)] } ∧ SameMem s t) ∧
    (c.stage = .read → m.mask (dw blk 1) (dw blk 2) c.cache = .error .format →
      ∃ t e, exec (.maskWalk k) s = .next t ∧ (t.sphinxAt k).queue.head? = some e ∧ e.stage = .ended ∧ e.status = 0x0E ∧ e.tval = 0 ∧
        SameMem s t) ∧
    (∀ bits, c.stage = .read → m.mask (dw blk 1) (dw blk 2) c.cache = .ok bits →
      ∃ t e, exec (.maskWalk k) s = .next t ∧ (t.sphinxAt k).queue.head? = some e ∧ e.stage = .write ∧ e.data = bits ∧
        e.size = (m.ntokm + 64) / 64 * 8 ∧ e.pos = 0 ∧
        e.count = some ((List.range (m.ntokm + 1)).filter bits.testBit).length ∧ SameMem s t)

/-- A transition's word (R314): symbols that its fields may name, and whether it takes a byte at a top symbol. -/
structure TransWord (m : Image) (w next psym top sel act lo hi : Nat) : Prop where
  fields : next = w / 2 ^ 48 % 2 ^ 16 ∧ psym = w / 2 ^ 32 % 2 ^ 8 ∧ act = w / 2 ^ 26 % 4 ∧ sel = w / 2 ^ 24 % 4 ∧
    top = w / 2 ^ 16 % 2 ^ 8 ∧ hi = w / 2 ^ 8 % 2 ^ 8 ∧ lo = w % 2 ^ 8
  clear : w / 2 ^ 40 % 2 ^ 8 = 0 ∧ w / 2 ^ 28 % 2 ^ 4 = 0 ∧ sel ≠ 3 ∧ lo ≤ hi
  bounds : next ≤ m.nstm ∧ top ≤ m.nsymm ∧ psym ≤ m.nsymm

/-- R315: the scan of a state's transitions takes the first whose range holds the byte and whose test passes: an underflow or an overflow of
the stack, or the next configuration; one that does not apply is passed over, and none is no match. -/
def Rules.AutomatonSteps : Prop :=
  ∀ (m : Image) (c : Cache) (stk : Word) (q : Pda) (b n x w next psym top sel act lo hi : Nat) (e : Bool × Nat × Nat),
    c.look (m.trans + .ofNat 64 (8 * x)) 8 = .ok w → TransWord m w next psym top sel act lo hi → m.entry c next = .ok e →
    m.scan c stk q b 0 x = .ok .noMatch ∧
    (b < lo ∨ hi < b → m.scan c stk q b (n + 1) x = m.scan c stk q b n (x + 1)) ∧
    (lo ≤ b → b ≤ hi →
      (sel = 2 → q.depth ≠ 0 → m.scan c stk q b (n + 1) x = m.scan c stk q b n (x + 1)) ∧
      (sel = 0 → q.depth = 0 → m.scan c stk q b (n + 1) x = m.scan c stk q b n (x + 1)) ∧
      (∀ y, sel = 0 → 0 < q.depth → q.symbol c stk (q.depth - 1) = .ok y → y ≠ top →
        m.scan c stk q b (n + 1) x = m.scan c stk q b n (x + 1)) ∧
      (sel = 1 ∨ (sel = 2 ∧ q.depth = 0) ∨ (sel = 0 ∧ 0 < q.depth ∧ q.symbol c stk (q.depth - 1) = .ok top) →
        (act = 0 → m.scan c stk q b (n + 1) x = .ok (.goes { state := next, depth := q.depth, written := q.written } q.depth)) ∧
        (2 ≤ act → q.depth = 0 → m.scan c stk q b (n + 1) x = .ok .under) ∧
        (act = 1 → q.depth = m.cap → m.scan c stk q b (n + 1) x = .ok .overflow) ∧
        (act = 1 → q.depth ≠ m.cap → m.scan c stk q b (n + 1) x =
          .ok (.goes { state := next, depth := q.depth + 1, written := (q.depth, psym) :: q.written } q.depth)) ∧
        (act = 2 → 0 < q.depth → m.scan c stk q b (n + 1) x =
          .ok (.goes { state := next, depth := q.depth - 1, written := q.written } (q.depth - 1))) ∧
        (act = 3 → 0 < q.depth → q.depth - 1 ≠ m.cap → m.scan c stk q b (n + 1) x =
          .ok (.goes { state := next, depth := q.depth, written := (q.depth - 1, psym) :: q.written } (q.depth - 1)))))

/-- A walk's answer once it has read these values, one by one. -/
def walked {α : Type} (f : Cache → Except Hitch α) : List Vec → Cache → Except Hitch α
  | [], c => f c
  | v :: r, c =>
    match f c with
    | .error (.need va n) => walked f r (c ++ [(va, n, v.toNat)])
    | x => x

/-- R323: PADV, its block, its header and what its walk asks for read, the Sphinx engine not at work, and no instruction before it that
asks for the engine (R310). A token that the automaton does not
take gives all ones; one that breaks the stack's bounds raises PDA-STACK with the token; one that it takes gives the new configuration,
and the symbols that it leaves above the lowest depth are written: here none, or one, in the Now domain. -/
def Rules.TokensAdvanced : Prop :=
  ∀ (s : State) (g : Guard) (d a b : Reg) (blk h : Vec) (m : Image) (f : InstField × InstField) (vs : List Vec) (r : Advance),
    s.Resumes (blk :: h :: vs) → s.slot.open_ = false → imageOf h = some m → blockInsts (dw blk 4) = some f →
    (dw blk 4).toNat < 2 ^ 32 → dw blk 7 = 0 → m.accepts (s.g d) = true → (s.g b).toNat ≤ m.ntokm →
    (∀ c, (s.sphinxAt s.cluster).queue.head? = some c → c.stage = .begin_) →
    (∀ n ∈ (s.sphinxAt s.cluster).asks, n ≠ s.cur → s.asking n = false) → vs.length < 1000 → s.slot.prog.lanes = 0 →
    walked (m.advance (dw blk 1) (s.g d).toNat (s.g b).toNat) vs [] = .ok r →
    (r = .rejected → ∃ t, exec (.padv g d a b) s = .next t ∧ t.g d = .allOnes 64 ∧ ThreadFrame s t [d] ∧ t.ctx.pc = s.nextPc ∧
      t = { s with slots := t.slots, sphinxes := t.sphinxes }) ∧
    (r = .stack → exec (.padv g d a b) s = .next (s.trap 0x14 (s.g b))) ∧
    (∀ q, r = .goes q q.depth → ∃ t, exec (.padv g d a b) s = .next t ∧ t.g d = .ofNat 64 (2 ^ 16 * q.depth + q.state) ∧
      ThreadFrame s t [d] ∧ t.ctx.pc = s.nextPc ∧ t = { s with slots := t.slots, sphinxes := t.sphinxes }) ∧
    (∀ q low y pl, r = .goes q low → q.depth = low + 1 → q.written.find? (fun e => e.1 == low) = some (low, y) →
      s.access (dw blk 1 + .ofNat 64 low) 1 { w := true, n := true } = .ok (.here pl) → pl.home / 16 = s.cluster →
      s.badAt pl.phys = false →
      ∃ t, exec (.padv g d a b) s = .next t ∧ t.g d = .ofNat 64 (2 ^ 16 * q.depth + q.state) ∧
        t.mem.read pl.phys 1 = y % 2 ^ 8 ∧ SameMemBut s t pl.phys 1 ∧ (∀ n, n ≠ d → t.g n = s.g n) ∧ t.ctx.pc = s.nextPc)

/-- The legal tokens of SAMPLE and ARGMX with their logits (R327): a bit of 1 in the mask and a logit that is no NaN. -/
def legalTokens (n : Nat) (mask logits : Nat) : List (Nat × Num) :=
  (List.range n).filterMap fun t =>
    if mask.testBit t = true ∧ floatVal .f32 (logits / 2 ^ (32 * t) % 2 ^ 32) ≠ .nan then
      some (t, floatVal .f32 (logits / 2 ^ (32 * t) % 2 ^ 32)) else none

/-- Lines as one value. -/
def joined (l : List Vec) : Nat := l.foldr (fun v a => v.toNat + 2 ^ 512 * a) 0

/-- R325 to R329: SAMPLE and ARGMX, their block, mask and logits read. With no token legal the trap bit decides: NO-LEGAL-TOKEN, or all ones
in 32 bits with p[e] 0. Otherwise p[e] is 1; ARGMX gives the first token whose logit none exceeds, and SAMPLE the one that its draw
picks among the weights. -/
def Rules.TokensChosen : Prop :=
  ∀ (s : State) (g : Guard) (d a : Reg) (e : Pred) (b : Vec) (ms ls : List Vec) (n : Nat), s.Resumes (b :: (ms ++ ls)) →
    s.slot.open_ = false → s.slot.prog.msk = none → n = (dw b 2).toNat % 2 ^ 20 + 1 → (dw b 2).toNat / 2 ^ 20 % 2 ^ 12 = 0 →
    dw b 5 = 0 → dw b 6 = 0 → dw b 7 = 0 → (dw b 0).toNat % 64 = 0 → (dw b 1).toNat % 64 = 0 →
    ms.length = (partsOf (dw b 1) ((n + 63) / 64 * 8)).length → ls.length = (partsOf (dw b 0) (4 * n)).length →
    (legalTokens n (joined ms) (joined ls) = [] → s.part.regs.msk.getLsbD 0 = true →
      exec (.sample g d a e) s = .next (s.trap 0x13 (s.g a)) ∧ exec (.argmx g d a e) s = .next (s.trap 0x13 (s.g a))) ∧
    (legalTokens n (joined ms) (joined ls) = [] → s.part.regs.msk.getLsbD 0 = false →
      ∀ i, (i = .sample g d a e ∨ i = .argmx g d a e) → ∃ t, exec i s = .next t ∧ t.g d = 0xFFFFFFFF ∧ t.p e = decide (e = 0) ∧
        (∀ k, k ≠ d → t.g k = s.g k) ∧ (∀ k, k ≠ e → t.p k = s.p k) ∧ t.ctx.pc = s.nextPc ∧ t = { s with slots := t.slots }) ∧
    (∀ x r, legalTokens n (joined ms) (joined ls) = x :: r →
      (∃ t k l, exec (.argmx g d a e) s = .next t ∧ t.g d = .ofNat 64 k ∧ t.p e = true ∧ (k, l) ∈ x :: r ∧
        (∀ y ∈ x :: r, l.cmp y.2 ≠ .lt ∧ (y.1 < k → y.2.cmp l = .lt)) ∧
        (∀ k, k ≠ d → t.g k = s.g k) ∧ (∀ k, k ≠ e → t.p k = s.p k) ∧ t.ctx.pc = s.nextPc ∧ t = { s with slots := t.slots }) ∧
      (∃ t m, exec (.sample g d a e) s = .next t ∧ t.p e = true ∧ (∃ k, (k, m) ∈ x :: r) ∧ (∀ y ∈ x :: r, m.cmp y.2 ≠ .lt) ∧
        (let ws := (x :: r).map fun y => (y.1, weightOf y.2 m (floatVal .f32 ((dw b 2).toNat / 2 ^ 32)))
         t.g d = .ofNat 64 (pickToken ((gen (dw b 4) (dw b 3)).toNat * (ws.map (·.2)).sum / 2 ^ 64) ws 0)) ∧
        (∀ k, k ≠ d → t.g k = s.g k) ∧ (∀ k, k ≠ e → t.p k = s.p k) ∧ t.ctx.pc = s.nextPc ∧ t = { s with slots := t.slots }))

/-- R327, R328: a draw below the sum of the weights picks a token of positive weight, the first whose running sum exceeds the draw. -/
def Rules.DrawsPick : Prop :=
  ∀ (ws : List (Nat × Nat)) (x : Word), 0 < (ws.map (·.2)).sum →
    ∃ pre w post, ws = pre ++ w :: post ∧ pickToken (x.toNat * (ws.map (·.2)).sum / 2 ^ 64) ws 0 = w.1 ∧ 0 < w.2 ∧
      (pre.map (·.2)).sum ≤ x.toNat * (ws.map (·.2)).sum / 2 ^ 64 ∧
      x.toNat * (ws.map (·.2)).sum / 2 ^ 64 < (pre.map (·.2)).sum + w.2

/-! ## Choice points (15_choice) -/

/-- R332, R339: TRY, its first alternative read: the point is pushed with what the rule lists, g[d] gets the alternative's value, its old one
trailed, and the thread goes on at the alternative's address. A count of 0 or above 256, or a stack of 64, raises CHOICE-DEPTH. -/
def Rules.PointsOpen : Prop :=
  ∀ (s : State) (g : Guard) (d a b : Reg),
    (s.Performs g 0 true → (s.g b = 0 ∨ 256 < (s.g b).toNat → exec (.tryPoint g d a b) s = .next (s.counted.trap 0x11 (s.g b))) ∧
      (0 < (s.g b).toNat → (s.g b).toNat ≤ 256 → 64 ≤ s.slot.points.length →
        exec (.tryPoint g d a b) s = .next (s.counted.trap 0x11 64))) ∧
    (∀ t v q, s.Resumes [t, v] → 0 < (s.g b).toNat → (s.g b).toNat ≤ 256 → s.slot.points.length < 64 → (s.g a).toNat % 8 = 0 →
      s.slot.arena = some q → q.arenaOk = true → s.slot.inh = false → s.slot.trail.length < 256 →
      ∃ u, exec (.tryPoint g d a b) s = .next u ∧ u.ctx.pc = dw t 0 ∧ u.g d = dw v 0 ∧
        u.slot.points = { tab := s.g a, thf := 0, next := 1, naltm := (s.g b).toNat - 1, dreg := d, prov := (s.provOf s.cur).length
                          wf := s.slot.wf, loops := s.ctx.loops, trl := s.slot.trailCount } :: s.slot.points ∧
        u.slot.trail = ⟨.greg d, s.g d, s.slot.frame d⟩ :: s.slot.trail ∧ u.ctx.loops = s.ctx.loops ∧ ThreadFrame s u [d] ∧ u = { s with slots := u.slots })

/-- The oldest of these trail entries for a place, those of a window that is not the frame's left out (R340, R341). -/
def oldestOf (wf : Word) (es : List TrailEnt) (a : TrailAt) : Option Word :=
  (es.reverse.find? fun e => e.at_ == a && e.wf.all fun w => w == wf).map (·.old)

/-- R340, R341, R333: FAIL with an alternative left at the newest point, its entry read, its window current, and entries for registers and
predicates only: each gets back the value that its oldest entry since the point holds, one of g8 to g15 that of the point's window only;
the loop stack is the point's; the point counts one more alternative; its register gets the alternative's value, its value before that,
which the undoing gave, trailed; and the thread goes on there. That an entry of another window is passed over is R341's rule over
R340's words (log entry 111). -/
def Rules.FailsBack : Prop :=
  ∀ (s : State) (g : Guard) (t v : Vec) (q : Point) (r : List Point) (es base : List TrailEnt), s.Resumes [t, v] →
    s.slot.points = q :: r → q.next ≤ q.naltm → q.wf = s.slot.wf → s.slot.inh = false → s.slot.tail = [] →
    s.slot.trail = es ++ base → base.length = q.trl → base.length < 256 → (s.provOf s.cur).length ≤ q.prov →
    (∀ e ∈ es, (∃ n, e.at_ = .greg n) ∨ ∃ n, n ≠ 0 ∧ e.at_ = .pred n) →
    let back := fun (n : Reg) => (oldestOf q.wf es (.greg n)).getD (s.g n)
    ∃ u, exec (.fail g) s = .next u ∧ u.ctx.pc = dw t 0 ∧ u.g q.dreg = dw v 0 ∧ u.ctx.loops = q.loops ∧
      u.slot.points = { q with next := q.next + 1 } :: r ∧ (∀ n, n ≠ q.dreg → u.g n = back n) ∧
      (∀ n, n ≠ 0 → u.p n = ((es.reverse.find? fun e => e.at_ == .pred n && e.wf.all fun w => w == q.wf).map
        (·.old.getLsbD 0)).getD (s.p n)) ∧
      u.slot.trail = ⟨.greg q.dreg, back q.dreg, s.slot.frame q.dreg⟩ :: base ∧ u = { s with slots := u.slots } ∧
      (∀ m, m ≠ s.cur → u.slotAt m = s.slotAt m)

/-- R333, R340: an arena entry gives its bytes back. -/
def Rules.ArenaUndone : Prop :=
  ∀ (s : State) (va old : Word) (z : Size),
    let t := s.undoEntry ⟨.arena va z, old, none⟩
    t.mem.read (localPhys s.coreIdx va) (sizeBytes z) = old.toNat % 2 ^ (8 * sizeBytes z) ∧
      SameMemBut s t (localPhys s.coreIdx va) (sizeBytes z) ∧ t.ctx = s.ctx

/-- R235, R340: FAIL with no choice point, of a thread that has nothing to wait for, ends it. -/
def Rules.FailsEnd : Prop :=
  ∀ (s : State) (g : Guard), s.MayEnd → s.slot.task = none →
    s.Performs g 0 false → ∃ t, exec (.fail g) s = .next t ∧
      t.slotAt s.cur = { part := s.slot.part, ready := s.slot.ready, gen := s.slot.gen } ∧
      ∀ m, m ≠ s.cur → t.slotAt m = s.slotAt m

/-- R342: CUT leaves the oldest g[a] points, and with none left discards the trail; each thief of a point that it pops is sent a kill, newest
point first; registers stand. -/
def Rules.Cuts : Prop :=
  ∀ (s : State) (g : Guard) (a : Reg), s.Performs g 0 false → s.slot.prog.lost = none → s.provOf s.cur = [] →
    (s.slot.points.length ≤ (s.g a).toNat → ∃ t, exec (.cut g a) s = .next t ∧ RegFrame s t [] [] ∧ t.ctx.pc = s.nextPc) ∧
    ((s.g a).toNat < s.slot.points.length → ∃ t, exec (.cut g a) s = .next t ∧
      t.slot.points = s.slot.points.drop (s.slot.points.length - (s.g a).toNat) ∧
      t.slot.trail = (if (s.g a).toNat = 0 then [] else s.slot.trail) ∧
      t.net = s.net ++ ((s.slot.points.take (s.slot.points.length - (s.g a).toNat)).flatMap fun q => q.thieves s.coreIdx).map
        (fun n => ⟨(s.slotAt n).part, .kill (s.thiefKey n)⟩) ∧
      ThreadFrame s t [] ∧ t.ctx.pc = s.nextPc ∧ t = { s with slots := t.slots, net := t.net })

/-- R337, R342, R343: CPD gives the depth of the choice stack. COMMIT of a bound thief raises CHOICE-ESCAPE; with no entries it does nothing;
with entries it leaves the rotation, the first one, checked and translated again, sent to its port here, and every point counts none. -/
def Rules.DepthAndCommit : Prop :=
  ∀ (s : State) (g : Guard) (d : Reg), s.Performs g 0 false →
    (s.TrailRoom → ∃ t, exec (.cpd g d) s = .next t ∧ t.g d = .ofNat 64 s.slot.points.length ∧ RegFrame s t [d] [] ∧
      t.ctx.pc = s.nextPc) ∧
    (s.slot.prog.lost = none →
      (s.slot.bind ≠ none → exec (.commit g) s = .next (s.counted.trap 0x12 0)) ∧
      (s.slot.bind = none → s.provOf s.cur = [] → ∃ t, exec (.commit g) s = .next t ∧ RegFrame s t [] [] ∧ t.ctx.pc = s.nextPc) ∧
      (∀ e r pl, s.slot.bind = none → s.provOf s.cur = e :: r → e.sent = false →
        checkSeg s.slot e.st.va e.st.n { w := true, i := true } = .ok () →
        s.locate s.coreIdx e.part e.st.va e.st.n 3 = .ok (.here pl) → pl.so = false →
        ∃ t, exec (.commit g) s = .next t ∧ t.slot.run = .waiting .sending ∧ t.ctx = s.ctx ∧ SameMem s t ∧
          t.slot.points = s.slot.points.map (fun p => { p with prov := 0 }) ∧
          t.net = s.net ++ [⟨e.part, .store (.entry s.cur) { e.st with pl := pl }⟩]))

/-- R344, R346: STEAL waits while another of its core is at work, or one issued before it waits. With no victim it clears p[d]. With one, the alternative's entry read, the victim's window at the point current and nothing of it
to undo: the thief is bound to the point, which counts one more alternative and the thief; it gets the victim's registers, with g14
moved to its own arena, g15 at 0 and the point's register at the alternative's value, and the victim's arena half; and goes on there. -/
def Rules.Steals : Prop :=
  ∀ (s : State) (g : Guard) (d : Pred) (a : Reg) (own : Seg), s.slot.open_ = false → s.slot.arena = some own → own.arenaOk = true →
    (s.Performs g 0 true → s.stealing = true → ∃ t, exec (.steal g d a) s = .next t ∧ t.ctx = s.ctx ∧ t.slot.run = s.slot.run ∧
      t.slot.prog.word = encodeWord (.steal g d a) ∧ t.slot.prog.theft = s.slot.prog.theft ∧ t = { s with slots := t.slots }) ∧
    (s.stealing = false → s.Performs g 0 true → s.slot.prog.theft = none → s.victim (s.g a).toNat own.limit = none →
      ∃ t, exec (.steal g d a) s = .next t ∧ t.p d = decide (d = 0) ∧ (∀ n, n ≠ d → t.p n = s.p n) ∧ (∀ n, t.g n = s.g n) ∧
        t.ctx.pc = s.nextPc ∧ t = { s with slots := t.slots }) ∧
    (∀ n k q vs t v, s.stealing = false → s.Resumes [t, v] → s.slot.prog.theft = some (n, k) → n ≠ s.cur →
      (s.slotAt n).points[(s.slotAt n).points.length - 1 - k]? = some q → (s.slotAt n).arena = some vs → vs.limit = own.limit →
      (s.slotAt n).wf = q.wf → (s.slotAt n).trailCount = q.trl → s.slot.inh = false → s.slot.points = [] →
      (∀ j, j < own.limit.toNat / 2 → localPhys s.coreIdx (own.base + .ofNat 64 j) = localPhys s.coreIdx own.base + j) →
      (∀ j, j < vs.limit.toNat / 2 / 16 → s.badAt (localPhys s.coreIdx vs.base + 16 * j) = false ∧
        s.badAt (localPhys s.coreIdx own.base + 16 * j) = false) →
      ∃ u, exec (.steal g d a) s = .next u ∧ u.ctx.pc = dw t 0 ∧ u.slot.bind = some (n, k) ∧ u.slot.windows = [] ∧
        (u.slotAt n).points = (s.slotAt n).points.modify ((s.slotAt n).points.length - 1 - k)
          (fun p => { p with next := p.next + 1, thf := p.thf ||| (1#16 <<< (s.cur % 16)) }) ∧
        (u.slotAt n).ctx = (s.slotAt n).ctx ∧ u.ctx.loops = q.loops ∧ u.g q.dreg = dw v 0 ∧
        (q.dreg ≠ 15 → u.g 15 = 0) ∧ (q.dreg ≠ 14 → u.g 14 = (s.slotAt n).ctx.g[14] - vs.base + own.base) ∧
        (∀ m : Reg, m.val < 14 → m ≠ q.dreg → u.g m = (s.slotAt n).ctx.g[m]) ∧
        (∀ j, j < own.limit.toNat / 2 →
          u.mem.byte (localPhys s.coreIdx own.base + j) = s.mem.byte (localPhys s.coreIdx vs.base + j)) ∧
        SameMemBut s u (localPhys s.coreIdx own.base) (own.limit.toNat / 2))

/-- R344, R217: the victim that a STEAL finds is the lowest slot of its core, of its partition, that its mask names, that may issue, with no
word in progress, whose arena is as long as the thief's, and that has a point with an untried alternative: its oldest such point. -/
def Rules.VictimsFound : Prop :=
  ∀ (s : State) (mask n k : Nat) (limit : BitVec 48), s.victim mask limit = some (n, k) →
    n / 16 = s.coreIdx ∧ mask.testBit (n % 16) = true ∧ n ≠ s.cur ∧ (s.slotAt n).part = s.slot.part ∧ (s.slotAt n).run = .runnable ∧
      (s.slotAt n).ready ≤ s.cycles (n / 256) ∧ (s.slotAt n).prog.word = none ∧
      (∃ g, (s.slotAt n).arena = some g ∧ g.limit = limit) ∧
      (∃ q, (s.slotAt n).points.reverse[k]? = some q ∧ q.next ≤ q.naltm) ∧
      (∀ j q, j < k → (s.slotAt n).points.reverse[j]? = some q → q.naltm < q.next)

/-- R345, R100, R282: a kill ends a bound thief at its next issue, whatever it waits for: its points, its trail and its entries are gone, what
was under way for it is forgotten, and it performs an EXIT; a division or a list in progress ends first. A release leaves the thief
bound no more, and lets its EXIT go on. -/
def Rules.ThievesEnd : Prop :=
  ∀ (s : State) (k n : Nat) (p : Fin 8),
    (s.net[k]? = some ⟨p, .kill n⟩ → (s.slotAt n).bind = none → ∃ t, exec (.killMessage k) s = .next t ∧
      t = { s with net := s.net.eraseIdx k }) ∧
    (∀ b, s.net[k]? = some ⟨p, .kill n⟩ → (s.slotAt n).bind = some b →
      ((s.slotAt n).run = .waiting .divider ∨ (s.slotAt n).run = .waiting .list) → exec (.killMessage k) s = .next s) ∧
    (∀ b, s.net[k]? = some ⟨p, .kill n⟩ → (s.slotAt n).bind = some b → (s.slotAt n).run ≠ .waiting .divider →
      (s.slotAt n).run ≠ .waiting .list → b.1 ≠ n →
      ∃ t, exec (.killMessage k) s = .next t ∧ (t.slotAt n).bind = none ∧ (t.slotAt n).points = [] ∧ (t.slotAt n).trail = [] ∧
        (t.slotAt n).tail = [] ∧ (t.slotAt n).run = .runnable ∧ (t.slotAt n).prog = { word := encodeWord (.exit 0) } ∧
        (∀ e ∈ (t.coreAt (n / 16)).prov, e.slot ≠ n) ∧ (∀ q ∈ t.net, ∀ r, q.body ≠ .request n r) ∧ SameMem s t) ∧
    (s.net[k]? = some ⟨p, .release n⟩ → ∃ t, exec (.thiefRelease k) s = .next t ∧ (t.slotAt n).bind = none ∧
      (t.slotAt n).ctx = (s.slotAt n).ctx ∧ t.net = s.net.eraseIdx k ∧ t = { s with net := t.net, slots := t.slots } ∧
      (t.slotAt n).run = if (s.slotAt n).run = .waiting .bound then .runnable else (s.slotAt n).run)

/-! ## Replicas (16_replica) -/

/-- R351, R353, R354: ECNT posts a count for its expert and goes on; the update adds it, up to the counter's limit. -/
def Rules.CountsPosted : Prop :=
  ∀ (s : State) (g : Guard) (a b : Reg) (k e : Nat) (n : Half) (p : Fin 8),
    (s.Performs g 0 false → s.slot.open_ = false → (s.g a).toNat ≤ mnNexpm s.part.regs.mncfg →
      ∃ t, exec (.ecnt g a b) s = .next t ∧ t.net = s.net ++ [⟨s.slot.part, .ecnt (s.g a).toNat ((s.g b).setWidth 32)⟩] ∧
        ThreadFrame s t [] ∧ t.ctx.pc = s.nextPc ∧ t = { s with slots := t.slots, net := t.net }) ∧
    (s.net[k]? = some ⟨p, .ecnt e n⟩ → ∃ t, exec (.ecntUpdate k) s = .next t ∧
      (Table.get 0 (t.monarch p).counts e).toNat = min ((Table.get 0 (s.monarch p).counts e).toNat + n.toNat) (2 ^ 32 - 1) ∧
      (∀ f, f ≠ e → Table.get 0 (t.monarch p).counts f = Table.get 0 (s.monarch p).counts f) ∧
      t.net = s.net.eraseIdx k ∧ t = { s with net := t.net, parts := t.parts })

/-- R353: an expert beyond the partition's raises REPLICA-STALE with its number. -/
def Rules.ExpertsChecked : Prop :=
  ∀ (s : State) (i : Instr) (g : Guard) (d a b : Reg) (min : Nat) (bar : Bool),
    (i = .ecnt g a b ∧ min = 0 ∧ bar = false ∨ i = .rlook g d a b ∧ min = 0 ∧ bar = false ∨ i = .rpub g a b ∧ min = 1 ∧ bar = true ∨
      i = .rret g a b ∧ min = 1 ∧ bar = true) → s.Performs g min bar → s.slot.open_ = false →
    mnNexpm s.part.regs.mncfg < (s.g a).toNat → exec i s = .next (s.counted.trap 0x15 (s.g a))

/-- R347, R355: RLOOK at its entry's home core reads the entry as of REL and gives the address of the live slot that its key picks; an entry
whose slot 0 is not live raises REPLICA-STALE. -/
def Rules.ReplicasFound : Prop :=
  ∀ (s : State) (g : Guard) (d a b : Reg) (pl : Place) (ent : Vec), s.Performs g 0 false → s.TrailRoom →
    (s.g a).toNat ≤ mnNexpm s.part.regs.mncfg → s.access (s.part.regs.entryAt (s.g a).toNat) 64 { r := true, i := true } = .ok (.here pl) →
    pl.home = s.coreIdx → s.badAt pl.phys = false → s.ctx.rel.toNat ≤ s.part.now.toNat → pl.phys % 64 = 0 →
    s.floor s.slot.part (pl.home / 16) (pl.phys / 64) ≤ s.ctx.rel.toNat →
    s.lineAt s.slot.part (pl.home / 16) (pl.phys / 64) s.ctx.rel = ent.toNat →
    (entLive ent 0 = true → ∃ t k, exec (.rlook g d a b) s = .next t ∧ (entSlots ent)[(s.g b).toNat % (entSlots ent).length]? = some k ∧
      t.g d = .ofNat 64 (0x1FFF * 2 ^ 48 + (dw ent k).toNat % 2 ^ 48) ∧ RegFrame s t [d] [] ∧ t.ctx.pc = s.nextPc) ∧
    (entLive ent 0 = false → exec (.rlook g d a b) s = .next (s.counted.trap 0x15 (s.g a)))

/-- R349, R350, R356, R357: RPUB, its image read and accepted, and RRET of a live slot above 0, for an expert without a pending mark: the new
entry goes to its port as one store at VIS, the expert is marked, and the thread waits. -/
def Rules.EntriesPublished : Prop :=
  ∀ (s : State) (g : Guard) (a b : Reg) (pl : Place), s.slot.open_ = false → (s.g a).toNat ≤ mnNexpm s.part.regs.mncfg →
    (s.monarch s.slot.part).marked (s.g a).toNat = false → s.ctx.seqNo ≠ 0xFFFF →
    s.monarchPlace s.slot.part (s.part.regs.entryAt (s.g a).toNat) = .ok pl →
    (let st := fun (img : Vec) => (⟨s.slot.part, .store (.publish (some s.cur) (s.g a).toNat)
        { va := s.part.regs.entryAt (s.g a).toNat, pl := pl, n := 64, x := img, mask := .allOnes 64, v := s.ctx.vis
          ord := s.ctx.ord, slip := s.ctx.pol }⟩ : Packet)
     (∀ img, s.Resumes [img] → imageOk img = true → ∃ t, exec (.rpub g a b) s = .next t ∧ t.net = s.net ++ [st img] ∧
       (t.monarch s.slot.part).marked (s.g a).toNat = true ∧ t.slot.run = .waiting .reply ∧ t.slot.prog.fin = some .accepted ∧
       t.ctx = s.ctx ∧ SameMem s t) ∧
     (∀ ent, s.Performs g 1 true → s.entry s.slot.part (s.g a).toNat s.part.now = .ok ent → 0 < (s.g b).toNat →
       (s.g b).toNat ≤ 7 → entLive ent (s.g b).toNat = true → ∃ t img, exec (.rret g a b) s = .next t ∧ t.net = s.net ++ [st img] ∧
         entLive img (s.g b).toNat = false ∧ (∀ j, j ≤ 7 → j ≠ 0 → j ≠ (s.g b).toNat → dw img j = dw ent j) ∧
         (dw img 0).toNat % 2 ^ 48 = (dw ent 0).toNat % 2 ^ 48 ∧
         (dw img 0).toNat / 2 ^ 48 % 2 ^ 12 = ((dw ent 0).toNat / 2 ^ 48 % 2 ^ 12 + 1) % 2 ^ 12 ∧
         (t.monarch s.slot.part).marked (s.g a).toNat = true ∧ t.slot.run = .waiting .reply ∧ t.ctx = s.ctx ∧ SameMem s t))

/-- R350, R358: RCOPY, its block read and every check passed: the expert is marked at V, the area is taken, and the copy is among Monarch's;
with eight under way p[d] is 0 and nothing else changes. -/
def Rules.CopiesBegun : Prop :=
  ∀ (s : State) (g : Guard) (d : Pred) (a : Reg) (b ent : Vec) (rdi : InstField) (e die area : Nat) (v : Instant), s.Resumes [b] →
    s.slot.open_ = false → e = (dw b 0).toNat → e < 2 ^ 12 → (dw b 1).toNat = die + 2 ^ 8 * area → die < 8 → area < 64 →
    dw b 2 = v.setWidth 64 → (dw b 3).toNat < 2 ^ 32 → (dw b 3).toNat % 2 ^ 16 = 0 → dw b 6 = 0 → dw b 7 = 0 →
    InstField.ofCode ((dw b 3).toNat / 2 ^ 16 % 2 ^ 16) = some rdi → e ≤ mnNexpm s.part.regs.mncfg →
    (s.monarch s.slot.part).marked e = false → s.entry s.slot.part e s.part.now = .ok ent → entLive ent 0 = true →
    (entSlots ent).length < 8 → s.dieOn die = true → (∀ k ∈ entSlots ent, entDie ent k ≠ die) → area ≤ mnNareaM s.part.regs.mngeo →
    (s.monarch s.slot.part).free die area = true → s.part.now.toNat < v.toNat → s.ctx.seqNo ≠ 0xFFFF →
    (s.copies.length < 8 → ∃ t c, exec (.rcopy g d a) s = .next t ∧ t.p d = true ∧ (∀ n, n ≠ d → t.p n = s.p n) ∧
      (∀ n, t.g n = s.g n) ∧ t.ctx.ord = s.ctx.ord + 1 ∧ t.ctx.pc = s.nextPc ∧ t.copies = s.copies ++ [c] ∧ c.vsi = v ∧ c.unit = 2 ∧
      c.seg = none ∧ c.hnd = dw b 4 ∧ c.tag = dw b 5 ∧ c.rdi = instField rdi s.ctx.rel s.ctx.rel s.part.now ∧
      c.work = copyWork s.part.regs ent e die area ∧ c.entry = s.part.regs.entryAt e ∧ c.published = false ∧ (t.monarch s.slot.part).marked e = true ∧
      (t.monarch s.slot.part).free die area = false ∧ SameMem s t) ∧
    (8 ≤ s.copies.length → ∃ t, exec (.rcopy g d a) s = .next t ∧ Refused s t d)

/-- R359, R360: a copy under way sends one line after the other, as of its read instant, to its area, as stores at V; with every piece
accepted it publishes its entry, changed at its slot, at V; one that reaches V before its publication is accepted fails with
INSTANT-MISS, or with COPY-FAIL where no channel joins its die to its entry's port (R435), and its mark is cleared; one that has ended sends its completion and is gone. -/
def Rules.CopiesMade : Prop :=
  ∀ (s : State) (k : Nat) (c : Cmd) (e slot die size : Nat) (area : Option Nat) (dst src : Word), s.copies[k]? = some c →
    c.work = .rcopy e slot die area dst src size → c.seg = none → (∀ j x, s.copies[j]? = some x → x.stamp = c.stamp → j = k) →
    (c.stage ≠ .ended → c.vsi.toNat ≤ (s.partAt c.part).now.toNat → c.review = none →
      ∃ t x, exec (.rcopyExecute k) s = .next t ∧ t.copies[k]? = some x ∧ x.stage = .ended ∧
        x.status = (if s.dev.hamode.getLsbD 4 = false ∧ s.entryCut c = true then 0x16 else 0x08) ∧ (t.monarch c.part).marked e = false ∧ SameMem s t) ∧
    (∀ x ps pd, c.stage = .write → (s.partAt c.part).now.toNat < c.vsi.toNat → s.cmdReady c = true → c.miss = 0 → c.pos < size →
      c.got = none → s.cmdPlace c (src + .ofNat 64 c.pos) 64 false = .ok (.here ps) → c.rdi.toNat ≤ (s.partAt c.part).now.toNat →
      s.versionAt c.part (src + .ofNat 64 c.pos) ps 64 c.rdi = .ok x →
      s.cmdPlace c (dst + .ofNat 64 c.pos) 64 true = .ok (.here pd) → pd.home / 256 = die →
      ∃ t y, exec (.rcopyExecute k) s = .next t ∧ t.copies[k]? = some y ∧ y.pos = c.pos + 64 ∧ y.out = c.out + 1 ∧ SameMem s t ∧
        t.net = s.net ++ [⟨c.part, .store (.cmd c.stamp)
          { va := dst + .ofNat 64 c.pos, pl := pd, n := 64, x := .ofNat 512 x, mask := .allOnes 64, v := c.vsi, ord := c.ord
            slip := c.slip }⟩]) ∧
    (∀ pl x, c.stage = .write → (s.partAt c.part).now.toNat < c.vsi.toNat → s.cmdReady c = true → c.miss = 0 → c.pos = size → c.out = 0 →
      s.cmdPlace c c.entry 64 true = .ok (.here pl) → s.versionAt c.part c.entry pl 64 (s.partAt c.part).now = .ok x →
      ∃ t y, exec (.rcopyExecute k) s = .next t ∧ t.copies[k]? = some y ∧ y.stage = .join ∧ y.published = true ∧ SameMem s t ∧
        t.net = s.net ++ [⟨c.part, .store (.publish none e)
          { va := c.entry, pl := pl, n := 64, mask := .allOnes 64, v := c.vsi, ord := c.ord, slip := false
            x := entWith (.ofNat 512 x) slot (.ofNat 64 (2 ^ 63 + die * 2 ^ 60 + localAddr dst)) }⟩]) ∧
    (c.stage = .ended → s.owes (s.cmdCore c / 16) = false → s.running c.part = true → c.review = none →
      ∃ t va, exec (.rcopyExecute k) s = .next t ∧ (∀ x ∈ t.copies, x.stamp ≠ c.stamp) ∧ SameMem s t ∧
        t.net = s.net ++ [⟨c.part, .message va c.core false (completionOf s c) (.completed (s.cmdCore c) c.stamp)⟩])

/-- R95, R361: RMERGE, its block read and every check passed, enters Monarch's merges, with the table and the geometry of its acceptance. -/
def Rules.MergesAccepted : Prop :=
  ∀ (s : State) (g : Guard) (d : Pred) (a : Reg) (b : Vec) (rdi vsi : InstField) (e count : Nat), s.Resumes [b] → s.slot.open_ = false →
    e = (dw b 0).toNat → e < 2 ^ 12 → count = (dw b 1).toNat → count < 2 ^ 32 → (dw b 2).toNat < 2 ^ 32 → dw b 5 = 0 → dw b 6 = 0 →
    dw b 7 = 0 → blockInsts (dw b 2) = some (rdi, vsi) → e ≤ mnNexpm s.part.regs.mncfg → 0 < count →
    count ≤ (mnAsz s.part.regs.mngeo - mnWsz s.part.regs.mngeo) * 16384 → s.ctx.seqNo ≠ 0xFFFF →
    (s.queueRoom s.merges → ∃ t c, exec (.rmerge g d a) s = .next t ∧ Accepted s t d ∧ SameMem s t ∧ t.merges = s.merges ++ [c] ∧
      c.work = .rmerge e count ∧ c.seg = none ∧ c.unit = 2 ∧ c.hnd = dw b 3 ∧ c.tag = dw b 4 ∧ c.stage = .begin_ ∧
      c.entry = s.part.regs.entryAt e ∧ c.wsz = mnWsz s.part.regs.mngeo ∧
      c.rdi = instField rdi s.ctx.rel s.ctx.rel s.part.now ∧ c.vsi = instField vsi s.ctx.vis s.ctx.rel s.part.now) ∧
    (¬ s.queueRoom s.merges → ∃ t, exec (.rmerge g d a) s = .next t ∧ Refused s t d)

/-- R361: a merge writes to the home replica's buffer the elements of every replica's, added in ascending order of their dies with one FP32
rounding each: here the last element, its lines read. -/
def Rules.MergesMade : Prop :=
  ∀ (s : State) (j : Nat) (c : Cmd) (r : List Cmd) (e count k : Nat) (ks : List Nat) (at_ line : Nat → Nat) (pl : Place),
    s.merges = c :: r → c.work = .rmerge e count → c.seg = none → c.stage = .write → count = c.pos + 1 → s.cmdReady c = true →
    ((List.range 8).flatMap fun d => (entSlots (.ofNat 512 c.data)).filter fun n => entDie (.ofNat 512 c.data) n == d) = k :: ks →
    (∀ n, at_ n = (entAddr (.ofNat 512 c.data) n + c.wsz * 65536) % 2 ^ 48) →
    (∀ n ∈ k :: ks, ∃ y, c.cache.find? (fun x => x.1 == ownWord (at_ n) + .ofNat 64 (4 * c.pos)) = some y ∧ y.2.2 = line n) →
    s.cmdPlace c (ownWord (at_ 0) + .ofNat 64 (4 * c.pos)) 4 true = .ok (.here pl) →
    ∃ t x, exec (.rmergeExecute j) s = .next t ∧ t.merges.head? = some x ∧ x.stage = .ended ∧ x.pos = count ∧ x.out = c.out + 1 ∧
      SameMem s t ∧ t.net = s.net ++ [⟨c.part, .store (.cmd c.stamp)
        { va := ownWord (at_ 0) + .ofNat 64 (4 * c.pos), pl := pl, n := 4, mask := .allOnes 64, v := c.vsi, ord := c.ord, slip := c.slip
          x := .ofNat 512 (ks.foldl (fun a n => toFloat .f32 .rne 0 false
            ((floatVal .f32 a).add false (floatVal .f32 (line n % 2 ^ 32)))) (line k % 2 ^ 32)) }⟩]

/-- R362: RSTAT with no record gives all ones; with one, and its buffer at homes of this cluster whose data passes its check, it writes the
oldest record there, takes it away, and gives the overflow bit, which it clears, and the count left. -/
def Rules.RecordsTaken : Prop :=
  ∀ (s : State) (g : Guard) (d a : Reg), s.Performs g 1 true → s.slot.open_ = false → s.slot.prog.got = [] →
    ((s.monarch s.slot.part).records = [] → ∃ t, exec (.rstat g d a) s = .next t ∧ t.g d = .allOnes 64 ∧ RegFrame s t [d] [] ∧
      t.ctx.pc = s.nextPc) ∧
    (∀ r rs pl ql s₁, (s.monarch s.slot.part).records = r :: rs → s.slot.prog.lanes = 0 → r < 2 ^ 128 →
      s.access (s.g a) 8 { w := true, n := true } = .ok (.here pl) → pl.home / 16 = s.cluster → s.badAt pl.phys = false →
      (∃ q, s.access (s.g a + 8) 8 { w := true, n := true } = .ok q) →
      s₁ = (s.counted.takeRecord r).nowWrite s.slot.part pl.phys 8 (r % 2 ^ 64) (some s.cur) none →
      s₁.access (s.g a + 8) 8 { w := true, n := true } = .ok (.here ql) → ql.home / 16 = s.cluster → s₁.badAt ql.phys = false →
      pl.phys + 8 = ql.phys →
      ∃ t, exec (.rstat g d a) s = .next t ∧ t.g d = .ofNat 64 (2 ^ 63 * (s.monarch s.slot.part).ovf.toNat + rs.length) ∧
        (t.monarch s.slot.part).records = rs ∧ (t.monarch s.slot.part).ovf = false ∧ (∀ n, n ≠ d → t.g n = s.g n) ∧
        t.mem.read pl.phys 16 = r ∧ SameMemBut s t pl.phys 16 ∧ t.ctx.pc = s.nextPc)

/-! ## Exceptions and system registers (17_system) -/

/-- R367 to R369, R371: what taking an exception saves and sets. In a supervisor handler, or with TVEC at 0, it is a double trap: the thread
is dropped, and its port reports a KIND 7 record; that this record joins a full queue of 1,024 entries too is log entry 21. -/
def Rules.TrapsTaken : Prop :=
  ∀ (s : State) (cause : Byte) (v : Word),
    (s.slot.inh = false → s.part.regs.tvec ≠ 0 →
      let t := s.trap cause v
      t.slot.cause = cause ∧ t.slot.epc = s.ctx.pc ∧ t.slot.tval = v ∧ t.slot.inh = true ∧ t.slot.pmode = s.ctx.mode ∧
        (t.slot.skip = true ↔ cause = 0x20 ∨ cause = 0x21) ∧ t.slot.aside = s.ctx.loops ∧ t.ctx.loops = .replicate 4 0 ∧
        t.ctx.pc = s.part.regs.tvec ∧ t.ctx.anch = true ∧ t.ctx.priv = (if s.ctx.priv = 2 then 2 else 1) ∧ t.ctx.pol = s.ctx.pol ∧
        t.ctx.slip = s.ctx.slip ∧ t.ctx.rsvn = s.ctx.rsvn ∧ t.ctx.g = s.ctx.g ∧ t.ctx.p = s.ctx.p ∧ t.ctx.rel = s.ctx.rel ∧
        t.ctx.vis = s.ctx.vis ∧ t.ctx.ord = s.ctx.ord ∧ t.slot.points = s.slot.points ∧ t.slot.run = s.slot.run ∧
        t = { s with slots := t.slots } ∧ ∀ m, m ≠ s.cur → t.slotAt m = s.slotAt m) ∧
    (s.slot.inh = true →
      let t := s.trap cause v
      t.slot = { s.slot with run := .dropped none, prog := {} } ∧ (∀ m, m ≠ s.cur → t.slotAt m = s.slotAt m) ∧ SameMem s t ∧
        (t.portAt s.cluster).faults = (s.portAt s.cluster).faults ++
          [{ part := s.slot.part, va := s.ctx.pc, kind := 7, waiters := [.slot s.cur], reported := true }]) ∧
    (s.slot.inh = false → s.part.regs.tvec = 0 →
      let t := s.trap cause v
      t.slot = { s.slot with cause := cause, epc := s.ctx.pc, tval := v, run := .dropped none, prog := {} } ∧ SameMem s t ∧
        (t.portAt s.cluster).faults = (s.portAt s.cluster).faults ++
          [{ part := s.slot.part, va := s.ctx.pc, kind := 7, waiters := [.slot s.cur], reported := true }])

/-- R373: TRAP and BRK raise their cause with their immediate as TVAL. -/
def Rules.SoftwareTraps : Prop :=
  ∀ (s : State) (g : Guard) (n : BitVec 13), s.Performs g 0 false →
    exec (.trap g n) s = .next (s.counted.trap 0x20 (n.setWidth 64)) ∧
      exec (.brk g n) s = .next (s.counted.trap 0x21 (n.setWidth 64))

/-- R374: ERET takes the PC from EPC, past it when SKIP is set, the mode from PMODE with RSVN kept and a slip kept, and the loop stack that
was set aside, and clears INH and SKIP. -/
def Rules.ExceptionReturns : Prop :=
  ∀ (s : State) (g : Guard), s.Performs g 1 false →
    ∃ t, exec (.eret g) s = .next t ∧
      (s.slot.skip = false → t.ctx.pc = s.slot.epc ∧ t.ctx.loops = s.slot.aside) ∧
      (s.slot.skip = true →
        t.ctx.pc = (({ s.ctx with loops := s.slot.aside } : Ctx).endCheck s.slot.epc).pc ∧
        t.ctx.loops = (({ s.ctx with loops := s.slot.aside } : Ctx).endCheck s.slot.epc).loops) ∧
      t.ctx.priv = s.slot.pmode.toNat % 4 ∧ t.ctx.anch = s.slot.pmode.getLsbD 2 ∧ t.ctx.pol = s.slot.pmode.getLsbD 3 ∧
      t.ctx.slip = (s.ctx.slip || s.slot.pmode.getLsbD 4) ∧ t.ctx.rsvn = s.ctx.rsvn ∧
      t.slot.inh = false ∧ t.slot.skip = false ∧ t.slot.pmode = s.slot.pmode ∧ t.ctx.g = s.ctx.g ∧ t.ctx.p = s.ctx.p ∧
      t.slot.epc = s.slot.epc ∧ t.slot.cause = s.slot.cause ∧ t.slot.tval = s.slot.tval ∧ t = { s with slots := t.slots } ∧
      ∀ m, m ≠ s.cur → t.slotAt m = s.slotAt m

/-- What a thread's and a slot's register reads as (R375, R376). -/
def threadReg (s : State) : Nat → Option Word
  | 0x000 => some (s.ctx.rel.setWidth 64)
  | 0x001 => some (s.ctx.vis.setWidth 64)
  | 0x002 => some (s.ctx.ord.setWidth 64)
  | 0x003 => some (if s.ctx.pol then 1 else 0)
  | 0x004 => some (s.ctx.mode.setWidth 64)
  | 0x005 => some (s.part.now.setWidth 64)
  | 0x006 => some (.ofNat 64 s.refcnt)
  | 0x007 => some (.ofNat 64 (s.cycles s.cluster))
  | 0x009 => some (s.slot.vl.setWidth 64)
  | 0x00A => some s.slot.tstatus
  | 0x010 => some (s.slot.cause.setWidth 64)
  | 0x011 => some s.slot.epc
  | 0x012 => some s.slot.tval
  | 0x013 => some s.slot.status
  | 0x014 => some s.slot.sscr0
  | 0x015 => some s.slot.sscr1
  | 0x016 => some s.part.regs.tvec
  | 0x020 => some s.part.regs.fmt
  | 0x021 => some s.part.regs.rmode
  | _ => none

/-- R56, R63, R375, R376: MFSR of a register that the thread may read gives its value; at a lower privilege it raises PRIV, and a number that
is not assigned raises ILLEGAL-OP, each with the word, whatever the guard and the limit of a message handler. -/
def Rules.RegistersRead : Prop :=
  ∀ (s : State) (g : Guard) (d : Reg) (n : BitVec 13),
    (∀ r w, regLevel n.toNat = some (r, w) → s.Performs g r false → s.TrailRoom →
      ∃ t, exec (.mfsr g d n) s = .next t ∧ RegFrame s t [d] [] ∧ t.ctx.pc = s.nextPc ∧
        ∀ v, threadReg s n.toNat = some v → t.g d = v) ∧
    (∀ r w, regLevel n.toNat = some (r, w) → s.slot.prog.word = none → s.ctx.priv < r →
      exec (.mfsr g d n) s = .next (s.trap 0x02 (wordOf (.mfsr g d n)))) ∧
    (regLevel n.toNat = none → exec (.mfsr g d n) s = .next (s.trap 0x01 (wordOf (.mfsr g d n))))

/-- What MTSR leaves of a thread or slot register that it may write (R375, R376): the width that is kept. -/
def threadWidth : Nat → Option Nat
  | 0x001 | 0x002 => some 48
  | 0x003 => some 1
  | 0x010 => some 8
  | 0x011 | 0x012 | 0x014 | 0x015 => some 64
  | _ => none

/-- R56, R63, R375, R376: MTSR of a thread or slot register changes it at once, and no other that `threadReg` gives but the mode byte that holds POL;
one whose writes are ignored changes nothing; at a lower privilege it raises PRIV, and a number that is not assigned ILLEGAL-OP. -/
def Rules.RegistersWritten : Prop :=
  ∀ (s : State) (g : Guard) (a : Reg) (n : BitVec 13),
    (∀ r w k, regLevel n.toNat = some (r, some w) → s.Performs g w false → threadWidth n.toNat = some k →
      ∃ t, exec (.mtsr g a n) s = .next t ∧ threadReg t n.toNat = some (.ofNat 64 ((s.g a).toNat % 2 ^ k)) ∧
        (∀ m, m ≠ n.toNat → m ≠ 4 → threadReg t m = threadReg s m) ∧ t.ctx.g = s.ctx.g ∧ t.ctx.p = s.ctx.p ∧ t.ctx.pc = s.nextPc ∧
        t = { s with slots := t.slots } ∧ ∀ m, m ≠ s.cur → t.slotAt m = s.slotAt m) ∧
    (∀ r, regLevel n.toNat = some (r, none) → s.Performs g 0 false → ∃ t, exec (.mtsr g a n) s = .next t ∧ RegFrame s t [] [] ∧ t.ctx.pc = s.nextPc) ∧
    (∀ r w, regLevel n.toNat = some (r, some w) → s.slot.prog.word = none → s.ctx.priv < w →
      exec (.mtsr g a n) s = .next (s.trap 0x02 (wordOf (.mtsr g a n)))) ∧
    (regLevel n.toNat = none → exec (.mtsr g a n) s = .next (s.trap 0x01 (wordOf (.mtsr g a n))))

/-- R94, R375: MTSR of a partition register that follows R94. A value that the register does not allow raises ILLEGAL-OP. With the partition
idle the register changes at once, and a table root reads with its reserved bits 0 (R8, R140); else the write waits for the step, under its core's rank, and the register stands. -/
def Rules.PartitionRegistersWritten : Prop :=
  ∀ (s : State) (g : Guard) (a : Reg) (n : BitVec 13), s.Performs g 1 false →
    n.toNat ∈ [0x016, 0x017, 0x018, 0x020, 0x021, 0x022, 0x023, 0x024, 0x026, 0x027, 0x028, 0x029, 0x02A, 0x02B, 0x030, 0x031, 0x032,
      0x033] →
    (regValue n.toNat (s.g a) = none → exec (.mtsr g a n) s = .next (s.counted.trap 0x01 (wordOf (.mtsr g a n)))) ∧
    (∀ w, regValue n.toNat (s.g a) = some w → s.part.regs.reccfg.toNat % 2 = 0 →
      (s.idlePart s.slot.part = true → s.part.writes = [] → ∃ t, exec (.mtsr g a n) s = .next t ∧
        t.partReg s.slot.part n.toNat = some (if n.toNat = 0x028 ∨ n.toNat = 0x029 then w &&& 0xCE10FFFFFFFFFF00 else w) ∧ (∀ m, m ≠ n.toNat → t.partReg s.slot.part m = s.partReg s.slot.part m) ∧
        ThreadFrame s t [] ∧ t.ctx.pc = s.nextPc) ∧
      (s.idlePart s.slot.part = false → ∃ t, exec (.mtsr g a n) s = .next t ∧ t.part.regs = s.part.regs ∧
        t.part.writes = s.part.writes ++ [(n.toNat, s.coreIdx, w)] ∧ ThreadFrame s t [] ∧ t.ctx.pc = s.nextPc))

/-- R94: of the writes that a step applies to a register, the one of the writer of the highest rank, and of that writer's the last. -/
def Rules.WritesEffective : Prop :=
  ∀ (l : List (Nat × Nat × Word)) (n : Nat) (v : Word),
    (n, v) ∈ effective l ↔ ∃ pre rank post, l = pre ++ (n, rank, v) :: post ∧ (∀ e ∈ l, e.1 = n → e.2.1 ≤ rank) ∧
      ∀ e ∈ post, e.1 = n → e.2.1 ≠ rank

/-! ## Segments and pages -/

/-- R47, R136, R378: what SEGLD takes of a 16-byte entry. -/
def Rules.SegmentEntries : Prop :=
  ∀ (e : Nat) (q : Seg), segOf e = some q →
    (q.limit.toNat = e / 2 ^ 16 % 2 ^ 48 ∨ q = {}) ∧
    (e / 2 ^ 16 % 2 ^ 48 ≠ 0 → q.base.toNat = e / 2 ^ 64 % 2 ^ 64 ∧ q.rights.toNat = e % 2 ^ 7 ∧ ¬ (q.i = true ∧ q.n = true) ∧
      ((q.r = true ∨ q.w = true) → q.i = true ∨ q.n = true) ∧ (q.h = true → q.n = true) ∧ (q.t = true → q.n = true) ∧
      q.base.toNat + q.limit.toNat ≤ 2 ^ 64)

/-- R378: SEGLD with no choice point open. A selector above 255 raises SEG-BOUND; with SEGTB at 0 the register loads empty; an entry that is
read here is loaded with its selector, or raises SEG-RIGHTS when it is refused. -/
def Rules.SegmentsLoaded : Prop :=
  ∀ (s : State) (g : Guard) (d : SReg) (a : Reg), s.Performs g 0 false → s.slot.open_ = false → s.slot.prog.got = [] →
    (255 < (s.g a).toNat → exec (.segld g d a) s = .next (s.counted.trap 0x03 (s.g a))) ∧
    (∀ e, (s.g a).toNat ≤ 255 →
      (s.part.regs.segtb = 0 ∧ e = 0 ∨ s.part.regs.segtb ≠ 0 ∧ ∃ pl,
        s.locate s.coreIdx s.slot.part (s.part.regs.segtb + 16 * s.g a) 16 0 = .ok (.here pl) ∧
        s.readAt (s.part.regs.segtb + 16 * s.g a) pl 16 = .ok e) →
      (∀ q, segOf e = some q → ∃ t, exec (.segld g d a) s = .next t ∧ t.slot.seg = s.slot.seg.set d q ∧
        t.ctx.sel = s.ctx.sel.set d ((s.g a).setWidth 8) ∧ t.ctx.g = s.ctx.g ∧ t.ctx.p = s.ctx.p ∧ t.ctx.pc = s.nextPc ∧
        t = { s with slots := t.slots } ∧ ∀ m, m ≠ s.cur → t.slotAt m = s.slotAt m) ∧
      (segOf e = none → exec (.segld g d a) s = .next (s.counted.trap 0x04 (s.g a))))

/-- R379: PGINV, drained, of an address of this device in W2 or W3: no router holds a remote line of the 2 MiB region for the partition; another
address raises SEG-BOUND. -/
def Rules.PagesInvalidated : Prop :=
  ∀ (s : State) (g : Guard) (a : Reg), s.Performs g 1 false → s.slot.prog.drained = false →
    (s.onDevice (s.g a) = true → (s.g a).toNat < 2 ^ 61 →
      (winOf (localAddr (s.g a)) = some .w2 ∨ winOf (localAddr (s.g a)) = some .w3) → s.Drained .dev →
      ∃ t, exec (.pginv g a) s = .next t ∧ SameMem s t ∧ t.ctx.g = s.ctx.g ∧ t.ctx.pc = s.nextPc ∧
        (∀ k, ∀ e ∈ (t.portAt k).remote, e.part = s.slot.part → s.onDevice e.vline = true →
          localAddr e.vline / 2 ^ 21 ≠ localAddr (s.g a) / 2 ^ 21) ∧
        (∀ k, ∀ e ∈ (s.portAt k).remote, e.part ≠ s.slot.part ∨ localAddr e.vline / 2 ^ 21 ≠ localAddr (s.g a) / 2 ^ 21 →
          e ∈ (t.portAt k).remote)) ∧
    (s.onDevice (s.g a) = false ∨ winOf (localAddr (s.g a)) = some .w1 →
      exec (.pginv g a) s = .next (s.counted.trap 0x03 (s.g a)))

/-- R380: IDLE takes the thread out of the rotation, and writes nothing. -/
def Rules.Idles : Prop :=
  ∀ (s : State) (g : Guard), s.Performs g 1 false →
    ∃ t, exec (.idle g) s = .next t ∧ t.slot.run = .waiting .idle ∧ t.ctx = s.ctx ∧ t = { s with slots := t.slots } ∧
      ∀ m, m ≠ s.cur → t.slotAt m = s.slotAt m

/-- A wait of slot j that ends its word: it runs again, past the word, with its end check and nothing else of its context changed. -/
def Awake (s t : State) (j : Nat) : Prop :=
  (t.slotAt j).run = .runnable ∧ (t.slotAt j).prog = {} ∧ (t.slotAt j).ctx = (s.slotAt j).ctx.endCheck (s.slotAt j).ctx.pc

/-- R380: what ends an IDLE: a message of its partition that enters an inbox of its core; the completion of a command that it issued, which
enters another core's; a kill, after which it performs an EXIT; and a stop. -/
def Rules.IdleWakes : Prop :=
  ∀ (s : State) (j : Nat), (s.slotAt j).run = .waiting .idle →
    (∀ k core va hi m o, s.net[k]? = some ⟨(s.slotAt j).part, .message va core hi m o⟩ → s.running (s.slotAt j).part = true →
      (s.coreAt core).retry = [] →
      holdsOf (s.slotAt j).part (if hi then (s.coreAt core).high else (s.coreAt core).low) < s.share64 →
      j / 16 = core ∨ (j ∈ s.slots.map (·.1) ∧ ∃ src c, o = .completed src c ∧ c ∈ (s.slotAt j).cmds) →
      ∃ t, exec (.messageDelivery k) s = .next t ∧ Awake s t j) ∧
    (∀ k p b, s.net[k]? = some ⟨p, .kill j⟩ → (s.slotAt j).bind = some b → b.1 ≠ j →
      ∃ t, exec (.killMessage k) s = .next t ∧ (t.slotAt j).run = .runnable ∧ (t.slotAt j).prog = { word := encodeWord (.exit 0) }) ∧
    (∀ p, pdefV (s.pdefOf p) = true → s.stopState p = 1 → (s.partAt p).stopping = false →
      (s.partAt p).regs.stopcnt.toNat % 2 ^ 56 ≤ s.refcnt → (s.slotAt j).part = p → j ∈ s.slots.map (·.1) →
      ∃ t, exec (.partitionStop p) s = .next t ∧ Awake s t j)

/-- A command word of CIRC (R381): the port it is for, what it asks, and that its reserved fields are 0. -/
def circOf (s : State) (v : Word) : Option (Nat × PortOp) :=
  if v.toNat / 2 ^ 54 % 2 ^ 8 ≠ 0 ∨ v.toNat / 2 ^ 43 % 2 ^ 5 ≠ 0 ∨ v.toNat / 2 ^ 13 % 2 ^ 27 ≠ 0 then none
  else match v.toNat / 2 ^ 62 with
    | 0 => if v.toNat / 2 ^ 48 % 2 ^ 6 = 0 ∧ (Table.get 0 s.dev.reach (v.toNat % 2 ^ 13)).getLsbD 31 = true then
        some ((Table.get 0 s.dev.reach (v.toNat % 2 ^ 13)).toNat / 2 ^ 16 % 64,
          .tune (.ofNat 8 (v.toNat / 2 ^ 40 % 2 ^ 3)) (.ofNat 7 (Table.get 0 s.dev.reach (v.toNat % 2 ^ 13)).toNat)) else none
    | 1 => if v.toNat % 2 ^ 13 = 0 then some (v.toNat / 2 ^ 48 % 2 ^ 6, .park (.ofNat 8 (v.toNat / 2 ^ 40 % 2 ^ 3))) else none
    | 2 => if v.toNat % 2 ^ 13 = 0 then some (v.toNat / 2 ^ 48 % 2 ^ 6, .wake (.ofNat 8 (v.toNat / 2 ^ 40 % 2 ^ 3))) else none
    | _ => none

/-- R381: CIRC puts its command in its port's queue of 16 with its word and the thread's ordinal, one of the thread's own commands from then
on, or finds the queue full; a reserved field raises
ILLEGAL-OP, and a peer that cannot be reached FABRIC-UNREACHABLE. -/
def Rules.CircuitsAsked : Prop :=
  ∀ (s : State) (g : Guard) (d : Pred) (a : Reg), s.Performs g 1 false → s.slot.open_ = false →
    (∀ port o, circOf s (s.g a) = some (port, o) →
      ((s.optic port).queue.length < 16 → ∃ t, exec (.circ g d a) s = .next t ∧ t.p d = true ∧ (∀ n, n ≠ d → t.p n = s.p n) ∧
        (t.optic port).queue = (s.optic port).queue ++ [{ op := o, word := s.g a, owner := some (s.slot.part, s.coreIdx, s.ctx.ord), stamp := s.stamp }] ∧
        t.slot.cmds = s.slot.cmds ++ [s.stamp] ∧ t.stamp = s.stamp + 1 ∧ (∀ k, k ≠ port → t.optic k = s.optic k) ∧ t.ctx.g = s.ctx.g ∧ t.ctx.ord = s.ctx.ord ∧ t.ctx.pc = s.nextPc ∧ SameMem s t) ∧
      (16 ≤ (s.optic port).queue.length → ∃ t, exec (.circ g d a) s = .next t ∧ Refused s t d)) ∧
    ((s.g a).toNat / 2 ^ 62 = 3 ∨ (s.g a).toNat / 2 ^ 13 % 2 ^ 27 ≠ 0 →
      exec (.circ g d a) s = .next (s.counted.trap 0x01 (wordOf (.circ g d a)))) ∧
    ((s.g a).toNat / 2 ^ 13 = 0 → (Table.get 0 s.dev.reach (s.g a).toNat).getLsbD 31 = false →
      exec (.circ g d a) s = .next (s.counted.trap 0x18 (s.g a)))

/-! ## Save areas, stops and clocks -/

/-- An area of memory describes a slot's thread (R385): the items of its first 0xE8 bytes. -/
def AreaHolds (s : State) (phys : Nat) (x : Slot) : Prop :=
  (∀ i : Reg, s.mem.read (phys + 8 * i.val) 8 = x.ctx.g[i].toNat) ∧ s.mem.read (phys + 0x80) 8 = x.ctx.pc.toNat ∧
    s.mem.read (phys + 0x88) 8 = x.ctx.wsp.toNat ∧ s.mem.read (phys + 0x90) 6 = x.ctx.rel.toNat ∧
    s.mem.read (phys + 0x98) 6 = x.ctx.vis.toNat ∧ s.mem.read (phys + 0xA0) 6 = x.ctx.ord.toNat ∧
    s.mem.read (phys + 0xC0) 1 = x.ctx.mode.toNat ∧ s.mem.read (phys + 0xC1) 1 = x.ctx.p.toNat ∧
    s.mem.read (phys + 0xD0) 1 = x.cause.toNat ∧ s.mem.read (phys + 0xD8) 8 = x.epc.toNat ∧ s.mem.read (phys + 0xE0) 8 = x.tval.toNat

/-- R385, R386: SLOTSV of a slot of its partition that holds a thread at a boundary, running or in a wait that is saved as it stands, writes
its image to its save area and no other byte, frees the slot and gives 1, in every state of the model's invariant; a slot that holds none, a held one too (log entry 67), gives 0. -/
def Rules.SlotsSaved : Prop :=
  ∀ (s : State) (g : Guard) (d a : Reg) (n : Nat), s.Performs g 1 false → s.slot.open_ = false → n = s.coreIdx * 16 + (s.g a).toNat % 16 →
    n ≠ s.cur → (pdefSlots (s.pdefOf s.slot.part)).getLsbD ((s.g a).toNat % 16) = true → s.part.regs.ctxb ≠ 0 →
    ((s.slotAt n).run = .free ∨ (s.slotAt n).run = .held → ∃ t, exec (.slotsv g d a) s = .next t ∧ t.g d = 0 ∧ RegFrame s t [d] []) ∧
    (∀ pl, s.Inv → (s.slotAt n).run ≠ .free → (s.slotAt n).run ≠ .held → s.atBoundary n = true → (s.slotAt n).part = s.slot.part →
      s.areaAt s.slot.part n = .ok pl → (s.slotAt n).points.length ≤ 64 → (s.slotAt n).trail.length ≤ 256 →
      (s.slotAt n).windows.length ≤ 4 → (s.provOf n).length ≤ 64 →
      ∃ t, exec (.slotsv g d a) s = .next t ∧ t.g d = 1 ∧ (∀ m, m ≠ d → t.g m = s.g m) ∧ t.ctx.pc = s.nextPc ∧
        t.slotAt n = { part := s.slot.part, ready := (s.slotAt n).ready, gen := (s.slotAt n).gen } ∧
        SameMemBut s t pl.phys (2 ^ 14) ∧ AreaHolds t pl.phys (s.slotAt n) ∧
        t.mem.byte (pl.phys + 0xC2) = 1 ∧ (∀ e ∈ (t.coreAt s.coreIdx).prov, e.slot ≠ n))

/-- R386: SLOTLD of a free slot whose area holds a thread loads it from there, marks the area empty and gives 1; with no thread there, or a slot
that is not free, it gives 0. -/
def Rules.SlotsLoaded : Prop :=
  ∀ (s : State) (g : Guard) (d a : Reg) (n : Nat), s.Performs g 1 false → s.slot.open_ = false → n = s.coreIdx * 16 + (s.g a).toNat % 16 →
    n ≠ s.cur → (pdefSlots (s.pdefOf s.slot.part)).getLsbD ((s.g a).toNat % 16) = true →
    ((s.slotAt n).run ≠ .free → ∃ t, exec (.slotld g d a) s = .next t ∧ t.g d = 0 ∧ RegFrame s t [d] []) ∧
    (∀ pl, (s.slotAt n).run = .free → s.areaAt s.slot.part n = .ok pl →
      (s.mem.byte (pl.phys + 0xC2) ≠ 1 → ∃ t, exec (.slotld g d a) s = .next t ∧ t.g d = 0 ∧ RegFrame s t [d] []) ∧
      (s.mem.byte (pl.phys + 0xC2) = 1 → (s.coreAt s.coreIdx).prov.length + s.areaCount pl ≤ 64 →
        (Table.get {} s.part.kept n).opening = none →
        ∃ t, exec (.slotld g d a) s = .next t ∧ t.g d = 1 ∧ (∀ m, m ≠ d → t.g m = s.g m) ∧ t.ctx.pc = s.nextPc ∧
          t.mem.byte (pl.phys + 0xC2) = 0 ∧ SameMemBut s t (pl.phys + 0xC2) 1 ∧ (t.slotAt n).part = s.slot.part ∧
          AreaHolds s pl.phys (t.slotAt n)))

/-- R388: STOPAT with save areas and a job asks job device 0, and the thread waits; with no save areas, or with no job (log entry 63), it gives
0. The request sets STOPCNT, on every
device of the job, when no stop is pending and its count is far enough ahead; it is answered 1, and 0 otherwise. -/
def Rules.StopsAsked : Prop :=
  ∀ (s : State) (g : Guard) (d : Pred) (a : Reg) (k n : Nat) (p : Fin 8) (c : BitVec 56),
    (s.Performs g 1 false → s.slot.open_ = false →
      (s.part.regs.ctxb = 0 ∨ s.dev.jobV = false → ∃ t, exec (.stopat g d a) s = .next t ∧ Refused s t d) ∧
      (s.part.regs.ctxb ≠ 0 → s.dev.jobV = true → s.dev.jobIdx = 0 → ∃ t, exec (.stopat g d a) s = .next t ∧ t.ctx = s.ctx ∧
        t.slot.run = .waiting .reply ∧ t.slot.prog.fin = some (.stopat d) ∧
        t.net = s.net ++ [⟨s.slot.part, .stopReq (.slot s.cur) ((s.g a).setWidth 56)⟩])) ∧
    (s.net[k]? = some ⟨p, .stopReq (.slot n) c⟩ →
      (s.stopState p = 0 → s.refcnt + 4096 ≤ c.toNat → ∃ t, exec (.stopatRequest k) s = .next t ∧
        (t.partAt p).regs.stopcnt = .ofNat 64 (2 ^ 62 + c.toNat) ∧
        (∀ d ∈ s.peers, (Table.get 0 s.dev.reach d, ⟨p, .stopcnt (.ofNat 64 (2 ^ 62 + c.toNat))⟩) ∈ Table.get [] t.dev.egress d) ∧ t.net = s.net.eraseIdx k ++ [⟨p, .reply n (.ok 1) .none⟩] ∧ SameMem s t) ∧
      (s.stopState p ≠ 0 ∨ c.toNat < s.refcnt + 4096 → ∃ t, exec (.stopatRequest k) s = .next t ∧ t.parts = s.parts ∧
        t.net = s.net.eraseIdx k ++ [⟨p, .reply n (.ok 0) .none⟩] ∧ SameMem s t))

/-- R391: FREQAT schedules the frequency code for a count that is 16 or more ahead, when none is pending; a code above 4 raises ILLEGAL-OP. At
the count the code becomes the current one. -/
def Rules.Frequencies : Prop :=
  ∀ (s : State) (g : Guard) (d : Pred) (a b : Reg),
    (s.Performs g 2 false → s.slot.open_ = false →
      (4 < (s.g b).toNat → exec (.freqat g d a b) s = .next (s.counted.trap 0x01 (wordOf (.freqat g d a b)))) ∧
      ((s.g b).toNat ≤ 4 → s.dev.freqPv = true ∨ (s.g a).toNat < s.refcnt + 16 → ∃ t, exec (.freqat g d a b) s = .next t ∧ Refused s t d) ∧
      ((s.g b).toNat ≤ 4 → s.dev.freqPv = false → s.refcnt + 16 ≤ (s.g a).toNat → ∃ t, exec (.freqat g d a b) s = .next t ∧
        t.p d = true ∧ (∀ n, n ≠ d → t.p n = s.p n) ∧ t.ctx.g = s.ctx.g ∧ t.ctx.pc = s.nextPc ∧
        t.dev = { s.dev with freqPend := (s.g b).setWidth 3, freqPv := true, freqAt := (s.g a).toNat } ∧
        t = { s with slots := t.slots, dev := t.dev })) ∧
    (s.dev.freqPv = true → s.dev.freqAt ≤ s.refcnt → ∃ t, exec .frequencySwitch s = .next t ∧ t.dev.freqCur = s.dev.freqPend ∧
      t.dev.freqPv = false ∧ t = { s with dev := t.dev, sub := 0 }) ∧
    (s.dev.freqPv = false ∨ s.refcnt < s.dev.freqAt → exec .frequencySwitch s = .next s)

/-! ## The instant counter (07_instant) -/

/-- R93, R147 to R149, R151, R155: a metered step that is due, of a partition that runs, with no register write, record or review to make and
no store waiting at a port: NOW is one more; every pending store whose V is not above it leaves its port; memory takes each byte of
theirs that no other due byte names, and no byte that none names changes. -/
def Rules.CounterSteps : Prop :=
  ∀ (s : State) (p : Fin 8), s.running p = true → qcfgEl (s.partAt p).regs.qcfg = false → (s.partAt p).due ≤ s.refcnt →
    (s.partAt p).writes = [] → (s.partAt p).regs.reccfg.toNat % 2 = 0 → mnIv (s.partAt p).regs.mncfg = 0 → s.dev.unreachable = 0 →
    (∀ k, (s.portAt k).stalled = []) →
    ∃ t, exec (.quartzStep p) s = .next t ∧ (t.partAt p).now = (s.partAt p).now + 1 ∧ (t.partAt p).stepped = (s.partAt p).due ∧
      (t.partAt p).shift = 0 ∧ (∀ q, q ≠ p → t.partAt q = s.partAt q) ∧
      (∀ k, ∀ e ∈ (t.portAt k).pending, e.part = p → ((s.partAt p).now + 1).toNat < e.v.toNat) ∧
      (∀ k, ∀ e ∈ (s.portAt k).pending, e.part ≠ p ∨ ((s.partAt p).now + 1).toNat < e.v.toNat → e ∈ (t.portAt k).pending) ∧
      (∀ a, (∀ k, ∀ e ∈ (s.portAt k).pending, e.part = p → e.v.toNat ≤ ((s.partAt p).now + 1).toNat →
        ∀ b ∈ e.bytes, e.line * 64 + b.1 ≠ a) → t.mem.byte a = s.mem.byte a) ∧
      (∀ k, ∀ e ∈ (s.portAt k).pending, ∀ b ∈ e.bytes, e.part = p → e.v.toNat ≤ ((s.partAt p).now + 1).toNat →
        (∀ j, ∀ f ∈ (s.portAt j).pending, f.part = p → f.v.toNat ≤ ((s.partAt p).now + 1).toNat →
          ∀ c ∈ f.bytes, f.line * 64 + c.1 = e.line * 64 + b.1 → c.2.2 = b.2.2) →
        t.mem.byte (e.line * 64 + b.1) = b.2.2)

/-- R155: of the entries of one line that a step applies, those of tasks come after the host's, in ascending order of their task indices. -/
def Rules.TiesOrdered : Prop :=
  ∀ (l : List Pending), (tieOrder l).Perm l ∧
    (tieOrder l).Pairwise fun a b => (a.host = true ∧ b.host = true) ∨ (a.host = true ∧ b.host = false) ∨
      (a.host = false ∧ b.host = false ∧ a.task.toNat ≤ b.task.toNat)

/-- R150: every thread of a task is in a slot of its device, and waits for an instant above i (log entry 69). -/
def HeldTask (s : State) (p : Fin 8) (id t threads : Nat) (i : Instant) : Prop :=
  let mine := s.slots.filter fun e => e.2.part == p && e.2.run != .free && e.2.task == some (id, t)
  mine.length = threads ∧ ∀ e ∈ mine, (∃ v, e.2.run = .waiting (.instant v) ∧ i.toNat < v.toNat) ∨
    (e.2.run = .waiting .list ∧ ∃ x v, (s.arrayAt (e.1 / 16)).run = some x ∧ x.slot = e.1 ∧ x.hold = some v ∧ i.toNat < v.toNat)

/-- R148, R150: the conditions of an elastic step: the partition runs and is elastic, its start has come, 16 reference ticks have passed since
the step before; every task released at NOW or earlier has retired, is lost or is held for a later instant; no outstanding write names
NOW + 1 or earlier; and there is a launch, or an outstanding write. -/
structure ElasticMay (s : State) (p : Fin 8) : Prop where
  runs : s.running p = true
  elastic : qcfgEl (s.partAt p).regs.qcfg = true
  start : (s.partAt p).start ≤ s.refcnt
  apart : (s.partAt p).now = 0 ∨ (s.partAt p).stepped + 16 ≤ s.refcnt
  tasks : ∀ l ∈ (s.partAt p).launches, ∀ c, c < descCrews l.desc → (crewRel l.desc c).toNat ≤ (s.partAt p).now.toNat →
    c ∈ l.started ∧ ∀ e ∈ l.live, e.1 / (descCrew l.desc * descTeam l.desc) = c → HeldTask s p l.id e.1 e.2.threads (s.partAt p).now
  stores : ∀ v ∈ s.outstanding p, (s.partAt p).now.toNat + 1 < v.toNat
  work : (s.partAt p).queue ≠ [] ∨ (s.partAt p).hostQueue ≠ [] ∨ (s.partAt p).head ≠ (s.partAt p).kicked ∨
    (s.partAt p).launches ≠ [] ∨ (s.partAt p).completions ≠ [] ∨ s.outstanding p ≠ []

/-- R148, R150: an elastic counter steps when every condition of its rule holds on this device, and only then; that those of this device
decide is log entry 69. -/
def Rules.ElasticSteps : Prop :=
  ∀ (s : State) (p : Fin 8),
    (ElasticMay s p → (s.partAt p).writes = [] → (s.partAt p).regs.reccfg.toNat % 2 = 0 →
      mnIv (s.partAt p).regs.mncfg = 0 → s.dev.unreachable = 0 → (∀ k, (s.portAt k).stalled = []) →
      ∃ t, exec (.elasticStep p) s = .next t ∧ (t.partAt p).now = (s.partAt p).now + 1 ∧ (t.partAt p).stepped = s.refcnt) ∧
    (¬ ElasticMay s p → exec (.elasticStep p) s = .next s)

/-- R232, R390: a clock stretch suspends its region for one period and is counted; a die that is declared unreachable stays so. -/
def Rules.StretchesAndDies : Prop :=
  ∀ (s : State) (region : Nat) (die : Fin 8),
    (region < 128 → (s.portAt region).suspended = false → ∃ t, exec (.clockStretch region) s = .next t ∧
      t.portAt region = { s.portAt region with suspended := true, stretch := (s.portAt region).stretch + 1 } ∧
      (∀ k, k ≠ region → t.portAt k = s.portAt k) ∧ t = { s with ports := t.ports }) ∧
    (s.dieOn die = true → ∃ t, exec (.dieUnreachable die) s = .next t ∧ t.dev.unreachable.getLsbD die = true ∧
      (∀ k, k ≠ die.val → t.dev.unreachable.getLsbD k = s.dev.unreachable.getLsbD k) ∧
      t = { s with dev := { s.dev with unreachable := t.dev.unreachable } })

/-- R392: the refill gives every enabled die's pool its share, up to the pool's width, and no other die's anything. -/
def Rules.PoolsRefilled : Prop :=
  ∀ (s : State), ∃ t share, exec .powerPoolRefill s = .next t ∧ SameMem s t ∧ t.slots = s.slots ∧
    (∀ d, d < 8 → s.dieOn d = true → (t.dieAt d).pool = min ((s.dieAt d).pool + share) (2 ^ 24 - 1) ∧
      (t.dieAt d).tokens = (s.dieAt d).tokens) ∧
    (∀ d, s.dieOn d = false → t.dieAt d = s.dieAt d) ∧
    share = (s.dev.budget.toNat - t.dev.meas.toNat) * 64000 / ((List.range 8).filter s.dieOn).length

/-- R207, R380, R386, R389: at its count a stop begins: no slot of the partition runs, and the wait of an MWAIT, of an IDLE and of a SLEEP
whose ticks have passed ends, that of another SLEEP not; with every thread at a boundary a flush token goes to every router; then the
slots are saved; and with every token back and every slot saved the partition is stopped. -/
def Rules.PartitionStops : Prop :=
  ∀ (s : State) (p : Fin 8), pdefV (s.pdefOf p) = true → s.stopState p = 1 →
    ((s.partAt p).stopping = false → s.refcnt < (s.partAt p).regs.stopcnt.toNat % 2 ^ 56 → exec (.partitionStop p) s = .next s) ∧
    ((s.partAt p).stopping = false → (s.partAt p).regs.stopcnt.toNat % 2 ^ 56 ≤ s.refcnt →
      ∃ t, exec (.partitionStop p) s = .next t ∧ (t.partAt p).stopping = true ∧ t.running p = false ∧
        ∀ n, n ∈ s.slots.map (·.1) → (s.slotAt n).part = p →
          (∀ x, (s.slotAt n).run = .waiting (.monitor x) → (t.slotAt n).run = .runnable ∧ (t.slotAt n).prog.int = true) ∧
          ((s.slotAt n).run = .waiting .idle → Awake s t n) ∧
          (∀ c, (s.slotAt n).run = .waiting (.sleep c) →
            (c ≤ s.refcnt → Awake s t n) ∧ (s.refcnt < c → t.slotAt n = s.slotAt n))) ∧
    ((s.partAt p).stopping = true → (s.partAt p).flushed = false →
      ((s.occupied p).all s.savable = false → exec (.partitionStop p) s = .next s) ∧
      ((s.occupied p).all s.savable = true → ∃ t, exec (.partitionStop p) s = .next t ∧ (t.partAt p).flushed = true ∧
        (t.partAt p).tokens = s.routers.length ∧ t.net = s.net ++ s.routers.map fun r => ⟨p, .flush r⟩)) ∧
    ((s.partAt p).stopping = true → (s.partAt p).flushed = true → (s.partAt p).tokens ≠ 0 →
      exec (.partitionStop p) s = .next (State.saveAll (s.occupied p) s)) ∧
    ((s.partAt p).stopping = true → (s.partAt p).flushed = true → (s.partAt p).tokens = 0 → s.occupied p = [] →
      ∃ t, exec (.partitionStop p) s = .next t ∧ t.stopState p = 2 ∧ (t.partAt p).stopping = false ∧ t.running p = false)

/-- R389: a flush token takes the partition's migrations and messages that stand before it, bound for its router, to the router's save
buffer, and is counted. -/
def Rules.FlushTokens : Prop :=
  ∀ (s : State) (k r : Nat) (p : Fin 8), s.net[k]? = some ⟨p, .flush r⟩ → (∀ c, (s.coreAt c).arrivals = [] ∧ (s.coreAt c).retry = []) →
    ∃ t, exec (.flushToken k) s = .next t ∧ SameMem s t ∧
      (t.portAt r).saved = (s.portAt r).saved ++ (s.net.take k).filter (fun q => q.part == p && s.sweepsTo q.body == some r) ∧
      t.net = (s.net.take k).filter (fun q => !(q.part == p && s.sweepsTo q.body == some r)) ++ s.net.drop (k + 1) ∧
      (t.partAt p).tokens = (s.partAt p).tokens - 1

/-- R386, R389: a partition whose resume count has come runs again: once every saved thread's page is there, and room
in each core's provisional buffer, each slot whose area holds a thread is loaded from it, here with areas in W1; the migrations and messages that its routers saved are in flight again; and its steps are shifted by the time it stood. -/
def Rules.PartitionResumes : Prop :=
  ∀ (s : State) (p : Fin 8), pdefV (s.pdefOf p) = true → s.stopState p = 3 →
    (s.refcnt < (s.partAt p).regs.stopcnt.toNat % 2 ^ 56 → exec (.partitionResume p) s = .next s) ∧
    ((s.partAt p).regs.stopcnt.toNat % 2 ^ 56 ≤ s.refcnt → s.areasAway p ≠ [] ∨ s.provRoom p (s.savedAreas p) = false →
      ∃ t, exec (.partitionResume p) s = .next t ∧ t.stopState p = 3 ∧ t.slots = s.slots ∧ SameMem s t) ∧
    ((s.partAt p).regs.stopcnt.toNat % 2 ^ 56 ≤ s.refcnt → s.areasAway p = [] → s.provRoom p (s.savedAreas p) = true →
      ∃ t, exec (.partitionResume p) s = .next t ∧ t.stopState p = 0 ∧
        (t.partAt p).shift = (s.partAt p).shift + ((s.partAt p).regs.stopcnt.toNat % 2 ^ 56 - (s.partAt p).stoppedAt) ∧
        (∀ k, ∀ q ∈ (t.portAt k).saved, q.part ≠ p) ∧
        (∀ k, ∀ q ∈ (s.portAt k).saved, q.part = p → (s.sweepsTo q.body).isSome = true → q ∈ t.net) ∧
        ((∀ m ∈ s.partSlots p, winOf (localAddr (s.area p m)) = some .w1) → ∀ n pl, n ∈ s.partSlots p → s.areaAt p n = .ok pl →
          s.mem.byte (pl.phys + 0xC2) = 1 → (Table.get {} (s.partAt p).kept n).opening = none →
          AreaHolds s pl.phys (t.slotAt n) ∧ (t.slotAt n).part = p ∧ (t.slotAt n).run ≠ .free))

/-! ## Lanes and flits (18_fabric) -/

/-- A lane takes a channel's flits (R412): lit, and tuned to it. -/
abbrev LitOn (q : OptPort) (c : BitVec 7) (k : Fin 8) : Prop := q.lanes[k].state = .lit ∧ q.lanes[k].chan = c

/-- The lane that is next in a stripe set (R412), `last` being one more than the lane that took the previous flit, 0 before the first. -/
abbrev NextOf (q : OptPort) (c : BitVec 7) (last : Nat) (k : Fin 8) : Prop :=
  LitOn q c k ∧ ((last ≤ k.val ∧ ∀ i, LitOn q c i → last ≤ i.val → k ≤ i) ∨ ((∀ i, LitOn q c i → i.val < last) ∧ ∀ i, LitOn q c i → k ≤ i))

/-- What a flit for peer j leaves: lane k of port p has counted it, holds it for a replay, and is the peer's last; the slots, memory and every
other lane are as they were. -/
structure FlitSent (s t : State) (p j : Nat) (k : Fin 8) (f : Sent) : Prop where
  lane : (t.optic p).lanes[k].flits = (s.optic p).lanes[k].flits + 1 ∧ (t.optic p).lanes[k].last = s.refcnt
  kept : (t.optic p).lanes[k].replay.getLast? = some f ∧
    (t.optic p).lanes[k].replay.length = min 64 ((s.optic p).lanes[k].replay.length + 1)
  stripe : Table.get 0 t.dev.stripe j = k.val + 1
  others : ∀ i, i ≠ k → (t.optic p).lanes[i] = (s.optic p).lanes[i]
  ports : ∀ q, q ≠ p → t.optic q = s.optic q
  peers : ∀ i, i ≠ j → Table.get [] t.dev.egress i = Table.get [] s.dev.egress i ∧ Table.get 0 t.dev.sent i = Table.get 0 s.dev.sent i
  rest : t.slots = s.slots ∧ t.net = s.net ∧ SameMem s t

/-- R408 to R412: with a job index and reference lock, a peer's transfers leave in the order queued, each by the port and channel of the reach
entry that it was queued under, on the lanes of its stripe set in
turn, each with the next sequence; one to be sent again keeps its sequence and goes first. Without them no flit leaves. -/
def Rules.FlitsSent : Prop :=
  ∀ (s : State) (p : Fin 64) (j : Nat),
    (s.dev.jobV = false ∨ s.dev.unlocked = true → exec (.flitTransmit p j) s = .next s) ∧
    (∀ c k, s.dev.jobV = true → s.dev.unlocked = false → NextOf (s.optic p) c (Table.get 0 s.dev.stripe j) k →
      (∀ e x r, Table.get [] s.dev.resend j = [] → Table.get [] s.dev.egress j = (e, x) :: r → routeAt p e = some c →
        ∃ t, exec (.flitTransmit p j) s = .next t ∧
          FlitSent s t p j k { peer := j, seq := Table.get 0 s.dev.sent j, packet := x, entry := e } ∧
          Table.get [] t.dev.egress j = r ∧ Table.get 0 t.dev.sent j = Table.get 0 s.dev.sent j + 1) ∧
      (∀ f r, Table.get [] s.dev.resend j = f :: r → routeAt p f.entry = some c →
        ∃ t, exec (.flitTransmit p j) s = .next t ∧ FlitSent s t p j k f ∧
          Table.get [] t.dev.resend j = r ∧ t.dev.egress = s.dev.egress ∧ t.dev.sent = s.dev.sent)) ∧
    (∀ e x r c, Table.get [] s.dev.resend j = [] → Table.get [] s.dev.egress j = (e, x) :: r → routeAt p e = some c →
      (∀ k, ¬ LitOn (s.optic p) c k) → exec (.flitTransmit p j) s = .next s)

/-- R409, R412, R420, R421: a flit whose tag fails is discarded and asked for again; one already received is dropped; one that is early is kept,
with whether its partition has a job key; one that is next in sequence, of a partition with no job key, is refused to its sender; a store
or a message that is next in sequence goes on from the router that terminates its port (log entry 94). -/
def Rules.FlitsReceived : Prop :=
  ∀ (s : State) (p : Fin 64) (lane : Fin 8) (j : Nat) (part : Fin 8) (n k : Nat) (x : Packet),
    s.dev.jobV = true → s.dev.unlocked = false → s.dev.inbound[k]? = some (j, x) → x.part = part →
    exec (.flitReceive p lane j part n false k) s =
      .next { s with dev := { s.dev with replays := s.dev.replays ++ [(p.val, lane.val, j, n)] } } ∧
    (n < Table.get 0 s.dev.expect j ∨ (∃ e ∈ s.dev.early, e.peer = j ∧ e.seq = n) → exec (.flitReceive p lane j part n true k) s =
      .next { s with dev := { s.dev with inbound := s.dev.inbound.eraseIdx k } }) ∧
    ((∀ e ∈ s.dev.early, e.peer ≠ j) →
      (n = Table.get 0 s.dev.expect j → (s.partAt part).key = none → ∃ t, exec (.flitReceive p lane j part n true k) s = .next t ∧
        t.dev.inbound = s.dev.inbound.eraseIdx k ∧ Table.get 0 t.dev.expect j = n + 1 ∧ t.net = s.net ∧ t.dev.early = s.dev.early ∧
        Table.get [] t.dev.egress j = Table.get [] s.dev.egress j ++ [(Table.get 0 s.dev.reach j, ⟨part, .refused x.body⟩)]) ∧
      (Table.get 0 s.dev.expect j < n → exec (.flitReceive p lane j part n true k) s = .next { s with dev := { s.dev with
        inbound := s.dev.inbound.eraseIdx k
        early := s.dev.early ++ [⟨j, n, s.fibreCluster p, (s.partAt part).key.isSome, x⟩] } }) ∧
      (∀ key, (s.partAt part).key = some key → n = Table.get 0 s.dev.expect j →
        ∀ b, ((∃ o st, x.body = .store o st ∧ b = .storeTo (o.from_ j) st) ∨
            ∃ va hi m o, x.body = .messageTo va hi m o ∧ b = .messageTo va hi m (o.from_ j)) →
          exec (.flitReceive p lane j part n true k) s = .next { s with
            net := s.net ++ [⟨part, .via (s.fibreCluster p) b⟩]
            dev := { s.dev with
              inbound := s.dev.inbound.eraseIdx k, expect := Table.set s.dev.expect j (n + 1) } }))

/-- R412: of a peer's flits that arrive out of order, each is delivered once those before it have been: here a missing flit arrives after the
one behind it. -/
def Rules.FlitsInOrder : Prop :=
  ∀ (s : State) (p : Fin 64) (lane : Fin 8) (j n k : Nat) (x y : Packet) (c : Nat) (o u : Origin) (a b : Store) (r : List Early),
    s.dev.jobV = true → s.dev.unlocked = false → s.dev.inbound[k]? = some (j, x) → n = Table.get 0 s.dev.expect j →
    (s.partAt x.part).key.isSome = true → x.body = .store o a → y.body = .store u b →
    s.dev.early = ⟨j, n + 1, c, true, y⟩ :: r → (∀ e ∈ r, e.peer ≠ j) →
    ∃ t, exec (.flitReceive p lane j x.part n true k) s = .next t ∧ Table.get 0 t.dev.expect j = n + 2 ∧ t.dev.early = r ∧
      t.net = s.net ++ [⟨x.part, .via (s.fibreCluster p) (.storeTo (o.from_ j) a)⟩, ⟨y.part, .via c (.storeTo (u.from_ j) b)⟩] ∧
      t.slots = s.slots ∧ SameMem s t

/-- R408, R409, R411, R420: a replay request, by peer and sequence, sends the flit again on its lane, its second failure too; where the lane is
not lit on the flit's channel any more, the flit waits for a lane that is; the third failure takes the lane out. Without a reference or a
job index nothing is sent. -/
def Rules.FlitsReplayed : Prop :=
  ∀ (s : State) (p : Fin 64) (k : Fin 8) (f : Sent) (l r : List Sent),
    (s.optic p).lanes[k].replay = l ++ f :: r → (∀ e ∈ l, flitName e.peer e.seq ≠ flitName f.peer f.seq) → f ∉ r → f ∉ l →
    (s.dev.jobV = false ∨ s.dev.unlocked = true → exec (.replayRequest p k (flitName f.peer f.seq)) s = .next s) ∧
    (s.dev.jobV = true → s.dev.unlocked = false → f.tries < 2 →
      ((s.optic p).lanes[k].state ≠ .lit ∨ routeAt p f.entry ≠ some (s.optic p).lanes[k].chan) →
      ∃ t, exec (.replayRequest p k (flitName f.peer f.seq)) s = .next t ∧
        (t.optic p).lanes[k] = { (s.optic p).lanes[k] with replay := l ++ r } ∧
        Table.get [] t.dev.resend f.peer = Table.get [] s.dev.resend f.peer ++ [{ f with tries := f.tries + 1 }] ∧ SameMem s t) ∧
    (s.dev.jobV = true → s.dev.unlocked = false → f.tries < 2 → (s.optic p).lanes[k].state = .lit →
      routeAt p f.entry = some (s.optic p).lanes[k].chan → ∃ t, exec (.replayRequest p k (flitName f.peer f.seq)) s = .next t ∧
      (t.optic p).lanes[k] = { (s.optic p).lanes[k] with
        replay := l ++ { f with tries := f.tries + 1 } :: r, flits := (s.optic p).lanes[k].flits + 1, last := s.refcnt } ∧
      (∀ i, i ≠ k → (t.optic p).lanes[i] = (s.optic p).lanes[i]) ∧ (∀ q, q ≠ p → t.optic q = s.optic q) ∧ SameMem s t) ∧
    (s.dev.jobV = true → s.dev.unlocked = false → 2 ≤ f.tries → ∃ t, exec (.replayRequest p k (flitName f.peer f.seq)) s = .next t ∧ (t.optic p).lanes[k].replay = [] ∧
      ((t.optic p).lanes[k].state = .failed ∨ (t.optic p).lanes[k].state = .waking))

/-- A command of a port controller that has not begun stands first in its queue. -/
abbrev State.PortHas (s : State) (p : Nat) (o : PortOp) (r : List PortCmd) : Prop := (s.optic p).queue = { op := o } :: r

/-- What a step of a port's first command leaves: lane k as said, every other lane and port, the slots and memory as they were; the command
is done, or has begun and stands. Commands may have joined behind it (R411). -/
structure PortStep (s t : State) (p : Nat) (k : Fin 8) (x : Lane) (q r : List PortCmd) : Prop where
  lane : (t.optic p).lanes[k] = x
  others : ∀ i, i ≠ k → (t.optic p).lanes[i] = (s.optic p).lanes[i]
  ports : ∀ i, i ≠ p → t.optic i = s.optic i
  queue : (q ++ r) <+: (t.optic p).queue
  rest : t.slots = s.slots ∧ t.net = s.net ∧ SameMem s t

/-- R381, R411, R413: TUNE retunes a lit lane and records the channel of a dark or waking one; a PARK begins at one tick and ends at the next:
the port's own darkens a lit lane while
more than MINLIT + 1 are lit, and a CIRC's while it is not the port's last; WAKE starts a dark lane. -/
def Rules.PortCommands : Prop :=
  ∀ (s : State) (p : Fin 64) (k : Fin 8) (c : BitVec 7) (r : List PortCmd) (l : Lane), (s.optic p).lanes[k] = l →
    (s.PortHas p (.tune k c) r →
      (l.state = .lit → ∃ t, exec (.portTune p) s = .next t ∧
        PortStep s t p k { l with state := .retuning, next := c } [{ op := .tune k c, begun := some s.refcnt }] r) ∧
      (l.state = .dark ∨ l.state = .waking → ∃ t, exec (.portTune p) s = .next t ∧ PortStep s t p k { l with chan := c } [] r)) ∧
    (s.PortHas p (.park k) r → ∃ t, exec (.portPark p) s = .next t ∧
      PortStep s t p k l [{ op := .park k, begun := some s.refcnt }] r) ∧
    (∀ b, (s.optic p).queue = { op := .park k, begun := some b } :: r → l.state = .lit →
      let lit := ((List.finRange 8).filter fun i => (s.optic p).lanes[i].state == .lit).length
      ((s.optic p).minlit.toNat + 1 < lit →
        ∃ t, exec (.portPark p) s = .next t ∧ PortStep s t p k { l with state := .dark } [] r) ∧
      (lit ≤ (s.optic p).minlit.toNat + 1 → ∃ t, exec (.portPark p) s = .next t ∧ PortStep s t p k l [] r)) ∧
    (∀ w o n b, (s.optic p).queue = { op := .park k, word := w, owner := some o, stamp := n, begun := some b } :: r → l.state = .lit →
      ((∃ i, i ≠ k ∧ (s.optic p).lanes[i].state = .lit) → ∃ t, exec (.portPark p) s = .next t ∧
        (t.optic p).lanes[k] = { l with state := .dark } ∧ (t.optic p).queue = r ∧ t.slots = s.slots ∧ SameMem s t) ∧
      ((∀ i, i ≠ k → (s.optic p).lanes[i].state ≠ .lit) → ∃ t, exec (.portPark p) s = .next t ∧
        (t.optic p).lanes = (s.optic p).lanes ∧ (t.optic p).queue = r ∧ t.slots = s.slots ∧ SameMem s t)) ∧
    (s.PortHas p (.wake k) r → l.state = .dark → ∃ t, exec (.portWake p) s = .next t ∧
      PortStep s t p k { l with state := .waking } [{ op := .wake k, begun := some s.refcnt }] r)

/-- R411, R413: a retune or a wake that ends lights its lane, tuned to its new channel, and ends its command. -/
def Rules.LanesLit : Prop :=
  ∀ (s : State) (p : Fin 64) (k : Fin 8) (c : BitVec 7) (b : Nat) (r : List PortCmd) (l : Lane), (s.optic p).lanes[k] = l →
    ((s.optic p).queue = { op := .tune k c, begun := some b } :: r → l.state = .retuning →
      ∃ t, exec (.laneTuneDone p k) s = .next t ∧ PortStep s t p k { l with state := .lit, chan := l.next } [] r) ∧
    ((s.optic p).queue = { op := .wake k, begun := some b } :: r → l.state = .waking →
      ∃ t, exec (.laneWakeDone p k) s = .next t ∧ PortStep s t p k { l with state := .lit } [] r)

/-- R381, R437: the completion of a CIRC goes to the low inbox of its core when its command ends, with its ordinal, its command word and
the ticks it took. -/
def Rules.CircuitsComplete : Prop :=
  ∀ (s : State) (p : Fin 64) (k : Fin 8) (c : BitVec 7) (b : Nat) (r : List PortCmd) (part : Fin 8) (core n : Nat) (ord : Instant) (w : Word),
    (s.optic p).queue = { op := .tune k c, word := w, owner := some (part, core, ord), stamp := n, begun := some b } :: r →
    (s.optic p).lanes[k].state = .retuning →
    ∃ t m va, exec (.laneTuneDone p k) s = .next t ∧ t.net = s.net ++ [⟨part, .message va core false m (.completed (s.fibreCluster p * 16) n)⟩] ∧
      (t.optic p).queue = r ∧ m.toNat % 2 ^ 64 = 0 ∧ m.toNat / 2 ^ 64 % 2 ^ 48 = ord.toNat ∧
      m.toNat / 2 ^ 125 % 8 = 1 ∧ m.toNat / 2 ^ 128 % 2 ^ 64 = 3 * 2 ^ 40 ∧ m.toNat / 2 ^ 192 % 2 ^ 64 = w.toNat ∧ m.toNat / 2 ^ 256 % 2 ^ 64 = 0 ∧
      m.toNat / 2 ^ 320 % 2 ^ 64 = (s.refcnt - b) % 2 ^ 64 ∧ m.toNat / 2 ^ 384 = 0

/-- R413: with PRKH = 0, the highest lit lane that no command waits for and that has been idle for more than IDLEP is queued to be parked when
more lanes than MINLIT + 1 are lit, one in a tick; with WAKEQ exceeded, a wake of every dark lane is queued as one action. With PRKH = 1
neither happens. -/
def Rules.LanesParkAndWake : Prop :=
  ∀ (s : State) (p : Fin 64) (k : Fin 8),
    (s.dev.hamode.getLsbD 2 = true → exec (.laneAutoPark p) s = .next s ∧ exec (.laneAutoWake p) s = .next s) ∧
    (s.dev.hamode.getLsbD 2 = false → (s.optic p).queue = [] →
      (((List.finRange 8).filter fun i => (s.optic p).lanes[i].state == .lit).length ≤ (s.optic p).minlit.toNat + 1 →
        exec (.laneAutoPark p) s = .next s) ∧
      ((s.optic p).minlit.toNat + 1 < ((List.finRange 8).filter fun i => (s.optic p).lanes[i].state == .lit).length →
        (s.optic p).parkedAt ≠ s.refcnt → (s.optic p).lanes[k].state = .lit →
        (s.optic p).lanes[k].last + (s.optic p).idlep.toNat < s.refcnt →
        (∀ i, k < i → (s.optic p).lanes[i].state = .lit → s.refcnt ≤ (s.optic p).lanes[i].last + (s.optic p).idlep.toNat) →
        exec (.laneAutoPark p) s = .next (s.setOptic p { s.optic p with queue := [{ op := .park k }], parkedAt := s.refcnt })) ∧
      ((s.optic p).wakeq.toNat < s.pdepth p → (s.optic p).lanes[k].state = .dark →
        exec (.laneAutoWake p) s = .next (s.setOptic p { s.optic p with queue := [{ op := .wakeAll }] })) ∧
      (s.pdepth p ≤ (s.optic p).wakeq.toNat → exec (.laneAutoWake p) s = .next s))

/-- How a ring's heater code moves for a monitor reading (R416). -/
def heated (q : OptPort) (m : BitVec 12) (h : BitVec 12) : BitVec 12 :=
  if m.toNat + q.hband.toNat < q.mtgt.toNat then h + 1 else if q.mtgt.toNat + q.hband.toNat < m.toNat then h - 1 else h

/-- R416: a heater service, HSPER ticks after the last, moves each ring's code by one toward the target with HTRH = 0; with HTRH = 1 it changes
no code but latches the readings and reports the rings that are out. -/
def Rules.HeatersServed : Prop :=
  ∀ (s : State) (p : Fin 64),
    (s.refcnt < (s.optic p).served + (s.optic p).hsper.toNat → exec (.heaterService p) s = .next s) ∧
    ((s.optic p).served + (s.optic p).hsper.toNat ≤ s.refcnt →
      (s.dev.hamode.getLsbD 1 = false → (∀ k : Fin 8, (s.optic p).lanes[k].state ≠ .failed ∧
          (s.optic p).lanes[k].modulator.hcode ≠ 0 ∧ (s.optic p).lanes[k].modulator.hcode ≠ 4095 ∧
          (s.optic p).lanes[k].filter.hcode ≠ 0 ∧ (s.optic p).lanes[k].filter.hcode ≠ 4095) →
        ∃ t, exec (.heaterService p) s = .next t ∧ (t.optic p).served = s.refcnt ∧ (∀ i, i ≠ p.val → t.optic i = s.optic i) ∧
          SameMem s t ∧ ∀ k : Fin 8,
            (t.optic p).lanes[k].modulator.hcode =
              heated (s.optic p) (Config.monitor s.refcnt p k false) (s.optic p).lanes[k].modulator.hcode ∧
            (t.optic p).lanes[k].filter.hcode =
              heated (s.optic p) (Config.monitor s.refcnt p k true) (s.optic p).lanes[k].filter.hcode ∧
            (t.optic p).lanes[k].state = (s.optic p).lanes[k].state) ∧
      (s.dev.hamode.getLsbD 1 = true → ∃ t, exec (.heaterService p) s = .next t ∧ (t.optic p).served = s.refcnt ∧
        (∀ k : Fin 8, (t.optic p).lanes[k] = { (s.optic p).lanes[k] with
          modulator := { (s.optic p).lanes[k].modulator with mon := Config.monitor s.refcnt p k false }
          filter := { (s.optic p).lanes[k].filter with mon := Config.monitor s.refcnt p k true } }) ∧
        (∀ k : Fin 8, ∀ f : Bool, (t.optic p).hsvc.getLsbD (2 * k.val + f.toNat) =
          ((s.optic p).hsvc.getLsbD (2 * k.val + f.toNat) ||
            decide (heated (s.optic p) (Config.monitor s.refcnt p k f) 1 ≠ 1)))))

/-- R416, R417, R418, R420: a lane that fails takes a free spare pair and wakes on its channel, that to which it retunes where it does, or is
out for good; a TUNE that was begun for it ends; a flit of it that was asked for
again is queued to be sent again, under FLTH = 0. A lane that is dark or out stays as it is. -/
def Rules.LanesFail : Prop :=
  ∀ (s : State) (p : Fin 64) (k d : Fin 8) (ch : BitVec 8) (l : Lane), (s.optic p).lanes[k] = l →
    (l.state = .failed ∨ l.state = .dark → exec (.linkFailure (some p) k d ch) s = .next s) ∧
    (l.state ≠ .failed → l.state ≠ .dark → ∃ t, exec (.linkFailure (some p) k d ch) s = .next t ∧ 5 ∈ t.dev.msix ∧ SameMem s t ∧
      (∀ i, i ≠ k → (t.optic p).lanes[i] = (s.optic p).lanes[i]) ∧
      (∀ x r, (s.optic p).spares = x :: r → (t.optic p).spares = r ∧ (t.optic p).spare.getLsbD k = true ∧
        (t.optic p).lanes[k] = { l with
          pair := x, state := .waking, chan := if l.state = .retuning then l.next else l.chan, replay := [], modulator := {}
          filter := {} }) ∧
      (∀ c b r, (s.optic p).queue = { op := .tune k c, begun := some b } :: r → (t.optic p).queue = r) ∧
      ((s.optic p).spares = [] → (t.optic p).fail.getLsbD k = true ∧
        (t.optic p).lanes[k] = { l with state := .failed, replay := [] }) ∧
      (s.dev.hamode.getLsbD 4 = false → ∀ f ∈ l.replay, f.tries ≠ 0 → { f with tries := 0 } ∈ Table.get [] t.dev.resend f.peer))

/-- R299, R359, R418: a failed channel of the package; under FLTH = 1 what it leaves with no path is held, each with a record, once
nothing that can still go stands before it; under FLTH = 0 a
piece that it leaves with no path ends its command, and everything else waits where it is, with no record. -/
def Rules.ChannelsFail : Prop :=
  ∀ (s : State) (lane d : Fin 8) (ch : BitVec 8),
    ∃ t, exec (.linkFailure none lane d ch) s = .next t ∧ t.dev.deadChans = s.dev.deadChans ++ [(d.val, ch.toNat)] ∧ SameMem s t ∧
      (s.dev.hamode.getLsbD 4 = true → s.dev.waiting0 = [] → ∀ q : Packet,
        q ∈ s.net → t.blocked q.body = true → (∀ a ∈ s.net, t.blocked a.body = true ∨ q.body.after a.body = false) → q ∉ t.net ∧ ∃ f ∈ t.dev.fabric, f.packet = q ∧ f.pkg = true) ∧
      (s.dev.hamode.getLsbD 4 = false →
        let u : State := { s with dev := { s.dev with deadChans := s.dev.deadChans ++ [(d.val, ch.toNat)] } }
        t.dev.fabric = s.dev.fabric ∧
        (∀ q ∈ s.net, q.body.isPiece = false → q ∈ t.net) ∧
        (∀ p k st c, s.net = [⟨p, .store (.cmd k) st⟩] → u.blocked (.store (.cmd k) st) = true → s.listCore k = none →
          s.commands.find? (fun x => x.stamp == k) = some c → (match c.work with
            | .rcopy .. => False
            | .coll .. => c.stage = .write
            | _ => c.stage ≠ .ended) →
          t.net = [] ∧ ∃ e ∈ t.commands, e.stamp = k ∧ e.stage = .ended ∧ e.status = (if c.isColl = true then 0x18 else 0x16) ∧
            e.tval = st.va))

/-- R408: with reference lock lost nothing leaves and MSI-X 5 is signalled. -/
def Rules.LockLost : Prop :=
  ∀ s : State, ∃ t, exec .referenceLockLoss s = .next t ∧ t.dev.unlocked = true ∧ 5 ∈ t.dev.msix ∧ t.slots = s.slots ∧ SameMem s t ∧
    ∀ p j, exec (.flitTransmit p j) t = .next t

/-- R418: RETRY queues the transfer of the oldest fabric fault record again, before all else for its peer; ABANDON of a request ends it with
FABRIC-UNREACHABLE; a reply or a completion, of a unit or of a launch, is never abandoned but sent again. -/
def Rules.FabricRecords : Prop :=
  ∀ (s : State) (f : FabFault) (r : List FabFault), s.dev.bootErr = 0 → s.dev.fabric = f :: r → f.pkg = false → f.seq = none →
    (∃ t, exec .fabricFaultRetry s = .next t ∧ t.dev.fabric = r ∧ SameMem s t ∧
      Table.get [] t.dev.egress f.peer =
        (f.packet.flits.map fun q => (Table.get 0 s.dev.reach f.peer, q)) ++ Table.get [] s.dev.egress f.peer) ∧
    (∀ n q, f.packet.body = .request n q → ∃ t, exec .fabricFaultAbandon s = .next t ∧ t.dev.fabric = r ∧
      t.dev.egress = s.dev.egress ∧ SameMem s t ∧ t.net = s.net ++ [⟨f.packet.part, .reply n (.fail 0x18 q.addr) .none⟩]) ∧
    ((∃ n x l, f.packet.body = .reply n x l) ∨ (∃ va c hi m o, (f.packet.body = .message va c hi m o ∨ f.packet.body = .messageTo va hi m o) ∧
      (o = .host ∨ (∃ u, o = .unit u) ∨ ∃ u n, o = .completed u n)) → ∃ t, exec .fabricFaultAbandon s = .next t ∧ t.dev.fabric = r ∧
      Table.get [] t.dev.egress f.peer = (Table.get 0 s.dev.reach f.peer, f.packet) :: Table.get [] s.dev.egress f.peer)

/-- R424: a staging copy that may be committed: its valid entries agree with those of the dies they name, which are enabled, and every pair of
enabled dies has a channel. -/
def CommitMay (s : State) : Prop :=
  (∀ a n, a < 8 → n < 256 → (s.stagedByte a n).getLsbD 7 = true →
    (s.stagedByte ((s.stagedByte a n).toNat % 8) n).getLsbD 7 = true ∧
    (s.stagedByte ((s.stagedByte a n).toNat % 8) n).toNat % 8 = a ∧ s.dieOn ((s.stagedByte a n).toNat % 8) = true) ∧
  ∀ a b, a < 8 → b < 8 → s.dieOn a = true → s.dieOn b = true → a ≠ b →
    ∃ n, n < 256 ∧ (s.stagedByte a n).getLsbD 7 = true ∧ (s.stagedByte a n).toNat % 8 = b

/-- R424: a commit of 1 puts the staging copy into force when its entries agree and join every pair of enabled dies; else it sets the flag and
the connections and the staging copy stand. A write with bit 0 clear does nothing. -/
def Rules.ConnectionsCommitted : Prop :=
  ∀ (s : State) (v : Word), s.dev.bootErr = 0 →
    (v.getLsbD 0 = false → exec (.connectionCommit v) s = .next s) ∧
    (v.getLsbD 0 = true →
      (CommitMay s → ∃ t, exec (.connectionCommit v) s = .next t ∧ t.dev.staged = [] ∧ t.dev.connErr = s.dev.connErr ∧ SameMem s t ∧
        ∀ a n, a < 8 → n < 256 → t.connByte a n = s.stagedByte a n) ∧
      (¬ CommitMay s → exec (.connectionCommit v) s = .next { s with dev := { s.dev with connErr := true } }))

/-! ## The host (18_fabric) -/

/-- R394, R396: a host write of a status log clears its V where the byte that holds it is written with it set; a value that PWRCFG does not
allow changes nothing but CFGLOG, which says where and why and signals MSI-X 4. -/
def Rules.HostWrites : Prop :=
  ∀ (s : State) (v : Word), s.dev.bootErr = 0 →
    exec (.registerWrite 0x20000 v 1) s = .next { s with dev := { s.dev with haflog := s.dev.haflog &&& ~~~ (v &&& 0x80) } } ∧
    exec (.registerWrite 0x20008 v 1) s = .next { s with dev := { s.dev with hmlog := s.dev.hmlog &&& ~~~ (v &&& 0x80) } } ∧
    exec (.registerWrite 0x20020 v 1) s = .next { s with dev := { s.dev with cfglog := s.dev.cfglog &&& ~~~ (v &&& 0x80) } } ∧
    exec (.registerWrite 0x220 v 0) s = .next s ∧
    (v.toNat / 2 ^ 32 % 2 ^ 16 = 0 ∨ 2400 < v.toNat / 2 ^ 32 % 2 ^ 16 →
      exec (.registerWrite 0x220 v 255) s = .next { s with dev := { s.dev with cfglog := 0x22000000180, msix := 4 :: s.dev.msix } }) ∧
    (v.toNat / 2 ^ 32 % 2 ^ 16 ≠ 0 → v.toNat / 2 ^ 32 % 2 ^ 16 ≤ 2400 →
      exec (.registerWrite 0x220 v 255) s =
        .next { s with dev := { s.dev with budget := .ofNat 32 (v.toNat / 2 ^ 32 % 2 ^ 16) } })

/-- R401, R402: a kick takes QTAIL − QHEAD entries of its queue and moves QHEAD; more than QLEN is an error that takes none. -/
def Rules.Kicks : Prop :=
  ∀ (s : State) (p : Fin 8) (tail : Half), s.dev.bootErr = 0 →
    ((s.partAt p).qlen < (tail - (s.partAt p).head).toNat → exec (.kick p tail) s =
      .next (s.setPartAt p { s.partAt p with qerr := (s.partAt p).qerr ||| 1 })) ∧
    ((tail - (s.partAt p).head).toNat ≤ (s.partAt p).qlen → ∃ t, exec (.kick p tail) s = .next t ∧
      (t.partAt p).head = tail ∧ (t.partAt p).qerr = (s.partAt p).qerr ∧ SameMem s t ∧ (∀ q, q ≠ p → t.partAt q = s.partAt q) ∧
      (s.partAt p).hostQueue <+: (t.partAt p).hostQueue ∧
      (t.partAt p).hostQueue.length = (s.partAt p).hostQueue.length + (tail - (s.partAt p).head).toNat ∧
      ∀ k, k < (tail - (s.partAt p).head).toNat → (t.partAt p).hostQueue[(s.partAt p).hostQueue.length + k]? =
        some ((s.tableRead p ((s.partAt p).qbase + .ofNat 64 (64 * (((s.partAt p).head.toNat + k) % 2 ^ 32 % (s.partAt p).qlen)))
          64).map (BitVec.ofNat 512)))

/-- R403: a CQR within CQLEN of CQW is taken; another is ignored and recorded. -/
def Rules.CompletionQueueReads : Prop :=
  ∀ (s : State) (p : Fin 8) (v : Half), s.dev.bootErr = 0 →
    ((s.partAt p).cqlen < ((s.partAt p).cqw - v).toNat → exec (.cqrWrite p v) s =
      .next (s.noteCfg (0x300038 + 0x1000 * p.val) 3)) ∧
    (((s.partAt p).cqw - v).toNat ≤ (s.partAt p).cqlen → (s.partAt p).records = [] → exec (.cqrWrite p v) s =
      .next (s.setPartAt p { s.partAt p with cqr := v }))

/-- R379, R394: PGINVH drops the remote lines that every router holds of a 2 MiB region of W2 or W3 for the partition that its bits 63 to 61
name; another address is ignored. -/
def Rules.HostInvalidates : Prop :=
  ∀ (s : State) (v : Word), s.dev.bootErr = 0 →
    ((winOf (localAddr v) = some .w2 ∨ winOf (localAddr v) = some .w3) → ∃ t, exec (.pginvh v) s = .next t ∧ SameMem s t ∧
      (∀ k, ∀ e ∈ (t.portAt k).remote, e.part.val = v.toNat / 2 ^ 61 → s.onDevice e.vline = true →
        localAddr e.vline / 2 ^ 21 ≠ localAddr v / 2 ^ 21) ∧
      (∀ k, ∀ e ∈ (s.portAt k).remote, e.part.val ≠ v.toNat / 2 ^ 61 ∨ localAddr e.vline / 2 ^ 21 ≠ localAddr v / 2 ^ 21 →
        e ∈ (t.portAt k).remote)) ∧
    (winOf (localAddr v) ≠ some .w2 → winOf (localAddr v) ≠ some .w3 → exec (.pginvh v) s = .next (s.noteCfg 0x20010 1))

/-- R395: writing 1 takes the oldest waiting record of a port, or of Monarch, away, and nothing else; another value does nothing. -/
def Rules.RecordsRemoved : Prop :=
  ∀ (s : State), s.dev.bootErr = 0 →
    (∀ c v, c < 128 → s.dieOn (c / 16) = true → v ≠ 1 → exec (.faultRecordRemove c v) s = .next s) ∧
    (∀ c e l r, c < 128 → s.dieOn (c / 16) = true → (s.portAt c).faults = l ++ e :: r → (∀ x ∈ l, x.reported = false ∨ x.removed = true) →
      e.reported = true → e.removed = false → e ∉ l → e ∉ r →
      (e.ended = true → exec (.faultRecordRemove c 1) s = .next (s.setPortAt c { s.portAt c with faults := l ++ r })) ∧
      (e.ended = false → exec (.faultRecordRemove c 1) s =
        .next (s.setPortAt c { s.portAt c with faults := l ++ { e with removed := true } :: r }))) ∧
    (∀ p v, v ≠ 1 → exec (.monarchRecordRemove p v) s = .next s) ∧
    (∀ p m r, (s.monarch p).records = m :: r → exec (.monarchRecordRemove p 1) s =
      .next (s.setMonarch p { s.monarch p with records := r, ovf := false }))

/-- R388: a resume to job device 0 of a stopped partition, at least 4,096 counts ahead, sets STOPCNT; any other write is ignored. -/
def Rules.ResumesAsked : Prop :=
  ∀ (s : State) (p : Fin 8) (v : Word), s.dev.bootErr = 0 →
    (s.isJob0 = true → v.toNat / 2 ^ 62 = 3 → s.stopState p = 2 → s.refcnt + 4096 ≤ v.toNat % 2 ^ 56 →
      ∃ t, exec (.resumeRequest p v) s = .next t ∧ (t.partAt p).regs.stopcnt.toNat = 3 * 2 ^ 62 + v.toNat % 2 ^ 56 ∧
        t.slots = s.slots ∧ SameMem s t ∧ t.dev.cfglog = s.dev.cfglog) ∧
    (s.isJob0 = false ∨ v.toNat / 2 ^ 62 ≠ 3 ∨ s.stopState p ≠ 2 ∨ v.toNat % 2 ^ 56 < s.refcnt + 4096 →
      exec (.resumeRequest p v) s = .next (s.noteCfg (0x10210 + 0x1000 * p.val) 3))

/-- R144: FPCNT grows by the frames added, at most to 65,535; 0 adds none. -/
def Rules.FramesAdded : Prop :=
  ∀ (s : State) (p : Fin 8) (v : Word), s.dev.bootErr = 0 → (s.partAt p).regs.reccfg.toNat % 2 = 0 →
    (v.toNat / 2 ^ 48 = 0 → exec (.fpcntAdd p v) s = .next s) ∧
    (v.toNat / 2 ^ 48 ≠ 0 → ∃ t, exec (.fpcntAdd p v) s = .next t ∧ (∀ q, q ≠ p → t.partAt q = s.partAt q) ∧
      (t.partAt p).regs = { (s.partAt p).regs with
        fpcnt := .ofNat 64 (min 65535 ((s.partAt p).regs.fpcnt.toNat % 2 ^ 16 + v.toNat / 2 ^ 48)) } ∧
      t.slots = s.slots ∧ SameMem s t)

/-- R377, R382: a partition is made by a PDEF that the rule allows: its counter is at instant 0, its registers are at reset. -/
def Rules.PartitionsMade : Prop :=
  ∀ (s : State) (n : Fin 8) (v w : Word), s.dev.bootErr = 0 → w = v ||| 0x8000000000000000 →
    (pdefV (s.pdefOf n) = false → n.val < s.split → (∃ a b : Fin 16, a ≠ b ∧ (pdefSlots w).getLsbD a = true ∧ (pdefSlots w).getLsbD b = true) →
      pdefDies w &&& ~~~ s.dev.dies = 0 → 1 ≤ pdefRsv w → pdefRsv w ≤ 32 →
      (∀ q, q ≠ n → pdefV (s.pdefOf q) = true → pdefDies (s.pdefOf q) &&& pdefDies w = 0) →
      (((List.finRange 8).filter fun q => q != n && pdefV (s.pdefOf q)).map fun q => pdefRsv (s.pdefOf q)).sum + pdefRsv w ≤ 128 →
      ∃ t, exec (.partitionCreate n v) s = .next t ∧ (t.pdefOf n).toNat = 2 ^ 63 + w.toNat / 2 ^ 40 % 2 ^ 16 * 2 ^ 40 + w.toNat % 2 ^ 32 ∧
        (t.partAt n).now = 0 ∧ (t.partAt n).regs = {} ∧ (∀ q, q ≠ n → t.pdefOf q = s.pdefOf q ∧ t.partAt q = s.partAt q) ∧
        t.slots = s.slots ∧ SameMem s t) ∧
    (pdefV (s.pdefOf n) = true → ∃ t, exec (.partitionCreate n v) s = .next t ∧ t.dev.pdef = s.dev.pdef ∧ t.slots = s.slots ∧
      SameMem s t ∧ t.dev.cfglog.toNat / 2 ^ 32 = 0x240 + 8 * n.val)

/-- R93, R165, R201, R382: dissolving a partition discards its threads, its pending and provisional stores, its tag entries, its reservations,
its launches, its key and what it has in flight, sets SRKEY to 0, keeps the others', and writes no memory. -/
def Rules.PartitionsDissolved : Prop :=
  ∀ (s : State) (n : Fin 8) (v w : Word), s.dev.bootErr = 0 → w = v &&& 0x7FFFFFFFFFFFFFFF → pdefV (s.pdefOf n) = true →
    (∃ a b : Fin 16, a ≠ b ∧ (pdefSlots w).getLsbD a = true ∧ (pdefSlots w).getLsbD b = true) → pdefDies w &&& ~~~ s.dev.dies = 0 →
    (∀ q, q ≠ n → pdefV (s.pdefOf q) = true → pdefDies (s.pdefOf q) &&& pdefDies w = 0) →
    (((List.finRange 8).filter fun q => q != n && pdefV (s.pdefOf q)).map fun q => pdefRsv (s.pdefOf q)).sum ≤ 128 →
    ∃ t, exec (.partitionDissolve n v) s = .next t ∧ pdefV (t.pdefOf n) = false ∧ SameMem s t ∧ (t.partAt n).key = none ∧
      (t.partAt n).launches = [] ∧ (t.partAt n).queue = [] ∧ (t.partAt n).regs = {} ∧
      (∀ k, ∀ e, e ∈ (t.portAt k).pending ↔ e ∈ (s.portAt k).pending ∧ e.part ≠ n) ∧ (∀ k, ∀ e ∈ (t.portAt k).stalled, e.1 ≠ n) ∧
      (∀ k, ∀ e, e ∈ (t.coreAt k).prov ↔ e ∈ (s.coreAt k).prov ∧ e.part ≠ n) ∧
      (∀ k, ∀ e, e ∈ (t.coreAt k).tags ↔ e ∈ (s.coreAt k).tags ∧ e.1 / 1024 ≠ n.val) ∧
      (∀ e, e ∈ t.reservations ↔ e ∈ s.reservations ∧ e.part ≠ n) ∧ (∀ m, (s.slotAt m).part = n → (t.slotAt m).run = .free) ∧
      (∀ m, (s.slotAt m).part ≠ n → t.slotAt m = s.slotAt m) ∧ (∀ q ∈ t.net, q.part ≠ n) ∧
      (∀ q ∈ s.net, q.part ≠ n → q ∈ t.net) ∧ (∀ q, q ≠ n → t.pdefOf q = s.pdefOf q ∧ t.partAt q = s.partAt q)

/-! ## Keys, attestation, boot -/

/-- R419: KGO starts a load unless one runs; the load unwraps the key block and installs the job key of the partition that it names, or fails;
it signals MSI-X 6. -/
def Rules.KeysLoad : Prop :=
  ∀ (s : State) (v : Word), s.dev.bootErr = 0 →
    (v.getLsbD 0 = false → exec (.keyLoad v) s = .next s) ∧
    (v.getLsbD 0 = true → s.dev.kstat ≠ 1 → exec (.keyLoad v) s = .next { s with dev := { s.dev with kstat := 1 } }) ∧
    (v.getLsbD 0 = true → s.dev.kstat = 1 → exec (.keyLoad v) s = .next (s.noteCfg 0x420008 3)) ∧
    (s.dev.kstat ≠ 1 → exec .keyLoadDone s = .next s) ∧
    (∀ o, s.dev.kstat = 1 → Config.unwrapKey (.ofNat 48 (s.dev.keyBlock.read 2 6)) (.ofNat 1064 (s.dev.keyBlock.read 0x100 133))
        (.ofNat 320 (s.dev.keyBlock.read 0x190 40)) = o →
      ∃ t, exec .keyLoadDone s = .next t ∧ t.dev.msix = 6 :: s.dev.msix ∧ t.slots = s.slots ∧ SameMem s t ∧
        (∀ k, o = some k → t.dev.kstat = 2 ∧ (t.partAt (.ofNat 8 (s.dev.keyBlock.byte 0).toNat)).key = some k) ∧
        (o = none → t.dev.kstat = 3 ∧ t.parts = s.parts))

/-- R407: a request is taken unless one runs; the report holds the nonce and then the digest of the record, and signals MSI-X 0. -/
def Rules.Attests : Prop :=
  ∀ (s : State) (v : Word), s.dev.bootErr = 0 →
    (v.getLsbD 0 = true → s.dev.attesting = false → exec (.attestRequest v) s = .next { s with dev := { s.dev with attesting := true } }) ∧
    (v.getLsbD 0 = true → s.dev.attesting = true → exec (.attestRequest v) s = .next (s.noteCfg 0x410040 3)) ∧
    (v.getLsbD 0 = false → exec (.attestRequest v) s = .next s) ∧
    (s.dev.attesting = false → exec .attestReportReady s = .next s) ∧
    (s.dev.attesting = true → ∃ t, exec .attestReportReady s = .next t ∧ t.dev.attesting = false ∧ t.dev.msix = 0 :: s.dev.msix ∧
      t.dev.report.read 0 64 = s.dev.nonce.read 0 64 ∧ t.dev.report.read 64 64 = (Config.recordDigest s.dev.record).toNat ∧
      t.dev.report.read 128 64 = Config.firmwareDigest.toNat ∧ t.dev.report.read 192 8 = s.refcnt % 2 ^ 64 ∧
      (∀ n : Fin 8, t.dev.report.read (200 + 8 * n.val) 8 = (s.pdefOf n).toNat) ∧ t.slots = s.slots ∧ SameMem s t)

/-- R2, R3, R405, R406: cold reset makes the machine the reset machine, with the dies of its configuration record, and signals MSI-X 0. What
fails is said in BOOTST; then no register write takes effect, no slot holds a thread, and none does after the next step. -/
def Rules.ColdResets : Prop :=
  ∀ s : State,
    exec (.coldReset true true true) s = .next { State.reset with
      choices := s.choices
      dev := { State.reset.dev with record := s.dev.record, dies := s.dev.record, boot := 4, bootErr := 0, msix := [0] } } ∧
    (∀ a b c, a = false ∨ b = false ∨ c = false → ∃ t, exec (.coldReset a b c) s = .next t ∧ t.slots = [] ∧ t.mem = [] ∧
      t.dev.bootErr = (if a = false then 1 else if b = false then 2 else 3) ∧
      t.dev.boot = (if a = false then 0 else if b = false then 1 else 3) ∧ t.dev.record = s.dev.record ∧
      (∀ off v be, exec (.registerWrite off v be) t = .next t) ∧ ∃ u, step t = .next u ∧ u.slots = [] ∧ u.cyc = t.cyc + 1)

/-! ## Host accesses to memory -/

/-- R158, R398, R399: a host read of a line that a Now segment of device core's table gives returns its bytes; one that is refused returns all
ones and is recorded in HMLOG. -/
def Rules.HostReads : Prop :=
  ∀ (s : State) (p : Fin 8) (off : BitVec 64),
    (∀ g pl x, s.hostPlace p off.toNat (.allOnes 64) false = some (g, pl) → g.i = false →
      s.readAt (hdmAddr (off.toNat / 64 * 64)) pl 64 = .ok x →
      exec (.hostMemRead p off) s = .next { s with dev := { s.dev with answer := some x } }) ∧
    (s.hostPlace p off.toNat (.allOnes 64) false = none → ∃ t, exec (.hostMemRead p off) s = .next t ∧
      t.dev.answer = some (2 ^ 512 - 1) ∧ t.dev.hmlog = .ofNat 64 (2 ^ 16 * localAddr (hdmAddr (off.toNat / 64 * 64)) + 2 ^ 13 * p.val + 0x80) ∧
      t.slots = s.slots ∧ SameMem s t)

/-- R398, R399: what refuses a host access: no partition, an offset from 388 GiB, no segment, or rights that do not allow it. -/
def Rules.HostRefusals : Prop :=
  ∀ (s : State) (p : Fin 8) (off : Nat) (be : BitVec 64) (w : Bool),
    (pdefV (s.pdefOf p) = false ∨ 388 * 2 ^ 30 ≤ off → s.hostPlace p off be w = none) ∧
    (∀ g pl, s.hostPlace p off be w = some (g, pl) → (w = true → g.w = true) ∧ (w = false → g.r = true) ∧
      ∀ k : Fin 64, be.getLsbD k = true → g.holds (hdmAddr (off / 64 * 64 + k)) = true)

/-- R158, R398, R399: a host write with no byte enabled does nothing, but is refused where its decoder refuses every access; one to a Now
segment writes the enabled bytes of its line and no others; one to an Instant segment enters its home port's buffer as a store of the
host at NOW + 1, or joins the one there; where the buffer is full, where the line fails its check (R4), and where no segment grants it, it is recorded in HMLOG and writes
nothing. -/
def Rules.HostStores : Prop :=
  ∀ (s : State) (p : Fin 8) (off be : BitVec 64) (x : Vec),
    let refused := fun (t : State) =>
      t.dev.hmlog = .ofNat 64 (2 ^ 16 * localAddr (hdmAddr (off.toNat / 64 * 64)) + 2 ^ 13 * p.val + 0x180) ∧
        t.ports = s.ports ∧ SameMem s t
    (s.dev.bootErr = 0 → pdefV (s.pdefOf p) = true → exec (.hostMemWrite p off 0 x) s = .next s) ∧
    (pdefV (s.pdefOf p) = false → ∃ t, exec (.hostMemWrite p off be x) s = .next t ∧ refused t) ∧
    (be ≠ 0 → s.hostPlace p off.toNat be true = none → ∃ t, exec (.hostMemWrite p off be x) s = .next t ∧ refused t) ∧
    (∀ g pl, be ≠ 0 → s.hostPlace p off.toNat be true = some (g, pl) → (s.partAt p).regs.reccfg.toNat % 2 = 0 → pl.phys % 64 = 0 →
      (s.badAt pl.phys = true → ∃ t, exec (.hostMemWrite p off be x) s = .next t ∧ refused t) ∧
      (s.badAt pl.phys = false → g.i = false → ∃ t, exec (.hostMemWrite p off be x) s = .next t ∧ SameMemBut s t pl.phys 64 ∧
        ∀ k : Fin 64, t.mem.byte (pl.phys + k) = if be.getLsbD k then x.extractLsb' (8 * k) 8 else s.mem.byte (pl.phys + k)) ∧
      (s.badAt pl.phys = false → g.i = true →
        let now := (s.partAt p).now
        let same := fun (e : Pending) => e.part = p ∧ e.line = pl.phys / 64 ∧ e.v = now + 1 ∧ e.task = 0 ∧ e.host = true
        let q := (s.portAt (pl.home / 16)).pending
        ((∀ e ∈ q, ¬ same e) → q.length < 4096 → ∃ t bs, exec (.hostMemWrite p off be x) s = .next t ∧ SameMem s t ∧
          (t.portAt (pl.home / 16)).pending = q ++ [⟨p, pl.phys / 64, now + 1, 0, true, bs⟩] ∧
          ∀ (k : Fin 64) (b : Byte), (k.val, 0, b) ∈ bs ↔ be.getLsbD k = true ∧ b = x.extractLsb' (8 * k) 8) ∧
        (∀ l e r, q = l ++ e :: r → same e → (∀ f ∈ l ++ r, ¬ same f) → (∀ b ∈ e.bytes, b.2.1 = 0) →
          ∃ t bs, exec (.hostMemWrite p off be x) s = .next t ∧ SameMem s t ∧
            (t.portAt (pl.home / 16)).pending = l ++ { e with bytes := bs } :: r ∧
            (∀ k : Fin 64, be.getLsbD k = true → (k.val, 0, x.extractLsb' (8 * k) 8) ∈ bs) ∧
            ∀ b ∈ e.bytes, be.getLsbD b.1 = false → b ∈ bs) ∧
        ((∀ e ∈ q, ¬ same e) → 4096 ≤ q.length → ∃ t, exec (.hostMemWrite p off be x) s = .next t ∧ refused t)))

/-- R214, R215, R400: a host atomic on an aligned object of a segment with H is one read-modify-write at its home, and gives the old value; any
other is an Unsupported Request, recorded in HAFLOG. -/
def Rules.HostAtomics : Prop :=
  ∀ (s : State) (off : BitVec 64) (z : DSize) (y c : Word) (p : Fin 8) (va : Word), p.val = off.toNat / 2 ^ 48 % 8 →
    va = ownAddr (off.setWidth 48) →
    (∀ pl op f, s.atomicPlace p va (dsizeBytes z) = some pl → (s.partAt p).regs.reccfg.toNat % 2 = 0 →
      ((op = .fetchAdd ∧ f = fun a b : Nat => a + b) ∨ (op = .swap ∧ f = fun _ b : Nat => b) ∨
        (op = .cas ∧ f = fun a b : Nat => if a = c.toNat % 2 ^ (8 * dsizeBytes z) then b else a)) →
      ∃ t, exec (.hostAtomic off op z y c) s = .next t ∧ t.dev.answer = some (s.mem.read pl.phys (dsizeBytes z)) ∧
        SameMemBut s t pl.phys (dsizeBytes z) ∧ t.mem.read pl.phys (dsizeBytes z) =
          f (s.mem.read pl.phys (dsizeBytes z)) (y.toNat % 2 ^ (8 * dsizeBytes z)) % 2 ^ (8 * dsizeBytes z)) ∧
    (∀ op, op = .cas128 ∨ s.atomicPlace p va (dsizeBytes z) = none → ∃ t, exec (.hostAtomic off op z y c) s = .next t ∧
      t.dev.answer = none ∧ t.dev.haflog = .ofNat 64 (2 ^ 16 * localAddr va + 2 ^ 13 * p.val + 0x80) ∧ SameMem s t)

/-! ## Launches, pages and idle turns -/

/-- R148, R233, R94: a launch waits while its partition does not run, its epoch has not come, or a register write that was made before it was
queued is pending: each pending write counts the launches that stood before it in the device and in the host queue. The device queue
goes first; a descriptor whose checks pass becomes a launch, and another is rejected whole. -/
def Rules.LaunchesTaken : Prop :=
  ∀ (s : State) (p : Fin 8),
    (s.running p = false ∨ s.refcnt < (s.partAt p).regs.qepoch.toNat % 2 ^ 56 → exec (.launchTake p) s = .next s) ∧
    (((s.partAt p).queue ≠ [] ∧ ∃ a ∈ (s.partAt p).ahead, a.1 = 0) ∨ ((s.partAt p).queue = [] ∧ ∃ a ∈ (s.partAt p).ahead, a.2 = 0) →
      exec (.launchTake p) s = .next s) ∧
    (s.running p = true → (s.partAt p).regs.qepoch.toNat % 2 ^ 56 ≤ s.refcnt →
      ((s.partAt p).queue = [] → (s.partAt p).hostQueue = [] → exec (.launchTake p) s = .next s) ∧
      (∀ m core host q h u, (s.partAt p).parked = [] →
        ((s.partAt p).queue = (m, core) :: q ∧ host = false ∧ h = (s.partAt p).hostQueue ∧ (∀ a ∈ (s.partAt p).ahead, 0 < a.1) ∨
          (s.partAt p).queue = [] ∧ q = [] ∧ (s.partAt p).hostQueue = some m :: h ∧ host = true ∧ core = s.deviceCore ∧
            ∀ a ∈ (s.partAt p).ahead, 0 < a.2) →
        u = s.setPartAt p ((s.partAt p).takeHead host) →
        (∀ e an hv, u.checkLaunch p m = .ok (e, an, hv) → (s.partAt p).regs.reccfg.toNat % 2 = 0 →
          ∃ t l, exec (.launchTake p) s = .next t ∧ (t.partAt p).launches = (s.partAt p).launches ++ [l] ∧ l.id = s.stamp ∧
            t.stamp = s.stamp + 1 ∧ l.desc = m ∧ l.host = host ∧ l.core = core ∧ l.entry = e ∧ l.anch = an ∧ l.heavy = hv ∧
            l.started = [] ∧ (t.partAt p).queue = q ∧ (t.partAt p).hostQueue = h ∧ t.slots = s.slots ∧ SameMem s t) ∧
        (∀ c, u.checkLaunch p m = .error c → ∃ t, exec (.launchTake p) s = .next t ∧
          (t.partAt p).launches = (s.partAt p).launches ∧ (t.partAt p).queue = q ∧ (t.partAt p).hostQueue = h)))

/-- R227, R228: a crew of one task that may start takes the first slot of its core's order: its thread begins at the entry with ARG and its task
index, at its release instant, in user mode. One that may not start changes nothing. -/
def Rules.CrewsStart : Prop :=
  ∀ (s : State) (p : Fin 8) (l : Launch) (c : Nat), (s.partAt p).launches.find? (fun m => m.id == l.id) = some l →
    (s.running p = false → exec (.crewStart p l.id c) s = .next s) ∧
    (s.crewReady p l c = false → descRes l.desc = false → exec (.crewStart p l.id c) s = .next s) ∧
    (∀ n r, s.running p = true → s.crewReady p l c = true → s.holdsBack l c = false → descRes l.desc = false →
      descCrew l.desc = 1 → descTeam l.desc = 1 → s.teamSlots p (crewCluster l.desc c * 16 + descCore0 l.desc) = n :: r →
      ∃ t, exec (.crewStart p l.id c) s = .next t ∧ SameMem s t ∧ (t.slotAt n).part = p ∧ (t.slotAt n).task = some (l.id, c) ∧
        ((t.slotAt n).run = .runnable ∨ (t.slotAt n).unloaded = true) ∧ (t.slotAt n).ctx.pc = l.entry ∧
        (t.slotAt n).ctx.g[0] = descArg l.desc ∧ (t.slotAt n).ctx.g[1] = .ofNat 64 c ∧ (t.slotAt n).ctx.g[15] = 0 ∧
        (t.slotAt n).ctx.rel = crewRel l.desc c ∧ (t.slotAt n).ctx.vis = crewRel l.desc c + (descVoff l.desc).setWidth 48 ∧
        (t.slotAt n).ctx.ord = .ofNat 48 (c * 2 ^ 16) ∧ (t.slotAt n).ctx.priv = 0)

/-- R23, R142, R144: a fault that is not the pool's, by HAMODE.PAGH as it arose, is reported to the host and stands; with a frame of the pool the page is mapped: its frame is
zeroed, the table's entry names it, and the waiting slot is woken, in every state of the model's invariant. -/
def Rules.PagesResolved : Prop :=
  ∀ (s : State) (c k : Nat) (e : FaultEnt), (s.portAt c).faults[k]? = some e →
    (e.reported = true → exec (.pageFaultResolve c k) s = .next s) ∧
    (e.reported = false → (e.toHost = true ∨ e.kind = 8) → ∃ t, exec (.pageFaultResolve c k) s = .next t ∧
      2 ∈ t.dev.msix ∧ { e with reported := true } ∈ (t.portAt c).faults ∧ t.slots = s.slots ∧ SameMem s t) ∧
    (∀ at_ u f n, s.Inv → e.reported = false → e.toHost = false → e.kind ≠ 8 →
      s.walk e.part (winOf (localAddr e.va) == some .w3) (localAddr e.va) = .noTab at_ → s.takeFrame e.part = (u, some f) →
      e.waiters = [.slot n] → ∃ t, exec (.pageFaultResolve c k) s = .next t ∧ t.mem.read at_ 8 = f.toNat ∧
        (t.portAt c).faults = (s.portAt c).faults.erase e ∧ ⟨e.part, .wake n⟩ ∈ t.net ∧ t.slots = s.slots ∧
        ∀ b, ¬ (at_ ≤ b ∧ b < at_ + 8) →
          (frameBase (pteDie f) (pteSram f) + pteFrame f ≤ b ∧ b < frameBase (pteDie f) (pteSram f) + pteFrame f + 65536 →
            t.mem.byte b = unlisted) ∧
          (¬ (frameBase (pteDie f) (pteSram f) + pteFrame f ≤ b ∧ b < frameBase (pteDie f) (pteSram f) + pteFrame f + 65536) →
            t.mem.byte b = s.mem.byte b)) ∧
    (∀ at_ u, e.reported = false → e.toHost = false → e.kind ≠ 8 →
      s.walk e.part (winOf (localAddr e.va) == some .w3) (localAddr e.va) = .noTab at_ → s.takeFrame e.part = (u, none) →
      ∃ t, exec (.pageFaultResolve c k) s = .next t ∧ 2 ∈ t.dev.msix ∧ { e with reported := true } ∈ (t.portAt c).faults ∧ SameMem s t)

/-- R144: the frame taken is the entry at COUNT − 1 of the pool, a valid leaf of 64 KiB with L set and SO and IL clear, on an enabled die, and COUNT
falls by one. -/
def Rules.FramesTaken : Prop :=
  ∀ (s t : State) (p : Fin 8) (f : Word), s.takeFrame p = (t, some f) →
    (t.partAt p).regs.fpcnt.toNat = (s.partAt p).regs.fpcnt.toNat % 2 ^ 16 - 1 ∧ (s.partAt p).regs.fpcnt.toNat % 2 ^ 16 ≠ 0 ∧
      pteV f = true ∧ pteL f = true ∧ s.leafOk f 65536 = true ∧ pteSo f = false ∧ pteIl f = false ∧ t.mem = s.mem ∧ t.slots = s.slots ∧
      ∃ pl, s.locate s.deviceCore p ((s.partAt p).regs.fpbase + .ofNat 64 (8 * ((s.partAt p).regs.fpcnt.toNat % 2 ^ 16 - 1))) 8 0 =
        .ok (.here pl) ∧ f = .ofNat 64 (s.mem.read pl.phys 8)

/-- R121: an idle turn spills the oldest window of the lowest slot of its core that holds three or more, where it lies in the core's own store:
64 bytes at WSP − 64. With no such slot it does nothing. -/
def Rules.IdleTurnsSpill : Prop :=
  ∀ (s : State) (core : Nat),
    ((∀ k, k < 16 → (s.slotAt (core * 16 + k)).windows.length < 3) → exec (.idleSpill core) s = .next s) ∧
    (∀ n w u pl, n / 16 = core → (∀ k, core * 16 ≤ k → k < n → (s.slotAt k).windows.length < 3) →
      3 ≤ (s.slotAt n).windows.length → (s.slotAt n).run ≠ .free → s.onDevice ((s.slotAt n).ctx.wsp - 64) = true →
      winOf (localAddr ((s.slotAt n).ctx.wsp - 64)) = some .w1 → localAddr ((s.slotAt n).ctx.wsp - 64) / 2 ^ 19 % 2 ^ 11 = core →
      (s.slotAt n).windows.getLast? = some w → u = { s with cur := n } →
      u.access ((s.slotAt n).ctx.wsp - 64) 64 { w := true, n := true } = .ok (.here pl) → s.badAt pl.phys = false →
      ∃ t, exec (.idleSpill core) s = .next t ∧ t.cur = s.cur ∧ (t.slotAt n).windows = (s.slotAt n).windows.dropLast ∧
        (t.slotAt n).ctx = { (s.slotAt n).ctx with wsp := (s.slotAt n).ctx.wsp - 64 } ∧ (∀ m, m ≠ n → t.slotAt m = s.slotAt m) ∧
        SameMemBut s t pl.phys 64 ∧ t.mem.read pl.phys 64 = windowImage w % 256 ^ 64)

/-! ## All instructions -/

/-- The least privilege of an instruction (R56); MFSR and MTSR need what the register they name asks for. -/
def needs : Instr → Nat
  | .mfsr _ _ n => ((regLevel n.toNat).map (·.1)).getD 0
  | .mtsr _ _ n => ((regLevel n.toNat).bind (·.2)).getD 0
  | .eret _ | .pginv .. | .idle _ | .circ .. | .slotsv .. | .slotld .. | .stopat .. | .rpub .. | .rret .. | .rcopy .. | .rstat .. => 1
  | .freqat .. => 2
  | _ => 0

/-- The system register that MFSR or MTSR names is assigned (R376); another word names none. -/
def assigned : Instr → Bool
  | .mfsr _ _ n | .mtsr _ _ n => (regLevel n.toNat).isSome
  | _ => true

/-- What R224 bars in a message handler. -/
def barredIn : Instr → Bool
  | .st .. | .stv .. | .spawn .. | .tnext _ | .twait .. | .inbox .. | .launch .. | .sleep .. | .yield _ | .rsv .. | .mwait .. | .bari ..
  | .bara .. | .bard .. | .barw .. | .mask .. | .padv .. | .hnew .. | .hdel .. | .rpub .. | .rret .. | .rcopy .. | .rmerge ..
  | .rstat .. | .tryPoint .. | .steal .. | .trun .. => true
  | _ => false

/-- R56: a word below its least privilege raises PRIV with the word. -/
def Rules.PrivilegeChecked : Prop :=
  ∀ (i : Instr) (w : Nat) (s : State), i.wf = true → encodeWord i = some w → s.slot.prog.word = none → s.ctx.priv < needs i → assigned i = true →
    exec i s = .next (s.trap 0x02 (.ofNat 64 w))

/-- R224: in a message handler, outside its supervisor handler, a barred word and the 257th issue raise HANDLER-LONG with the PC. -/
def Rules.HandlersLimited : Prop :=
  ∀ (i : Instr) (w : Nat) (s : State), i.wf = true → encodeWord i = some w → s.slot.prog.word = none → assigned i = true →
    needs i ≤ s.ctx.priv → s.slot.handler = true → s.slot.inh = false → (barredIn i = true ∨ 256 ≤ s.slot.hcount) →
    exec i s = .next (s.trap 0x1B s.ctx.pc)

/-- R55, R56, R127: a word whose guard fails writes nothing and goes on past itself, with the end check. -/
def Rules.GuardsHold : Prop :=
  ∀ (i : Instr) (w : Nat) (s : State), i.wf = true → encodeWord i = some w → s.slot.prog.word = none → assigned i = true →
    needs i ≤ s.ctx.priv → (s.slot.handler = true → s.slot.inh = false → barredIn i = false ∧ s.slot.hcount < 256) →
    guardHolds (.ofNat 16 (w / 2 ^ 28)) s = false →
    ∃ t, exec i s = .next t ∧ RegFrame s t [] [] ∧ t.ctx.pc = s.nextPc

/-- Every instruction and every event takes the machine to a next state: none faults and none is refused. -/
def Rules.AlwaysGoes : Prop := ∀ (i : Instr) (s : State), Goes (exec i s)

/-- Every step goes on; after a boot that failed (R406), with no event due, it only passes a cycle and no thread runs: here where nothing waits
at a port, in an arrival queue, in a completion's fault, in a review or for a page of the record ring, and no port has lost all its lanes. -/
def Rules.StepsGo : Prop :=
  ∀ s : State, Goes (step s) ∧
    (s.agenda = [] → s.dev.bootErr ≠ 0 → (∀ e ∈ s.ports, e.2.stalled = []) → (∀ e ∈ s.cores, e.2.arrivals = []) →
      (∀ p, (s.partAt p).completions = [] ∧ (s.partAt p).monarch.reviews = [] ∧ (s.partAt p).logw = []) → (∀ e ∈ s.dev.optics, e.2.dead = false) →
      ∃ t, step s = .next t ∧ t.cyc = s.cyc + 1 ∧ SameMem s t ∧ ∀ n, (t.slotAt n).ctx = (s.slotAt n).ctx)

/-- Every step keeps the memory canonical. -/
def Rules.StepsKeepMemory : Prop := ∀ s t : State, s.Inv → step s = .next t → t.Inv

/-! ## Words -/

/-- A well-formed instruction's word, or command, is read back as it. -/
def Rules.WordsRoundTrip : Prop :=
  ∀ (i : Instr) (n w : Nat), i.wf = true → encode i = some (n, w) → w < 2 ^ n ∧ decodeTableWord n w = some i

/-- A word that is read as an instruction is the word of that instruction, which is well formed (R56, R57). -/
def Rules.WordsAreOwn : Prop :=
  ∀ (w : Nat) (i : Instr), decode w = some i → i.wf = true ∧ encodeWord i = some w

/-- Words of the spec's own examples. -/
def Rules.WordsRead : Prop :=
  decode 0x01820020 = some (.movi 0 1 32) ∧ decode 0x00A83FFF = some (.addi 0 4 1 0x1FFF) ∧
  decode 0x012A6001 = some (.shli 0 5 3 1) ∧ decode 0x09800000 = some (.exit 0) ∧
  decode 0x07068DFD = some (.ld 0 3 4 .h true 0x1FD) ∧ decode 0x00268A43 = some (.lea 0 3 4 5 3) ∧
  decode 0x00868A22 = some (.sel 0 3 4 5 2) ∧ decode 0x461FFFFD = some (.br 4 0x1FFFFD) ∧ decode 0x06400002 = some (.ret 0) ∧
  decode 0x08400182 = some (.fenceRel 0 .dev) ∧ decode 0x09068001 = some (.mwait 0 3 4) ∧
  decode 0x098AEC07 = some (.spawn 0 5 7 6) ∧ decode 0x0DCC8A00 = some (.hnew 0 6 4 5) ∧ decode 0x0E028000 = some (.cpy 0 1 4) ∧
  decode 0x0F400005 = some (.trap 0 5) ∧ decode 0x0FC00000 = some (.eret 0) ∧ decode 0x0FC68001 = some (.segld 0 3 4) ∧
  decode 0x00000000 = none ∧ decode 0x01822020 = none ∧ decode 0x0F842002 = none ∧ decode 0x0DA28000 = none

/-- The state in which the thread of slot n has taken core c's turn (R18). -/
def State.turnTaken (s : State) (c n : Nat) : State :=
  let u : State := { s with turn := c + 1, cur := n }
  u.setSlot { u.slot with ready := u.cycles u.cluster + 4 }

/-- R54, R56, R69: with nothing due and no packet to arrive, the next turn's thread, which no word holds up, fetches the word at its PC, and the
step is that of the instruction which the word decodes to; a word that is none raises ILLEGAL-OP with it. -/
def Rules.StepRunsTheWord : Prop :=
  ∀ (s u : State) (c n w : Nat) (pl : Place), s.agenda = [] → s.dev.bootErr = 0 → s.arrivals = [] → s.nextTurn = some (c, some n) →
    (s.slotAt n).prog = {} → u = s.turnTaken c n → u.boundarySend = none → u.fetchAt = .ok (.here pl) →
    u.readAt u.ctx.pc pl 4 = .ok w → (∀ e ∈ u.slot.ahead, e.1 ≠ vline u.ctx.pc) →
    (∀ i, decode w = some i → ∃ l, step s = exec i (u.setSlot { u.slot with ahead := l })) ∧
    (decode w = none → ∃ l, step s = .next ((u.setSlot { u.slot with ahead := l }).trap 0x01 (.ofNat 64 w)))

/-- An event on the agenda is performed next, whatever else is due. -/
def Rules.StepRunsTheEvent : Prop :=
  ∀ (s : State) (n : Nat) (i : Instr) (r : List (Nat × Instr)), s.agenda = (n, i) :: r →
    step s = exec i { s with agenda := r, cur := n }

/-! ## Reset -/

/-- The machine right after reset: no partition is defined, its registers hold the values of R22, R91, R147, R156, R229, R348, R384, R391,
R392 and R409, and every port those of R414. -/
def Rules.ResetValues : Prop :=
  (∀ p : Fin 8, pdefV (State.reset.pdefOf p) = false) ∧ State.reset.devReg 0x040 = some 0 ∧ State.reset.devReg 0x043 = some 0 ∧
  State.reset.devReg 0x045 = some 3 ∧ State.reset.devReg 0x046 = some 0 ∧ State.reset.dev.budget = 2400 ∧
  (∀ (p : Fin 8) n, n ∈ [0x005, 0x016, 0x017, 0x018, 0x020, 0x021, 0x022, 0x023, 0x024, 0x027, 0x028, 0x029, 0x02A, 0x02C, 0x02D, 0x02E,
    0x02F, 0x030, 0x032, 0x034, 0x042] → State.reset.partReg p n = some 0) ∧
  (∀ p : Fin 8, State.reset.partReg p 0x025 = some 127 ∧ State.reset.partReg p 0x026 = some 16 ∧
    State.reset.partReg p 0x02B = some 4096 ∧ State.reset.partReg p 0x031 = some 0xFFFF0000 ∧
    State.reset.partReg p 0x033 = some 0x100010004) ∧
  (∀ n, (State.reset.slotAt n).run = .free) ∧ State.reset.net = [] ∧
  ∀ p, (State.reset.optic p).idlep = 1024 ∧ (State.reset.optic p).minlit = 0 ∧ (State.reset.optic p).wakeq = 256 ∧
    (State.reset.optic p).hsper = 4096 ∧ (State.reset.optic p).mtgt = 0x800 ∧ (State.reset.optic p).hband = 16

/-- The reset memory is canonical. -/
def Rules.ResetKeepsMemory : Prop := State.reset.Inv

/-! ## Encodings that rules give -/

/-- R113: the words of CMP and CMPI. -/
def Rules.CompareWords : Prop :=
  ∀ (g : Guard) (d : Pred) (a b : Reg) (c : Cond) (n : BitVec 13),
    encodeWord (.cmp g d a b c) =
      some (g.val * 2 ^ 28 + 0x04 * 2 ^ 21 + d.val * 2 ^ 17 + a.val * 2 ^ 13 + b.val * 2 ^ 9 + (0x010 + c.code)) ∧
    encodeWord (.cmpi g c d a n) =
      some (g.val * 2 ^ 28 + (0x10 + c.code) * 2 ^ 21 + d.val * 2 ^ 17 + a.val * 2 ^ 13 + n.toNat)

/-- R129, R130: the words of LEXIT and NOP. -/
def Rules.LoopWords : Prop :=
  ∀ g : Guard, encodeWord (.lexit g) = some (g.val * 2 ^ 28 + 0x06E00001) ∧ encodeWord (.nop g) = some (g.val * 2 ^ 28 + 0x06E00000)

/-- R373: the words of TRAP and BRK. -/
def Rules.TrapWords : Prop :=
  ∀ (g : Guard) (n : BitVec 13), encodeWord (.trap g n) = some (g.val * 2 ^ 28 + 0x0F400000 + n.toNat) ∧
    encodeWord (.brk g n) = some (g.val * 2 ^ 28 + 0x0F600000 + n.toNat)

/-- R55: what each guard means; 0001 is in no instruction. -/
def Rules.GuardMeanings : Prop :=
  (∀ s : State, guardHolds 0 s = true) ∧ (∀ w, w / 2 ^ 28 = 1 → decode w = none) ∧
  ∀ (s : State) (n : Pred), 1 ≤ n.val →
    guardHolds (.ofNat 16 (2 * n.val)) s = s.p n ∧ guardHolds (.ofNat 16 (2 * n.val + 1)) s = !s.p n

end Sys2Proof.Machine

/-! ## The statements -/

/-- Scalar instructions complete with the result of their rule, and change nothing else. A trap that finds no room in the trail leaves every
destination as it was by log entry 75. -/
def Obligations.ScalarResults : Prop :=
    Sys2Proof.Machine.Rules.ScalarResults

/-- Comparisons and predicate operations: results, conditions, counts and words. -/
def Obligations.PredicatesAndConditions : Prop :=
    Sys2Proof.Machine.Rules.PredicateResults ∧
    Sys2Proof.Machine.Rules.ConditionMeanings ∧
    Sys2Proof.Machine.Rules.ZeroCounts ∧
    Sys2Proof.Machine.Rules.CompareWords

/-- Division: the queue of the divider, its 16 cycles, and the quotient and remainder. -/
def Obligations.Divisions : Prop :=
    Sys2Proof.Machine.Rules.DivisionValues ∧
    Sys2Proof.Machine.Rules.DivisionStarts ∧
    Sys2Proof.Machine.Rules.DividerDone

/-- A register write over an open choice point is recorded in the trail. -/
def Obligations.ScalarTrail : Prop :=
    Sys2Proof.Machine.Rules.ScalarTrail

/-- Branches, jumps and jump tables. -/
def Obligations.TransfersOfControl : Prop :=
    Sys2Proof.Machine.Rules.Transfers ∧
    Sys2Proof.Machine.Rules.JumpTableDefault ∧
    Sys2Proof.Machine.Rules.JumpTableTaken

/-- Calls and returns rotate the register windows. A spill that would go to W0 or W4, and one to another device, are those of log entry 11,
and a reload in W4 that of log entry 123. -/
def Obligations.CallsAndReturns : Prop :=
    Sys2Proof.Machine.Rules.Calls ∧
    Sys2Proof.Machine.Rules.Returns ∧
    Sys2Proof.Machine.Rules.ReturnEscapes ∧
    Sys2Proof.Machine.Rules.LoopsPopped

/-- LOOP and LOOPI, the end check, LEXIT and NOP. -/
def Obligations.HardwareLoops : Prop :=
    Sys2Proof.Machine.Rules.Loops ∧
    Sys2Proof.Machine.Rules.EndCheck ∧
    Sys2Proof.Machine.Rules.LoopExitAndNop ∧
    Sys2Proof.Machine.Rules.LoopWords

/-- Instant-domain loads: the version they see, and where they wait. REL + n or NOW + n outside the range of an instant wraps by log entry
96. -/
def Obligations.InstantLoads : Prop :=
    Sys2Proof.Machine.Rules.InstantLoads ∧
    Sys2Proof.Machine.Rules.InstantLoadWaits ∧
    Sys2Proof.Machine.Rules.VersionChosen ∧
    Sys2Proof.Machine.Rules.PendingBytes

/-- Instant-domain stores: provisional entries and how they are sent. REL + n or NOW + n outside the range of an instant wraps by log entry
96. -/
def Obligations.InstantStores : Prop :=
    Sys2Proof.Machine.Rules.ProvisionalStores ∧
    Sys2Proof.Machine.Rules.StoresSent ∧
    Sys2Proof.Machine.Rules.StoreSequenceEnds

/-- A store at its home port, and SCANCEL. -/
def Obligations.StoresArriveAndCancel : Prop :=
    Sys2Proof.Machine.Rules.StoreArrivals ∧
    Sys2Proof.Machine.Rules.CancelsWithdraw

/-- Now-domain loads and stores, with their ordered forms. That LDAQ drops the words fetched ahead is log entry 109. -/
def Obligations.NowAccesses : Prop :=
    Sys2Proof.Machine.Rules.NowLoads ∧
    Sys2Proof.Machine.Rules.NowStores ∧
    Sys2Proof.Machine.Rules.NowStoreEscapes ∧
    Sys2Proof.Machine.Rules.AcquireLoads ∧
    Sys2Proof.Machine.Rules.ReleaseStores

/-- A remote request is served at its home, and its reply ends the instruction. That a reply to a write purges the router's entry is log
entry 10. -/
def Obligations.RequestsAndReplies : Prop :=
    Sys2Proof.Machine.Rules.RequestsServed ∧
    Sys2Proof.Machine.Rules.RepliesTaken

/-- LKUP, TAGIN and TAGOUT. -/
def Obligations.TagTables : Prop :=
    Sys2Proof.Machine.Rules.TagLookups ∧
    Sys2Proof.Machine.Rules.TagChanges ∧
    Sys2Proof.Machine.Rules.TagTraps

/-- FENCE, STSYNC and the drain packets. That tokens go only to routers which an invalidation is on its way to is log entry 12. -/
def Obligations.FencesAndDrains : Prop :=
    Sys2Proof.Machine.Rules.Fences ∧
    Sys2Proof.Machine.Rules.FenceWaits ∧
    Sys2Proof.Machine.Rules.DrainPackets ∧
    Sys2Proof.Machine.Rules.StoreSync

/-- RSV, RLS and RLSN: queues, holders, misuse and abandonment. An abandon record of a word whose line fails its check carries 0 by log
entry 106; that RSV drops the words fetched ahead is log entry 109, and a release with count 0 log entry 125. -/
def Obligations.Reservations : Prop :=
    Sys2Proof.Machine.Rules.Reserves ∧
    Sys2Proof.Machine.Rules.ReserveTraps ∧
    Sys2Proof.Machine.Rules.Releases ∧
    Sys2Proof.Machine.Rules.ReleaseMisuse ∧
    Sys2Proof.Machine.Rules.ReservationEvents

/-- LAMO: one read-modify-write of the core's own store. -/
def Obligations.LocalAtomics : Prop :=
    Sys2Proof.Machine.Rules.LocalAtomics ∧
    Sys2Proof.Machine.Rules.AtomicValues

/-- MON, MOFF and MWAIT, and the events that fire them. That an entry is found by the virtual line is log entry 100. -/
def Obligations.Monitors : Prop :=
    Sys2Proof.Machine.Rules.Monitors ∧
    Sys2Proof.Machine.Rules.MonitorWaits ∧
    Sys2Proof.Machine.Rules.MonitorEvents

/-- BARI, BARA, BARD and BARW. That a context counts as configured from its first registration at a router on is log entry 101, that BARW
drops the words fetched ahead log entry 109, and what lost tasks do to a wait log entry 118, and an arrival from a core that registered
nothing there log entry 119. -/
def Obligations.Barriers : Prop :=
    Sys2Proof.Machine.Rules.BarrierRegisters ∧
    Sys2Proof.Machine.Rules.BarrierMisuse ∧
    Sys2Proof.Machine.Rules.BarrierArrives ∧
    Sys2Proof.Machine.Rules.BarrierWaits

/-- Barrier packets: registration, arrivals and openings. What a leaf does with another scope's registration is log entry 101, and when a
context is freed log entry 102. -/
def Obligations.BarrierPackets : Prop :=
    Sys2Proof.Machine.Rules.BarrierPackets ∧
    Sys2Proof.Machine.Rules.BarrierArrivals ∧
    Sys2Proof.Machine.Rules.BarrierTurns ∧
    Sys2Proof.Machine.Rules.BarrierCompletions

/-- EXIT, TNEXT, YIELD, SLEEP, and IDLE with what ends it. -/
def Obligations.ThreadEndsAndWaits : Prop :=
    Sys2Proof.Machine.Rules.ThreadEnds ∧
    Sys2Proof.Machine.Rules.TimedWaits ∧
    Sys2Proof.Machine.Rules.TimedWaitsEnd ∧
    Sys2Proof.Machine.Rules.Idles ∧
    Sys2Proof.Machine.Rules.IdleWakes

/-- ANCHOR, ROAM, WHO, MIGR and arrivals. That a thread asks before it migrates to another device is log entry 34. -/
def Obligations.ThreadPlaces : Prop :=
    Sys2Proof.Machine.Rules.AnchorAndRoam ∧
    Sys2Proof.Machine.Rules.WhoGives ∧
    Sys2Proof.Machine.Rules.Migrates ∧
    Sys2Proof.Machine.Rules.Arrivals

/-- SPAWN and SEND. -/
def Obligations.SpawnsAndSends : Prop :=
    Sys2Proof.Machine.Rules.Spawns ∧
    Sys2Proof.Machine.Rules.Sends ∧
    Sys2Proof.Machine.Rules.HeaderFields

/-- INBOX, TWAIT and IPEEK, and the order of messages. That INBOX and TWAIT drop the words fetched ahead is log entry 109. -/
def Obligations.MessagesTaken : Prop :=
    Sys2Proof.Machine.Rules.MessagesTaken ∧
    Sys2Proof.Machine.Rules.MessageOrder ∧
    Sys2Proof.Machine.Rules.InboxPeeks

/-- Messages arrive, start handlers and wake threads. -/
def Obligations.MessagesDelivered : Prop :=
    Sys2Proof.Machine.Rules.MessagesDelivered ∧
    Sys2Proof.Machine.Rules.HandlerStarts ∧
    Sys2Proof.Machine.Rules.WakesAndRetries

/-- LAUNCH, the launches taken and the crews that start. How the writes made before a launch was queued are told is log entry 32, the order
of its statuses log entry 98, how long heavy crews wait log entry 36; that LAUNCH.w's thread is parked in the partition is log entry 30. -/
def Obligations.LaunchesAndCrews : Prop :=
    Sys2Proof.Machine.Rules.Launches ∧
    Sys2Proof.Machine.Rules.LaunchesTaken ∧
    Sys2Proof.Machine.Rules.CrewsStart

/-- Vector instructions, lane by lane, and conversions. That the approximated functions are rounded from 400 bits is log entry 15. -/
def Obligations.VectorLanes : Prop :=
    Sys2Proof.Machine.Rules.LaneResults ∧
    Sys2Proof.Machine.Rules.Conversions

/-- Dot products and reductions, and how every result is rounded. -/
def Obligations.VectorSums : Prop :=
    Sys2Proof.Machine.Rules.DotProducts ∧
    Sys2Proof.Machine.Rules.Reductions ∧
    Sys2Proof.Machine.Rules.FloatCodes ∧
    Sys2Proof.Machine.Rules.FloatsRounded ∧
    Sys2Proof.Machine.Rules.IntegersRounded ∧
    Sys2Proof.Machine.Rules.RoundingsDraw

/-- Vector registers, VL and k registers, and vector loads and stores. That VLDX and VSTX make one lane at an issue is log entry 40. -/
def Obligations.VectorAccesses : Prop :=
    Sys2Proof.Machine.Rules.LaneMoves ∧
    Sys2Proof.Machine.Rules.VectorLoads ∧
    Sys2Proof.Machine.Rules.VectorStores ∧
    Sys2Proof.Machine.Rules.StridedLanes

/-- HNEW, HDEL and TSTAT. -/
def Obligations.TileHandles : Prop :=
    Sys2Proof.Machine.Rules.HandlesAsked ∧
    Sys2Proof.Machine.Rules.HandlesMade ∧
    Sys2Proof.Machine.Rules.DescriptorValues ∧
    Sys2Proof.Machine.Rules.HandlesDeleted ∧
    Sys2Proof.Machine.Rules.TileStatus

/-- TRUN, the list's end, MREP and MZERO. That the whole list is decoded at acceptance is log entry 92, that it is read by whole lines log
entry 99, and what TSTATUS holds of a refused list log entry 37. -/
def Obligations.TileLists : Prop :=
    Sys2Proof.Machine.Rules.ListsAccepted ∧
    Sys2Proof.Machine.Rules.ListFormats ∧
    Sys2Proof.Machine.Rules.BodiesRepeat ∧
    Sys2Proof.Machine.Rules.ListsEnd ∧
    Sys2Proof.Machine.Rules.TilesZeroed

/-- MMA and MSCALE: slice sums, scales, bursts. Which partition's burst the arbiter takes first is log entry 107, what a pool short of a
refill gives log entry 108, and the cycles between commands are log entry 42; MSCL of extents above 128 is log entry 126, and that TRUN's
return drops the words fetched ahead log entry 109. -/
def Obligations.TileProducts : Prop :=
    Sys2Proof.Machine.Rules.TilesScaled ∧
    Sys2Proof.Machine.Rules.SlicePartials ∧
    Sys2Proof.Machine.Rules.Multiplies ∧
    Sys2Proof.Machine.Rules.BurstsWait

/-- MLDB, MLDA and MST, and the token ring. Which line is read next is log entry 41; where MST takes its ordinal is log entry 38, and what
its roundings count by log entry 97. -/
def Obligations.TileTransfers : Prop :=
    Sys2Proof.Machine.Rules.TileLinesRead ∧
    Sys2Proof.Machine.Rules.MacrosLoaded ∧
    Sys2Proof.Machine.Rules.RowsLoaded ∧
    Sys2Proof.Machine.Rules.TilesStored ∧
    Sys2Proof.Machine.Rules.StoresBegin ∧
    Sys2Proof.Machine.Rules.TokenHops

/-- CPY, CPYR, FILL and COLL: what is accepted and what is refused. A block on another device is read by request by log entry 44, and a
communicator's record there by log entry 48; the order of the checks is that of log entry 45, of the handles' that of log entry 127, and the
causes of a record or block out of range those of log entry 121. -/
def Obligations.EngineIssues : Prop :=
    Sys2Proof.Machine.Rules.TileElements ∧
    Sys2Proof.Machine.Rules.CopiesAccepted ∧
    Sys2Proof.Machine.Rules.CopiesRefused ∧
    Sys2Proof.Machine.Rules.CollectivesAccepted

/-- Engine commands at work: elements, conversion, sums and completions. That an element is read, converted and written before the next is
log entry 47, TVAL of a failed piece log entry 46, and the site of a rounding log entry 97. -/
def Obligations.EngineWork : Prop :=
    Sys2Proof.Machine.Rules.CommandsComplete ∧
    Sys2Proof.Machine.Rules.ElementsCopied ∧
    Sys2Proof.Machine.Rules.ElementConversion ∧
    Sys2Proof.Machine.Rules.CollectiveSteps ∧
    Sys2Proof.Machine.Rules.CollectiveSums

/-- MASK: acceptance, refusals and the walk. TVAL 0 of a malformed entry met in progress is log entry 51. -/
def Obligations.GrammarMasks : Prop :=
    Sys2Proof.Machine.Rules.MasksAccepted ∧
    Sys2Proof.Machine.Rules.MasksRefused ∧
    Sys2Proof.Machine.Rules.MaskLinesChecked ∧
    Sys2Proof.Machine.Rules.ImageHeaders ∧
    Sys2Proof.Machine.Rules.MaskWalks

/-- PADV, SAMPLE and ARGMX. Where PADV reads an image's header is log entry 122. -/
def Obligations.GrammarTokens : Prop :=
    Sys2Proof.Machine.Rules.AutomatonSteps ∧
    Sys2Proof.Machine.Rules.TokensAdvanced ∧
    Sys2Proof.Machine.Rules.TokensChosen ∧
    Sys2Proof.Machine.Rules.DrawsPick

/-- TRY, FAIL, CUT, CDEPTH and COMMIT. That an entry of g8 to g15 is undone only in the window it wrote is log entry 111, and that every
line undone is checked before the first write log entry 117; when discards are raised is log entry 25. -/
def Obligations.ChoicePoints : Prop :=
    Sys2Proof.Machine.Rules.PointsOpen ∧
    Sys2Proof.Machine.Rules.FailsBack ∧
    Sys2Proof.Machine.Rules.ArenaUndone ∧
    Sys2Proof.Machine.Rules.FailsEnd ∧
    Sys2Proof.Machine.Rules.Cuts ∧
    Sys2Proof.Machine.Rules.DepthAndCommit

/-- STEAL and how a thief ends. How the victim's arena is copied and undone is log entries 52 and 111, and that a kill forgets what the
thread waits for log entry 53. -/
def Obligations.Thefts : Prop :=
    Sys2Proof.Machine.Rules.Steals ∧
    Sys2Proof.Machine.Rules.VictimsFound ∧
    Sys2Proof.Machine.Rules.ThievesEnd

/-- ECNT, RLOOK, RPUB and RRET. How the thread waits for Monarch's page is log entry 54, and what a review does with an entry that fails a
check log entry 57. -/
def Obligations.Replicas : Prop :=
    Sys2Proof.Machine.Rules.CountsPosted ∧
    Sys2Proof.Machine.Rules.ExpertsChecked ∧
    Sys2Proof.Machine.Rules.ReplicasFound ∧
    Sys2Proof.Machine.Rules.EntriesPublished

/-- RCOPY, RMERGE and RSTAT. That RSTAT makes two writes of eight bytes is log entry 56, and RMERGE's capacity log entry 55. -/
def Obligations.ReplicaCopies : Prop :=
    Sys2Proof.Machine.Rules.CopiesBegun ∧
    Sys2Proof.Machine.Rules.CopiesMade ∧
    Sys2Proof.Machine.Rules.MergesAccepted ∧
    Sys2Proof.Machine.Rules.MergesMade ∧
    Sys2Proof.Machine.Rules.RecordsTaken

/-- Taking an exception, TRAP and BRK, and ERET. -/
def Obligations.Exceptions : Prop :=
    Sys2Proof.Machine.Rules.TrapsTaken ∧
    Sys2Proof.Machine.Rules.SoftwareTraps ∧
    Sys2Proof.Machine.Rules.ExceptionReturns ∧
    Sys2Proof.Machine.Rules.TrapWords

/-- MFSR and MTSR, and when a partition register changes. That a write to a register whose writes are ignored takes no privilege is log
entry 59, the bits kept log entry 60, and which waiting write a write at once supersedes log entry 58. -/
def Obligations.SystemRegisters : Prop :=
    Sys2Proof.Machine.Rules.RegistersRead ∧
    Sys2Proof.Machine.Rules.RegistersWritten ∧
    Sys2Proof.Machine.Rules.PartitionRegistersWritten ∧
    Sys2Proof.Machine.Rules.WritesEffective

/-- SEGLD and PGINV. That PGINV acts at every port in one step is log entry 65. -/
def Obligations.SegmentsAndPages : Prop :=
    Sys2Proof.Machine.Rules.SegmentEntries ∧
    Sys2Proof.Machine.Rules.SegmentsLoaded ∧
    Sys2Proof.Machine.Rules.PagesInvalidated

/-- Page faults resolved, and idle turns. That a fault keeps HAMODE.PAGH as it arose is log entry 112, and where an idle turn spills log
entry 11. -/
def Obligations.PageFaults : Prop :=
    Sys2Proof.Machine.Rules.PagesResolved ∧
    Sys2Proof.Machine.Rules.FramesTaken ∧
    Sys2Proof.Machine.Rules.IdleTurnsSpill

/-- CIRC, and the lanes of a port. That a CIRC's completion keeps SEQ, and what TUNE and PARK do to lanes that are not lit, is log entry 66;
lanes are ready when their event comes (log entry 6). -/
def Obligations.CircuitsAndLanes : Prop :=
    Sys2Proof.Machine.Rules.CircuitsAsked ∧
    Sys2Proof.Machine.Rules.PortCommands ∧
    Sys2Proof.Machine.Rules.LanesLit ∧
    Sys2Proof.Machine.Rules.CircuitsComplete ∧
    Sys2Proof.Machine.Rules.LanesParkAndWake

/-- SLOTSV, SLOTLD, STOPAT, and the stop and resume of a partition. What is kept beside a save area is log entry 14, the order of a stop's
parts log entry 68, that held slots count as free log entry 67, what STOPAT does without a job device 0 log entry 63, and that a failing
line of an area is tested first log entry 117, and an area on another device log entry 128. -/
def Obligations.SaveAreasAndStops : Prop :=
    Sys2Proof.Machine.Rules.SlotsSaved ∧
    Sys2Proof.Machine.Rules.SlotsLoaded ∧
    Sys2Proof.Machine.Rules.StopsAsked ∧
    Sys2Proof.Machine.Rules.PartitionStops ∧
    Sys2Proof.Machine.Rules.FlushTokens ∧
    Sys2Proof.Machine.Rules.PartitionResumes

/-- The partition counter, FREQAT, regions and power. MEAS is an opaque measurement (log entry 18); that later arrivals win among equal
ordinals is log entry 70, that a line makes one version at a step log entry 104, and that an elastic step looks at this device alone log
entry 69. -/
def Obligations.Counters : Prop :=
    Sys2Proof.Machine.Rules.CounterSteps ∧
    Sys2Proof.Machine.Rules.TiesOrdered ∧
    Sys2Proof.Machine.Rules.ElasticSteps ∧
    Sys2Proof.Machine.Rules.Frequencies ∧
    Sys2Proof.Machine.Rules.StretchesAndDies ∧
    Sys2Proof.Machine.Rules.PoolsRefilled

/-- Flits sent, received and replayed. A thread takes three flits and every other transfer one (log entry 17), a queued transfer keeps its
channel by log entry 81, and the cluster of a fibre port is an opaque constant (log entry 94). -/
def Obligations.Flits : Prop :=
    Sys2Proof.Machine.Rules.FlitsSent ∧
    Sys2Proof.Machine.Rules.FlitsReceived ∧
    Sys2Proof.Machine.Rules.FlitsInOrder ∧
    Sys2Proof.Machine.Rules.FlitsReplayed

/-- Heaters, failures of lanes and channels, fabric records, the connection table. Which flits a failed lane had not delivered is left to
the state's choices (log entry 4), monitor readings are opaque (log entries 18 and 113), the spare's code and channel are log entry 72,
packets of no known die are never blocked (log entry 73), and what waited under FLTH = 0 goes on waiting (log entry 112). -/
def Obligations.FabricFaults : Prop :=
    Sys2Proof.Machine.Rules.HeatersServed ∧
    Sys2Proof.Machine.Rules.LanesFail ∧
    Sys2Proof.Machine.Rules.ChannelsFail ∧
    Sys2Proof.Machine.Rules.LockLost ∧
    Sys2Proof.Machine.Rules.FabricRecords ∧
    Sys2Proof.Machine.Rules.ConnectionsCommitted

/-- Host register writes, kicks, records, resumes and frames. CFGLOG's OFF and the WHY codes of queue registers are log entries 78 and 80,
an unlisted offset log entry 110, and that a removed record gives no other one log entry 77. -/
def Obligations.HostRegisters : Prop :=
    Sys2Proof.Machine.Rules.HostWrites ∧
    Sys2Proof.Machine.Rules.Kicks ∧
    Sys2Proof.Machine.Rules.CompletionQueueReads ∧
    Sys2Proof.Machine.Rules.HostInvalidates ∧
    Sys2Proof.Machine.Rules.RecordsRemoved ∧
    Sys2Proof.Machine.Rules.ResumesAsked ∧
    Sys2Proof.Machine.Rules.FramesAdded

/-- A write of PDEF makes or dissolves a partition. That PDEF's checks hold for every write is log entry 61, and what a creation keeps and a
dissolve discards log entry 62. -/
def Obligations.PartitionsMadeAndDissolved : Prop :=
    Sys2Proof.Machine.Rules.PartitionsMade ∧
    Sys2Proof.Machine.Rules.PartitionsDissolved

/-- Key loads, attestation and cold reset. The values of digests and keys are opaque (log entry 7), the key block is read when its load ends
(log entry 83), BOOTST's step is that of log entry 84, and cold reset clears memory by log entry 3. -/
def Obligations.KeysAndBoot : Prop :=
    Sys2Proof.Machine.Rules.KeysLoad ∧
    Sys2Proof.Machine.Rules.Attests ∧
    Sys2Proof.Machine.Rules.ColdResets

/-- Host reads, writes and atomics. HMLOG for an undefined partition is log entry 82, the refusal of a line that fails its check log entry
85, and that of an atomic to W4 log entry 105. -/
def Obligations.HostMemory : Prop :=
    Sys2Proof.Machine.Rules.HostReads ∧
    Sys2Proof.Machine.Rules.HostRefusals ∧
    Sys2Proof.Machine.Rules.HostStores ∧
    Sys2Proof.Machine.Rules.HostAtomics

/-- Guards, privilege and the limits of a message handler, for every word. -/
def Obligations.GuardsAndPrivilege : Prop :=
    Sys2Proof.Machine.Rules.GuardMeanings ∧
    Sys2Proof.Machine.Rules.GuardsHold ∧
    Sys2Proof.Machine.Rules.PrivilegeChecked ∧
    Sys2Proof.Machine.Rules.HandlersLimited

/-- Every instruction and every step answers a next state; after a failed boot no thread runs. That a step's work is an agenda, an arrival,
a turn or a cycle is the model's own order (log entry 4). -/
def Obligations.EveryInstructionGoesOn : Prop :=
    Sys2Proof.Machine.Rules.AlwaysGoes ∧
    Sys2Proof.Machine.Rules.StepsGo

/-- Every step keeps the memory in its canonical form. The canonical list form of the memory is the model's own (log entry 3); what it
stands for is the memory of R16 and R17. -/
def Obligations.StepsKeepTheMemoryCanonical : Prop :=
    Sys2Proof.Machine.Rules.StepsKeepMemory

/-- Decoding the word of a well-formed instruction gives it back, and a word read is its instruction's own. -/
def Obligations.WordsRoundTrip : Prop :=
    Sys2Proof.Machine.Rules.WordsRoundTrip ∧
    Sys2Proof.Machine.Rules.WordsAreOwn

/-- The decoder reads words that the spec writes out. -/
def Obligations.SpecWordsAreRead : Prop :=
    Sys2Proof.Machine.Rules.WordsRead

/-- A step is that of the word at the PC of the thread whose turn it is. That what is due is performed before a turn, and a packet before
both, is the model's choice (log entry 4); the lines kept as fetched ahead are that of log entry 5. -/
def Obligations.StepRunsTheDecodedWord : Prop :=
    Sys2Proof.Machine.Rules.StepRunsTheWord ∧
    Sys2Proof.Machine.Rules.StepRunsTheEvent

/-- What the machine holds right after reset. That no other packet, thread or memory byte is there at reset, and the values that no rule
gives, are the model's choices (log entries 1 to 3). -/
def Obligations.ResetState : Prop :=
    Sys2Proof.Machine.Rules.ResetValues ∧
    Sys2Proof.Machine.Rules.ResetKeepsMemory
end

