-- ==== Sys2Proof/Laws/Memory.lean ====
section
/-! SUPPORT. Memory: a read after a write, what a write leaves alone, and that every memory operation keeps the canonical
form. -/

namespace Sys2Proof.Machine

/-! ## One byte -/

theorem Mem.byte_above (n : Nat) (m : Mem) {k : Nat} (h : n < k) : (Mem.above n m).byte k = m.byte k := by
  induction m with
  | nil => rfl
  | cons e r ih =>
    obtain ⟨a, v⟩ := e
    unfold Mem.above
    split
    · rw [ih, Mem.byte, if_neg (by omega), if_neg (by omega)]
    · rfl

theorem Mem.byte_above_low (n : Nat) (m : Mem) {k : Nat} (h : k ≤ n) : (Mem.above n m).byte k = unlisted := by
  induction m with
  | nil => rfl
  | cons e r ih =>
    obtain ⟨a, v⟩ := e
    unfold Mem.above
    split
    · exact ih
    · rw [Mem.byte, if_pos (by omega)]

@[simp] theorem Mem.byte_put_same (m : Mem) (n : Nat) (x : Byte) : (m.put n x).byte n = x := by
  induction m with
  | nil => by_cases h : x = unlisted <;> simp [Mem.put, Mem.byte, h]
  | cons e r ih =>
    obtain ⟨k, v⟩ := e
    unfold Mem.put
    split
    · split <;> simp_all [Mem.byte]
    · split
      · split
        · simp_all [Mem.byte_above_low]
        · simp [Mem.byte]
      · rw [Mem.byte, if_neg (by omega), if_neg (by omega), ih]

theorem Mem.byte_put_ne (m : Mem) {n a : Nat} (x : Byte) (h : a ≠ n) : (m.put n x).byte a = m.byte a := by
  induction m with
  | nil => by_cases hx : x = unlisted <;> simp [Mem.put, Mem.byte, hx, h]
  | cons e r ih =>
    obtain ⟨k, v⟩ := e
    unfold Mem.put
    split
    · split
      · rfl
      · simp only [Mem.byte, if_neg h]
        split
        · rw [if_pos (by omega)]
        · rfl
    · split
      · next h1 h2 =>
        subst h2
        split
        · rcases Nat.lt_or_ge n a with ha | ha
          · rw [Mem.byte_above _ _ ha, Mem.byte, if_neg (by omega), if_neg h]
          · rw [Mem.byte_above_low _ _ ha, Mem.byte, if_pos (by omega)]
        · simp only [Mem.byte, if_neg h]
      · simp only [Mem.byte, ih]

/-! ## The canonical form -/

/-- Every listed address is above `n`. -/
def Mem.over (n : Nat) : Mem → Bool
  | [] => true
  | (k, _) :: _ => decide (n < k)

theorem Mem.wf_cons (k : Nat) (v : Byte) (r : Mem) :
    Mem.wf ((k, v) :: r) = (v != unlisted && Mem.over k r && Mem.wf r) := by
  cases r with
  | nil => simp [Mem.wf, Mem.over]
  | cons e r => obtain ⟨a, w⟩ := e; rfl

theorem Mem.over_above (n : Nat) (m : Mem) : (Mem.above n m).over n = true := by
  induction m with
  | nil => rfl
  | cons e r ih =>
    obtain ⟨k, v⟩ := e
    unfold Mem.above
    split
    · exact ih
    · simp only [Mem.over, decide_eq_true_eq]; omega

theorem Mem.wf_above (n : Nat) (m : Mem) (h : m.wf = true) : (Mem.above n m).wf = true := by
  induction m with
  | nil => rfl
  | cons e r ih =>
    obtain ⟨k, v⟩ := e
    unfold Mem.above
    split
    · rw [Mem.wf_cons] at h
      simp only [Bool.and_eq_true] at h
      exact ih h.2
    · exact h

theorem Mem.over_put {k n : Nat} (m : Mem) (x : Byte) (h : m.over k = true) (hk : k < n) : (m.put n x).over k = true := by
  cases m with
  | nil => by_cases hx : x = unlisted <;> simp [Mem.put, Mem.over, hx, hk]
  | cons e r =>
    obtain ⟨a, v⟩ := e
    simp only [Mem.over, decide_eq_true_eq] at h
    unfold Mem.put
    split
    · split <;> simp [Mem.over, h, hk]
    · split
      · next h1 h2 =>
        split
        · have := Mem.over_above n r
          generalize Mem.above n r = q at this
          cases q with
          | nil => rfl
          | cons f q => obtain ⟨b, w⟩ := f; simp only [Mem.over, decide_eq_true_eq] at *; omega
        · simp [Mem.over, hk]
      · simp [Mem.over, h]

/-- Writing a byte keeps the canonical form. -/
theorem Mem.wf_put (m : Mem) (n : Nat) (x : Byte) (h : m.wf = true) : (m.put n x).wf = true := by
  induction m with
  | nil => by_cases hx : x = unlisted <;> simp [Mem.put, Mem.wf, hx]
  | cons e r ih =>
    obtain ⟨k, v⟩ := e
    have h' := h
    rw [Mem.wf_cons] at h'
    simp only [Bool.and_eq_true] at h'
    unfold Mem.put
    split
    · next hlt =>
      split
      · exact h
      · next hx =>
        rw [Mem.wf_cons, h]
        simp [Mem.over, hlt, hx]
    · split
      · next h1 h2 =>
        subst h2
        split
        · exact Mem.wf_above _ _ h'.2
        · next hx =>
          rw [Mem.wf_cons, h'.2, h'.1.2]
          simp [hx]
      · rw [Mem.wf_cons, ih h'.2, Mem.over_put r x h'.1.2 (by omega), h'.1.1]
        rfl

theorem Mem.wf_write (m : Mem) (a n x : Nat) (h : m.wf = true) : (m.write a n x).wf = true := by
  induction n generalizing m a x with
  | zero => exact h
  | succ n ih => exact ih _ _ _ (Mem.wf_put m a _ h)

theorem Mem.wf_writeMasked (m : Mem) (a n mask x : Nat) (h : m.wf = true) : (m.writeMasked a n mask x).wf = true := by
  induction n generalizing m a x mask with
  | zero => exact h
  | succ n ih =>
    unfold Mem.writeMasked
    apply ih
    split
    · exact Mem.wf_put m a _ h
    · exact h

theorem Mem.over_filter {k : Nat} (m : Mem) (f : Host.Cell → Bool) (h : m.over k = true) (hw : m.wf = true) :
    Mem.over k (m.filter f) = true := by
  induction m generalizing k with
  | nil => rfl
  | cons e r ih =>
    obtain ⟨a, v⟩ := e
    rw [Mem.wf_cons] at hw
    simp only [Bool.and_eq_true] at hw
    simp only [Mem.over, decide_eq_true_eq] at h
    rw [List.filter_cons]
    split
    · simp [Mem.over, h]
    · apply ih _ hw.2
      have := hw.1.2
      cases r with
      | nil => rfl
      | cons f r => obtain ⟨b, w⟩ := f; simp only [Mem.over, decide_eq_true_eq] at *; omega

theorem Mem.wf_filter (m : Mem) (f : Host.Cell → Bool) (h : m.wf = true) : Mem.wf (m.filter f) = true := by
  induction m with
  | nil => rfl
  | cons e r ih =>
    obtain ⟨a, v⟩ := e
    rw [Mem.wf_cons] at h
    simp only [Bool.and_eq_true] at h
    rw [List.filter_cons]
    split
    · rw [Mem.wf_cons, ih h.2, Mem.over_filter r f h.1.2 h.2, h.1.1]
      rfl
    · exact ih h.2

theorem Mem.wf_clear (m : Mem) (a n : Nat) (h : m.wf = true) : (m.clear a n).wf = true := Mem.wf_filter m _ h

/-! ## Several bytes (R6) -/

/-- A write leaves every byte outside it. -/
theorem Mem.byte_write_out (m : Mem) {a n : Nat} (x : Nat) {b : Nat} (h : b < a ∨ a + n ≤ b) :
    (m.write a n x).byte b = m.byte b := by
  induction n generalizing m a x with
  | zero => rfl
  | succ n ih => rw [Mem.write, ih _ _ (by omega), Mem.byte_put_ne m _ (by omega)]

/-- A write sets each of its bytes. -/
theorem Mem.byte_write_in (m : Mem) (a : Nat) {n i : Nat} (x : Nat) (h : i < n) :
    (m.write a n x).byte (a + i) = .ofNat 8 (x / 256 ^ i) := by
  induction n generalizing m a x i with
  | zero => omega
  | succ n ih =>
    rw [Mem.write]
    cases i with
    | zero => rw [Mem.byte_write_out _ _ (by omega)]; simp
    | succ i =>
      have := ih (m.put a (.ofNat 8 x)) (a + 1) (x / 256) (i := i) (by omega)
      rw [show a + (i + 1) = a + 1 + i by omega, this, Nat.div_div_eq_div_mul, Nat.pow_succ, Nat.mul_comm]

theorem Mem.read_congr {m m' : Mem} {a n : Nat} (h : ∀ b, a ≤ b → b < a + n → m'.byte b = m.byte b) :
    m'.read a n = m.read a n := by
  induction n generalizing a with
  | zero => rfl
  | succ n ih => simp only [Mem.read]; rw [h a (by omega) (by omega), ih fun b h1 h2 => h b (by omega) (by omega)]

/-- A write leaves what a read elsewhere gives. -/
theorem Mem.read_write_out (m : Mem) {a n b k : Nat} (x : Nat) (h : b + k ≤ a ∨ a + n ≤ b) :
    (m.write a n x).read b k = m.read b k :=
  Mem.read_congr fun c _ _ => Mem.byte_write_out m x (by omega)

/-- A read after a write gives the value written. -/
theorem Mem.read_write_same (m : Mem) (a n x : Nat) : (m.write a n x).read a n = x % 256 ^ n := by
  induction n generalizing m a x with
  | zero => simp [Mem.read, Nat.mod_one]
  | succ n ih =>
    have h0 := Mem.byte_write_in m a (n := n + 1) (i := 0) x (by omega)
    simp only [Nat.add_zero, Nat.pow_zero, Nat.div_one] at h0
    rw [Mem.read, h0, Mem.write, ih, Nat.pow_succ, Nat.mul_comm (256 ^ n), Nat.mod_mul]
    simp

theorem Mem.byte_writeMasked_out (m : Mem) {a n : Nat} (mask x : Nat) {b : Nat} (h : b < a ∨ a + n ≤ b) :
    (m.writeMasked a n mask x).byte b = m.byte b := by
  induction n generalizing m a x mask with
  | zero => rfl
  | succ n ih =>
    rw [Mem.writeMasked, ih _ _ _ (by omega)]
    split
    · exact Mem.byte_put_ne m _ (by omega)
    · rfl

end Sys2Proof.Machine
end

