-- ==== Sys2Proof/Laws/State.lean ====
section
/-! SUPPORT. What each update of the state leaves as it was, one lemma per field per update, and what it changes. -/

namespace Sys2Proof.Machine

@[simp] theorem State.setSlotAt_mem (s : State) (n : Nat) (x : Slot) : (s.setSlotAt n x).mem = s.mem := rfl
@[simp] theorem State.setSlotAt_cores (s : State) (n : Nat) (x : Slot) : (s.setSlotAt n x).cores = s.cores := rfl
@[simp] theorem State.setSlotAt_ports (s : State) (n : Nat) (x : Slot) : (s.setSlotAt n x).ports = s.ports := rfl
@[simp] theorem State.setSlotAt_sharers (s : State) (n : Nat) (x : Slot) : (s.setSlotAt n x).sharers = s.sharers := rfl
@[simp] theorem State.setSlotAt_watchers (s : State) (n : Nat) (x : Slot) : (s.setSlotAt n x).watchers = s.watchers := rfl
@[simp] theorem State.setSlotAt_reservations (s : State) (n : Nat) (x : Slot) : (s.setSlotAt n x).reservations = s.reservations := rfl
@[simp] theorem State.setSlotAt_arrays (s : State) (n : Nat) (x : Slot) : (s.setSlotAt n x).arrays = s.arrays := rfl
@[simp] theorem State.setSlotAt_dies (s : State) (n : Nat) (x : Slot) : (s.setSlotAt n x).dies = s.dies := rfl
@[simp] theorem State.setSlotAt_copiers (s : State) (n : Nat) (x : Slot) : (s.setSlotAt n x).copiers = s.copiers := rfl
@[simp] theorem State.setSlotAt_collectors (s : State) (n : Nat) (x : Slot) : (s.setSlotAt n x).collectors = s.collectors := rfl
@[simp] theorem State.setSlotAt_groups (s : State) (n : Nat) (x : Slot) : (s.setSlotAt n x).groups = s.groups := rfl
@[simp] theorem State.setSlotAt_sphinxes (s : State) (n : Nat) (x : Slot) : (s.setSlotAt n x).sphinxes = s.sphinxes := rfl
@[simp] theorem State.setSlotAt_copies (s : State) (n : Nat) (x : Slot) : (s.setSlotAt n x).copies = s.copies := rfl
@[simp] theorem State.setSlotAt_merges (s : State) (n : Nat) (x : Slot) : (s.setSlotAt n x).merges = s.merges := rfl
@[simp] theorem State.setSlotAt_parts (s : State) (n : Nat) (x : Slot) : (s.setSlotAt n x).parts = s.parts := rfl
@[simp] theorem State.setSlotAt_dev (s : State) (n : Nat) (x : Slot) : (s.setSlotAt n x).dev = s.dev := rfl
@[simp] theorem State.setSlotAt_bad (s : State) (n : Nat) (x : Slot) : (s.setSlotAt n x).bad = s.bad := rfl
@[simp] theorem State.setSlotAt_net (s : State) (n : Nat) (x : Slot) : (s.setSlotAt n x).net = s.net := rfl
@[simp] theorem State.setSlotAt_refcnt (s : State) (n : Nat) (x : Slot) : (s.setSlotAt n x).refcnt = s.refcnt := rfl
@[simp] theorem State.setSlotAt_cyc (s : State) (n : Nat) (x : Slot) : (s.setSlotAt n x).cyc = s.cyc := rfl
@[simp] theorem State.setSlotAt_sub (s : State) (n : Nat) (x : Slot) : (s.setSlotAt n x).sub = s.sub := rfl
@[simp] theorem State.setSlotAt_agenda (s : State) (n : Nat) (x : Slot) : (s.setSlotAt n x).agenda = s.agenda := rfl
@[simp] theorem State.setSlotAt_inputs (s : State) (n : Nat) (x : Slot) : (s.setSlotAt n x).inputs = s.inputs := rfl
@[simp] theorem State.setSlotAt_choices (s : State) (n : Nat) (x : Slot) : (s.setSlotAt n x).choices = s.choices := rfl
@[simp] theorem State.setSlotAt_cur (s : State) (n : Nat) (x : Slot) : (s.setSlotAt n x).cur = s.cur := rfl
@[simp] theorem State.setSlotAt_turn (s : State) (n : Nat) (x : Slot) : (s.setSlotAt n x).turn = s.turn := rfl
@[simp] theorem State.setSlotAt_stamp (s : State) (n : Nat) (x : Slot) : (s.setSlotAt n x).stamp = s.stamp := rfl

@[simp] theorem State.setSlot_mem (s : State) (x : Slot) : (s.setSlot x).mem = s.mem := rfl
@[simp] theorem State.setSlot_cores (s : State) (x : Slot) : (s.setSlot x).cores = s.cores := rfl
@[simp] theorem State.setSlot_ports (s : State) (x : Slot) : (s.setSlot x).ports = s.ports := rfl
@[simp] theorem State.setSlot_sharers (s : State) (x : Slot) : (s.setSlot x).sharers = s.sharers := rfl
@[simp] theorem State.setSlot_watchers (s : State) (x : Slot) : (s.setSlot x).watchers = s.watchers := rfl
@[simp] theorem State.setSlot_reservations (s : State) (x : Slot) : (s.setSlot x).reservations = s.reservations := rfl
@[simp] theorem State.setSlot_arrays (s : State) (x : Slot) : (s.setSlot x).arrays = s.arrays := rfl
@[simp] theorem State.setSlot_dies (s : State) (x : Slot) : (s.setSlot x).dies = s.dies := rfl
@[simp] theorem State.setSlot_copiers (s : State) (x : Slot) : (s.setSlot x).copiers = s.copiers := rfl
@[simp] theorem State.setSlot_collectors (s : State) (x : Slot) : (s.setSlot x).collectors = s.collectors := rfl
@[simp] theorem State.setSlot_groups (s : State) (x : Slot) : (s.setSlot x).groups = s.groups := rfl
@[simp] theorem State.setSlot_sphinxes (s : State) (x : Slot) : (s.setSlot x).sphinxes = s.sphinxes := rfl
@[simp] theorem State.setSlot_copies (s : State) (x : Slot) : (s.setSlot x).copies = s.copies := rfl
@[simp] theorem State.setSlot_merges (s : State) (x : Slot) : (s.setSlot x).merges = s.merges := rfl
@[simp] theorem State.setSlot_parts (s : State) (x : Slot) : (s.setSlot x).parts = s.parts := rfl
@[simp] theorem State.setSlot_dev (s : State) (x : Slot) : (s.setSlot x).dev = s.dev := rfl
@[simp] theorem State.setSlot_bad (s : State) (x : Slot) : (s.setSlot x).bad = s.bad := rfl
@[simp] theorem State.setSlot_net (s : State) (x : Slot) : (s.setSlot x).net = s.net := rfl
@[simp] theorem State.setSlot_refcnt (s : State) (x : Slot) : (s.setSlot x).refcnt = s.refcnt := rfl
@[simp] theorem State.setSlot_cyc (s : State) (x : Slot) : (s.setSlot x).cyc = s.cyc := rfl
@[simp] theorem State.setSlot_sub (s : State) (x : Slot) : (s.setSlot x).sub = s.sub := rfl
@[simp] theorem State.setSlot_agenda (s : State) (x : Slot) : (s.setSlot x).agenda = s.agenda := rfl
@[simp] theorem State.setSlot_inputs (s : State) (x : Slot) : (s.setSlot x).inputs = s.inputs := rfl
@[simp] theorem State.setSlot_choices (s : State) (x : Slot) : (s.setSlot x).choices = s.choices := rfl
@[simp] theorem State.setSlot_cur (s : State) (x : Slot) : (s.setSlot x).cur = s.cur := rfl
@[simp] theorem State.setSlot_turn (s : State) (x : Slot) : (s.setSlot x).turn = s.turn := rfl
@[simp] theorem State.setSlot_stamp (s : State) (x : Slot) : (s.setSlot x).stamp = s.stamp := rfl

@[simp] theorem State.setCtx_mem (s : State) (c : Ctx) : (s.setCtx c).mem = s.mem := rfl
@[simp] theorem State.setCtx_cores (s : State) (c : Ctx) : (s.setCtx c).cores = s.cores := rfl
@[simp] theorem State.setCtx_ports (s : State) (c : Ctx) : (s.setCtx c).ports = s.ports := rfl
@[simp] theorem State.setCtx_sharers (s : State) (c : Ctx) : (s.setCtx c).sharers = s.sharers := rfl
@[simp] theorem State.setCtx_watchers (s : State) (c : Ctx) : (s.setCtx c).watchers = s.watchers := rfl
@[simp] theorem State.setCtx_reservations (s : State) (c : Ctx) : (s.setCtx c).reservations = s.reservations := rfl
@[simp] theorem State.setCtx_arrays (s : State) (c : Ctx) : (s.setCtx c).arrays = s.arrays := rfl
@[simp] theorem State.setCtx_dies (s : State) (c : Ctx) : (s.setCtx c).dies = s.dies := rfl
@[simp] theorem State.setCtx_copiers (s : State) (c : Ctx) : (s.setCtx c).copiers = s.copiers := rfl
@[simp] theorem State.setCtx_collectors (s : State) (c : Ctx) : (s.setCtx c).collectors = s.collectors := rfl
@[simp] theorem State.setCtx_groups (s : State) (c : Ctx) : (s.setCtx c).groups = s.groups := rfl
@[simp] theorem State.setCtx_sphinxes (s : State) (c : Ctx) : (s.setCtx c).sphinxes = s.sphinxes := rfl
@[simp] theorem State.setCtx_copies (s : State) (c : Ctx) : (s.setCtx c).copies = s.copies := rfl
@[simp] theorem State.setCtx_merges (s : State) (c : Ctx) : (s.setCtx c).merges = s.merges := rfl
@[simp] theorem State.setCtx_parts (s : State) (c : Ctx) : (s.setCtx c).parts = s.parts := rfl
@[simp] theorem State.setCtx_dev (s : State) (c : Ctx) : (s.setCtx c).dev = s.dev := rfl
@[simp] theorem State.setCtx_bad (s : State) (c : Ctx) : (s.setCtx c).bad = s.bad := rfl
@[simp] theorem State.setCtx_net (s : State) (c : Ctx) : (s.setCtx c).net = s.net := rfl
@[simp] theorem State.setCtx_refcnt (s : State) (c : Ctx) : (s.setCtx c).refcnt = s.refcnt := rfl
@[simp] theorem State.setCtx_cyc (s : State) (c : Ctx) : (s.setCtx c).cyc = s.cyc := rfl
@[simp] theorem State.setCtx_sub (s : State) (c : Ctx) : (s.setCtx c).sub = s.sub := rfl
@[simp] theorem State.setCtx_agenda (s : State) (c : Ctx) : (s.setCtx c).agenda = s.agenda := rfl
@[simp] theorem State.setCtx_inputs (s : State) (c : Ctx) : (s.setCtx c).inputs = s.inputs := rfl
@[simp] theorem State.setCtx_choices (s : State) (c : Ctx) : (s.setCtx c).choices = s.choices := rfl
@[simp] theorem State.setCtx_cur (s : State) (c : Ctx) : (s.setCtx c).cur = s.cur := rfl
@[simp] theorem State.setCtx_turn (s : State) (c : Ctx) : (s.setCtx c).turn = s.turn := rfl
@[simp] theorem State.setCtx_stamp (s : State) (c : Ctx) : (s.setCtx c).stamp = s.stamp := rfl

@[simp] theorem State.putG_mem (s : State) (n : Reg) (v : Word) : (s.putG n v).mem = s.mem := rfl
@[simp] theorem State.putG_cores (s : State) (n : Reg) (v : Word) : (s.putG n v).cores = s.cores := rfl
@[simp] theorem State.putG_ports (s : State) (n : Reg) (v : Word) : (s.putG n v).ports = s.ports := rfl
@[simp] theorem State.putG_sharers (s : State) (n : Reg) (v : Word) : (s.putG n v).sharers = s.sharers := rfl
@[simp] theorem State.putG_watchers (s : State) (n : Reg) (v : Word) : (s.putG n v).watchers = s.watchers := rfl
@[simp] theorem State.putG_reservations (s : State) (n : Reg) (v : Word) : (s.putG n v).reservations = s.reservations := rfl
@[simp] theorem State.putG_arrays (s : State) (n : Reg) (v : Word) : (s.putG n v).arrays = s.arrays := rfl
@[simp] theorem State.putG_dies (s : State) (n : Reg) (v : Word) : (s.putG n v).dies = s.dies := rfl
@[simp] theorem State.putG_copiers (s : State) (n : Reg) (v : Word) : (s.putG n v).copiers = s.copiers := rfl
@[simp] theorem State.putG_collectors (s : State) (n : Reg) (v : Word) : (s.putG n v).collectors = s.collectors := rfl
@[simp] theorem State.putG_groups (s : State) (n : Reg) (v : Word) : (s.putG n v).groups = s.groups := rfl
@[simp] theorem State.putG_sphinxes (s : State) (n : Reg) (v : Word) : (s.putG n v).sphinxes = s.sphinxes := rfl
@[simp] theorem State.putG_copies (s : State) (n : Reg) (v : Word) : (s.putG n v).copies = s.copies := rfl
@[simp] theorem State.putG_merges (s : State) (n : Reg) (v : Word) : (s.putG n v).merges = s.merges := rfl
@[simp] theorem State.putG_parts (s : State) (n : Reg) (v : Word) : (s.putG n v).parts = s.parts := rfl
@[simp] theorem State.putG_dev (s : State) (n : Reg) (v : Word) : (s.putG n v).dev = s.dev := rfl
@[simp] theorem State.putG_bad (s : State) (n : Reg) (v : Word) : (s.putG n v).bad = s.bad := rfl
@[simp] theorem State.putG_net (s : State) (n : Reg) (v : Word) : (s.putG n v).net = s.net := rfl
@[simp] theorem State.putG_refcnt (s : State) (n : Reg) (v : Word) : (s.putG n v).refcnt = s.refcnt := rfl
@[simp] theorem State.putG_cyc (s : State) (n : Reg) (v : Word) : (s.putG n v).cyc = s.cyc := rfl
@[simp] theorem State.putG_sub (s : State) (n : Reg) (v : Word) : (s.putG n v).sub = s.sub := rfl
@[simp] theorem State.putG_agenda (s : State) (n : Reg) (v : Word) : (s.putG n v).agenda = s.agenda := rfl
@[simp] theorem State.putG_inputs (s : State) (n : Reg) (v : Word) : (s.putG n v).inputs = s.inputs := rfl
@[simp] theorem State.putG_choices (s : State) (n : Reg) (v : Word) : (s.putG n v).choices = s.choices := rfl
@[simp] theorem State.putG_cur (s : State) (n : Reg) (v : Word) : (s.putG n v).cur = s.cur := rfl
@[simp] theorem State.putG_turn (s : State) (n : Reg) (v : Word) : (s.putG n v).turn = s.turn := rfl
@[simp] theorem State.putG_stamp (s : State) (n : Reg) (v : Word) : (s.putG n v).stamp = s.stamp := rfl

@[simp] theorem State.resumeSlot_mem (s : State) (n : Nat) : (s.resumeSlot n).mem = s.mem := rfl
@[simp] theorem State.resumeSlot_cores (s : State) (n : Nat) : (s.resumeSlot n).cores = s.cores := rfl
@[simp] theorem State.resumeSlot_ports (s : State) (n : Nat) : (s.resumeSlot n).ports = s.ports := rfl
@[simp] theorem State.resumeSlot_sharers (s : State) (n : Nat) : (s.resumeSlot n).sharers = s.sharers := rfl
@[simp] theorem State.resumeSlot_watchers (s : State) (n : Nat) : (s.resumeSlot n).watchers = s.watchers := rfl
@[simp] theorem State.resumeSlot_reservations (s : State) (n : Nat) : (s.resumeSlot n).reservations = s.reservations := rfl
@[simp] theorem State.resumeSlot_arrays (s : State) (n : Nat) : (s.resumeSlot n).arrays = s.arrays := rfl
@[simp] theorem State.resumeSlot_dies (s : State) (n : Nat) : (s.resumeSlot n).dies = s.dies := rfl
@[simp] theorem State.resumeSlot_copiers (s : State) (n : Nat) : (s.resumeSlot n).copiers = s.copiers := rfl
@[simp] theorem State.resumeSlot_collectors (s : State) (n : Nat) : (s.resumeSlot n).collectors = s.collectors := rfl
@[simp] theorem State.resumeSlot_groups (s : State) (n : Nat) : (s.resumeSlot n).groups = s.groups := rfl
@[simp] theorem State.resumeSlot_sphinxes (s : State) (n : Nat) : (s.resumeSlot n).sphinxes = s.sphinxes := rfl
@[simp] theorem State.resumeSlot_copies (s : State) (n : Nat) : (s.resumeSlot n).copies = s.copies := rfl
@[simp] theorem State.resumeSlot_merges (s : State) (n : Nat) : (s.resumeSlot n).merges = s.merges := rfl
@[simp] theorem State.resumeSlot_parts (s : State) (n : Nat) : (s.resumeSlot n).parts = s.parts := rfl
@[simp] theorem State.resumeSlot_dev (s : State) (n : Nat) : (s.resumeSlot n).dev = s.dev := rfl
@[simp] theorem State.resumeSlot_bad (s : State) (n : Nat) : (s.resumeSlot n).bad = s.bad := rfl
@[simp] theorem State.resumeSlot_net (s : State) (n : Nat) : (s.resumeSlot n).net = s.net := rfl
@[simp] theorem State.resumeSlot_refcnt (s : State) (n : Nat) : (s.resumeSlot n).refcnt = s.refcnt := rfl
@[simp] theorem State.resumeSlot_cyc (s : State) (n : Nat) : (s.resumeSlot n).cyc = s.cyc := rfl
@[simp] theorem State.resumeSlot_sub (s : State) (n : Nat) : (s.resumeSlot n).sub = s.sub := rfl
@[simp] theorem State.resumeSlot_agenda (s : State) (n : Nat) : (s.resumeSlot n).agenda = s.agenda := rfl
@[simp] theorem State.resumeSlot_inputs (s : State) (n : Nat) : (s.resumeSlot n).inputs = s.inputs := rfl
@[simp] theorem State.resumeSlot_choices (s : State) (n : Nat) : (s.resumeSlot n).choices = s.choices := rfl
@[simp] theorem State.resumeSlot_cur (s : State) (n : Nat) : (s.resumeSlot n).cur = s.cur := rfl
@[simp] theorem State.resumeSlot_turn (s : State) (n : Nat) : (s.resumeSlot n).turn = s.turn := rfl
@[simp] theorem State.resumeSlot_stamp (s : State) (n : Nat) : (s.resumeSlot n).stamp = s.stamp := rfl

@[simp] theorem State.dropSlot_mem (s : State) (n : Nat) (r : Option Nat) : (s.dropSlot n r).mem = s.mem := rfl
@[simp] theorem State.dropSlot_cores (s : State) (n : Nat) (r : Option Nat) : (s.dropSlot n r).cores = s.cores := rfl
@[simp] theorem State.dropSlot_ports (s : State) (n : Nat) (r : Option Nat) : (s.dropSlot n r).ports = s.ports := rfl
@[simp] theorem State.dropSlot_sharers (s : State) (n : Nat) (r : Option Nat) : (s.dropSlot n r).sharers = s.sharers := rfl
@[simp] theorem State.dropSlot_watchers (s : State) (n : Nat) (r : Option Nat) : (s.dropSlot n r).watchers = s.watchers := rfl
@[simp] theorem State.dropSlot_reservations (s : State) (n : Nat) (r : Option Nat) : (s.dropSlot n r).reservations = s.reservations := rfl
@[simp] theorem State.dropSlot_arrays (s : State) (n : Nat) (r : Option Nat) : (s.dropSlot n r).arrays = s.arrays := rfl
@[simp] theorem State.dropSlot_dies (s : State) (n : Nat) (r : Option Nat) : (s.dropSlot n r).dies = s.dies := rfl
@[simp] theorem State.dropSlot_copiers (s : State) (n : Nat) (r : Option Nat) : (s.dropSlot n r).copiers = s.copiers := rfl
@[simp] theorem State.dropSlot_collectors (s : State) (n : Nat) (r : Option Nat) : (s.dropSlot n r).collectors = s.collectors := rfl
@[simp] theorem State.dropSlot_groups (s : State) (n : Nat) (r : Option Nat) : (s.dropSlot n r).groups = s.groups := rfl
@[simp] theorem State.dropSlot_sphinxes (s : State) (n : Nat) (r : Option Nat) : (s.dropSlot n r).sphinxes = s.sphinxes := rfl
@[simp] theorem State.dropSlot_copies (s : State) (n : Nat) (r : Option Nat) : (s.dropSlot n r).copies = s.copies := rfl
@[simp] theorem State.dropSlot_merges (s : State) (n : Nat) (r : Option Nat) : (s.dropSlot n r).merges = s.merges := rfl
@[simp] theorem State.dropSlot_parts (s : State) (n : Nat) (r : Option Nat) : (s.dropSlot n r).parts = s.parts := rfl
@[simp] theorem State.dropSlot_dev (s : State) (n : Nat) (r : Option Nat) : (s.dropSlot n r).dev = s.dev := rfl
@[simp] theorem State.dropSlot_bad (s : State) (n : Nat) (r : Option Nat) : (s.dropSlot n r).bad = s.bad := rfl
@[simp] theorem State.dropSlot_net (s : State) (n : Nat) (r : Option Nat) : (s.dropSlot n r).net = s.net := rfl
@[simp] theorem State.dropSlot_refcnt (s : State) (n : Nat) (r : Option Nat) : (s.dropSlot n r).refcnt = s.refcnt := rfl
@[simp] theorem State.dropSlot_cyc (s : State) (n : Nat) (r : Option Nat) : (s.dropSlot n r).cyc = s.cyc := rfl
@[simp] theorem State.dropSlot_sub (s : State) (n : Nat) (r : Option Nat) : (s.dropSlot n r).sub = s.sub := rfl
@[simp] theorem State.dropSlot_agenda (s : State) (n : Nat) (r : Option Nat) : (s.dropSlot n r).agenda = s.agenda := rfl
@[simp] theorem State.dropSlot_inputs (s : State) (n : Nat) (r : Option Nat) : (s.dropSlot n r).inputs = s.inputs := rfl
@[simp] theorem State.dropSlot_choices (s : State) (n : Nat) (r : Option Nat) : (s.dropSlot n r).choices = s.choices := rfl
@[simp] theorem State.dropSlot_cur (s : State) (n : Nat) (r : Option Nat) : (s.dropSlot n r).cur = s.cur := rfl
@[simp] theorem State.dropSlot_turn (s : State) (n : Nat) (r : Option Nat) : (s.dropSlot n r).turn = s.turn := rfl
@[simp] theorem State.dropSlot_stamp (s : State) (n : Nat) (r : Option Nat) : (s.dropSlot n r).stamp = s.stamp := rfl

@[simp] theorem State.await_mem (s : State) (i : Instr) (w : Wait) (f : Option Finish) : (s.await i w f).mem = s.mem := rfl
@[simp] theorem State.await_cores (s : State) (i : Instr) (w : Wait) (f : Option Finish) : (s.await i w f).cores = s.cores := rfl
@[simp] theorem State.await_ports (s : State) (i : Instr) (w : Wait) (f : Option Finish) : (s.await i w f).ports = s.ports := rfl
@[simp] theorem State.await_sharers (s : State) (i : Instr) (w : Wait) (f : Option Finish) : (s.await i w f).sharers = s.sharers := rfl
@[simp] theorem State.await_watchers (s : State) (i : Instr) (w : Wait) (f : Option Finish) : (s.await i w f).watchers = s.watchers := rfl
@[simp] theorem State.await_reservations (s : State) (i : Instr) (w : Wait) (f : Option Finish) : (s.await i w f).reservations = s.reservations := rfl
@[simp] theorem State.await_arrays (s : State) (i : Instr) (w : Wait) (f : Option Finish) : (s.await i w f).arrays = s.arrays := rfl
@[simp] theorem State.await_dies (s : State) (i : Instr) (w : Wait) (f : Option Finish) : (s.await i w f).dies = s.dies := rfl
@[simp] theorem State.await_copiers (s : State) (i : Instr) (w : Wait) (f : Option Finish) : (s.await i w f).copiers = s.copiers := rfl
@[simp] theorem State.await_collectors (s : State) (i : Instr) (w : Wait) (f : Option Finish) : (s.await i w f).collectors = s.collectors := rfl
@[simp] theorem State.await_groups (s : State) (i : Instr) (w : Wait) (f : Option Finish) : (s.await i w f).groups = s.groups := rfl
@[simp] theorem State.await_sphinxes (s : State) (i : Instr) (w : Wait) (f : Option Finish) : (s.await i w f).sphinxes = s.sphinxes := rfl
@[simp] theorem State.await_copies (s : State) (i : Instr) (w : Wait) (f : Option Finish) : (s.await i w f).copies = s.copies := rfl
@[simp] theorem State.await_merges (s : State) (i : Instr) (w : Wait) (f : Option Finish) : (s.await i w f).merges = s.merges := rfl
@[simp] theorem State.await_parts (s : State) (i : Instr) (w : Wait) (f : Option Finish) : (s.await i w f).parts = s.parts := rfl
@[simp] theorem State.await_dev (s : State) (i : Instr) (w : Wait) (f : Option Finish) : (s.await i w f).dev = s.dev := rfl
@[simp] theorem State.await_bad (s : State) (i : Instr) (w : Wait) (f : Option Finish) : (s.await i w f).bad = s.bad := rfl
@[simp] theorem State.await_net (s : State) (i : Instr) (w : Wait) (f : Option Finish) : (s.await i w f).net = s.net := rfl
@[simp] theorem State.await_refcnt (s : State) (i : Instr) (w : Wait) (f : Option Finish) : (s.await i w f).refcnt = s.refcnt := rfl
@[simp] theorem State.await_cyc (s : State) (i : Instr) (w : Wait) (f : Option Finish) : (s.await i w f).cyc = s.cyc := rfl
@[simp] theorem State.await_sub (s : State) (i : Instr) (w : Wait) (f : Option Finish) : (s.await i w f).sub = s.sub := rfl
@[simp] theorem State.await_agenda (s : State) (i : Instr) (w : Wait) (f : Option Finish) : (s.await i w f).agenda = s.agenda := rfl
@[simp] theorem State.await_inputs (s : State) (i : Instr) (w : Wait) (f : Option Finish) : (s.await i w f).inputs = s.inputs := rfl
@[simp] theorem State.await_choices (s : State) (i : Instr) (w : Wait) (f : Option Finish) : (s.await i w f).choices = s.choices := rfl
@[simp] theorem State.await_cur (s : State) (i : Instr) (w : Wait) (f : Option Finish) : (s.await i w f).cur = s.cur := rfl
@[simp] theorem State.await_turn (s : State) (i : Instr) (w : Wait) (f : Option Finish) : (s.await i w f).turn = s.turn := rfl
@[simp] theorem State.await_stamp (s : State) (i : Instr) (w : Wait) (f : Option Finish) : (s.await i w f).stamp = s.stamp := rfl

@[simp] theorem State.setCoreAt_mem (s : State) (c : Nat) (x : CoreUnit) : (s.setCoreAt c x).mem = s.mem := rfl
@[simp] theorem State.setCoreAt_slots (s : State) (c : Nat) (x : CoreUnit) : (s.setCoreAt c x).slots = s.slots := rfl
@[simp] theorem State.setCoreAt_ports (s : State) (c : Nat) (x : CoreUnit) : (s.setCoreAt c x).ports = s.ports := rfl
@[simp] theorem State.setCoreAt_sharers (s : State) (c : Nat) (x : CoreUnit) : (s.setCoreAt c x).sharers = s.sharers := rfl
@[simp] theorem State.setCoreAt_watchers (s : State) (c : Nat) (x : CoreUnit) : (s.setCoreAt c x).watchers = s.watchers := rfl
@[simp] theorem State.setCoreAt_reservations (s : State) (c : Nat) (x : CoreUnit) : (s.setCoreAt c x).reservations = s.reservations := rfl
@[simp] theorem State.setCoreAt_arrays (s : State) (c : Nat) (x : CoreUnit) : (s.setCoreAt c x).arrays = s.arrays := rfl
@[simp] theorem State.setCoreAt_dies (s : State) (c : Nat) (x : CoreUnit) : (s.setCoreAt c x).dies = s.dies := rfl
@[simp] theorem State.setCoreAt_copiers (s : State) (c : Nat) (x : CoreUnit) : (s.setCoreAt c x).copiers = s.copiers := rfl
@[simp] theorem State.setCoreAt_collectors (s : State) (c : Nat) (x : CoreUnit) : (s.setCoreAt c x).collectors = s.collectors := rfl
@[simp] theorem State.setCoreAt_groups (s : State) (c : Nat) (x : CoreUnit) : (s.setCoreAt c x).groups = s.groups := rfl
@[simp] theorem State.setCoreAt_sphinxes (s : State) (c : Nat) (x : CoreUnit) : (s.setCoreAt c x).sphinxes = s.sphinxes := rfl
@[simp] theorem State.setCoreAt_copies (s : State) (c : Nat) (x : CoreUnit) : (s.setCoreAt c x).copies = s.copies := rfl
@[simp] theorem State.setCoreAt_merges (s : State) (c : Nat) (x : CoreUnit) : (s.setCoreAt c x).merges = s.merges := rfl
@[simp] theorem State.setCoreAt_parts (s : State) (c : Nat) (x : CoreUnit) : (s.setCoreAt c x).parts = s.parts := rfl
@[simp] theorem State.setCoreAt_dev (s : State) (c : Nat) (x : CoreUnit) : (s.setCoreAt c x).dev = s.dev := rfl
@[simp] theorem State.setCoreAt_bad (s : State) (c : Nat) (x : CoreUnit) : (s.setCoreAt c x).bad = s.bad := rfl
@[simp] theorem State.setCoreAt_net (s : State) (c : Nat) (x : CoreUnit) : (s.setCoreAt c x).net = s.net := rfl
@[simp] theorem State.setCoreAt_refcnt (s : State) (c : Nat) (x : CoreUnit) : (s.setCoreAt c x).refcnt = s.refcnt := rfl
@[simp] theorem State.setCoreAt_cyc (s : State) (c : Nat) (x : CoreUnit) : (s.setCoreAt c x).cyc = s.cyc := rfl
@[simp] theorem State.setCoreAt_sub (s : State) (c : Nat) (x : CoreUnit) : (s.setCoreAt c x).sub = s.sub := rfl
@[simp] theorem State.setCoreAt_agenda (s : State) (c : Nat) (x : CoreUnit) : (s.setCoreAt c x).agenda = s.agenda := rfl
@[simp] theorem State.setCoreAt_inputs (s : State) (c : Nat) (x : CoreUnit) : (s.setCoreAt c x).inputs = s.inputs := rfl
@[simp] theorem State.setCoreAt_choices (s : State) (c : Nat) (x : CoreUnit) : (s.setCoreAt c x).choices = s.choices := rfl
@[simp] theorem State.setCoreAt_cur (s : State) (c : Nat) (x : CoreUnit) : (s.setCoreAt c x).cur = s.cur := rfl
@[simp] theorem State.setCoreAt_turn (s : State) (c : Nat) (x : CoreUnit) : (s.setCoreAt c x).turn = s.turn := rfl
@[simp] theorem State.setCoreAt_stamp (s : State) (c : Nat) (x : CoreUnit) : (s.setCoreAt c x).stamp = s.stamp := rfl

@[simp] theorem State.setPortAt_mem (s : State) (c : Nat) (x : Port) : (s.setPortAt c x).mem = s.mem := rfl
@[simp] theorem State.setPortAt_slots (s : State) (c : Nat) (x : Port) : (s.setPortAt c x).slots = s.slots := rfl
@[simp] theorem State.setPortAt_cores (s : State) (c : Nat) (x : Port) : (s.setPortAt c x).cores = s.cores := rfl
@[simp] theorem State.setPortAt_sharers (s : State) (c : Nat) (x : Port) : (s.setPortAt c x).sharers = s.sharers := rfl
@[simp] theorem State.setPortAt_watchers (s : State) (c : Nat) (x : Port) : (s.setPortAt c x).watchers = s.watchers := rfl
@[simp] theorem State.setPortAt_reservations (s : State) (c : Nat) (x : Port) : (s.setPortAt c x).reservations = s.reservations := rfl
@[simp] theorem State.setPortAt_arrays (s : State) (c : Nat) (x : Port) : (s.setPortAt c x).arrays = s.arrays := rfl
@[simp] theorem State.setPortAt_dies (s : State) (c : Nat) (x : Port) : (s.setPortAt c x).dies = s.dies := rfl
@[simp] theorem State.setPortAt_copiers (s : State) (c : Nat) (x : Port) : (s.setPortAt c x).copiers = s.copiers := rfl
@[simp] theorem State.setPortAt_collectors (s : State) (c : Nat) (x : Port) : (s.setPortAt c x).collectors = s.collectors := rfl
@[simp] theorem State.setPortAt_groups (s : State) (c : Nat) (x : Port) : (s.setPortAt c x).groups = s.groups := rfl
@[simp] theorem State.setPortAt_sphinxes (s : State) (c : Nat) (x : Port) : (s.setPortAt c x).sphinxes = s.sphinxes := rfl
@[simp] theorem State.setPortAt_copies (s : State) (c : Nat) (x : Port) : (s.setPortAt c x).copies = s.copies := rfl
@[simp] theorem State.setPortAt_merges (s : State) (c : Nat) (x : Port) : (s.setPortAt c x).merges = s.merges := rfl
@[simp] theorem State.setPortAt_parts (s : State) (c : Nat) (x : Port) : (s.setPortAt c x).parts = s.parts := rfl
@[simp] theorem State.setPortAt_dev (s : State) (c : Nat) (x : Port) : (s.setPortAt c x).dev = s.dev := rfl
@[simp] theorem State.setPortAt_bad (s : State) (c : Nat) (x : Port) : (s.setPortAt c x).bad = s.bad := rfl
@[simp] theorem State.setPortAt_net (s : State) (c : Nat) (x : Port) : (s.setPortAt c x).net = s.net := rfl
@[simp] theorem State.setPortAt_refcnt (s : State) (c : Nat) (x : Port) : (s.setPortAt c x).refcnt = s.refcnt := rfl
@[simp] theorem State.setPortAt_cyc (s : State) (c : Nat) (x : Port) : (s.setPortAt c x).cyc = s.cyc := rfl
@[simp] theorem State.setPortAt_sub (s : State) (c : Nat) (x : Port) : (s.setPortAt c x).sub = s.sub := rfl
@[simp] theorem State.setPortAt_agenda (s : State) (c : Nat) (x : Port) : (s.setPortAt c x).agenda = s.agenda := rfl
@[simp] theorem State.setPortAt_inputs (s : State) (c : Nat) (x : Port) : (s.setPortAt c x).inputs = s.inputs := rfl
@[simp] theorem State.setPortAt_choices (s : State) (c : Nat) (x : Port) : (s.setPortAt c x).choices = s.choices := rfl
@[simp] theorem State.setPortAt_cur (s : State) (c : Nat) (x : Port) : (s.setPortAt c x).cur = s.cur := rfl
@[simp] theorem State.setPortAt_turn (s : State) (c : Nat) (x : Port) : (s.setPortAt c x).turn = s.turn := rfl
@[simp] theorem State.setPortAt_stamp (s : State) (c : Nat) (x : Port) : (s.setPortAt c x).stamp = s.stamp := rfl

@[simp] theorem State.setPartAt_mem (s : State) (n : Fin 8) (x : Part) : (s.setPartAt n x).mem = s.mem := rfl
@[simp] theorem State.setPartAt_slots (s : State) (n : Fin 8) (x : Part) : (s.setPartAt n x).slots = s.slots := rfl
@[simp] theorem State.setPartAt_cores (s : State) (n : Fin 8) (x : Part) : (s.setPartAt n x).cores = s.cores := rfl
@[simp] theorem State.setPartAt_ports (s : State) (n : Fin 8) (x : Part) : (s.setPartAt n x).ports = s.ports := rfl
@[simp] theorem State.setPartAt_sharers (s : State) (n : Fin 8) (x : Part) : (s.setPartAt n x).sharers = s.sharers := rfl
@[simp] theorem State.setPartAt_watchers (s : State) (n : Fin 8) (x : Part) : (s.setPartAt n x).watchers = s.watchers := rfl
@[simp] theorem State.setPartAt_reservations (s : State) (n : Fin 8) (x : Part) : (s.setPartAt n x).reservations = s.reservations := rfl
@[simp] theorem State.setPartAt_arrays (s : State) (n : Fin 8) (x : Part) : (s.setPartAt n x).arrays = s.arrays := rfl
@[simp] theorem State.setPartAt_dies (s : State) (n : Fin 8) (x : Part) : (s.setPartAt n x).dies = s.dies := rfl
@[simp] theorem State.setPartAt_copiers (s : State) (n : Fin 8) (x : Part) : (s.setPartAt n x).copiers = s.copiers := rfl
@[simp] theorem State.setPartAt_collectors (s : State) (n : Fin 8) (x : Part) : (s.setPartAt n x).collectors = s.collectors := rfl
@[simp] theorem State.setPartAt_groups (s : State) (n : Fin 8) (x : Part) : (s.setPartAt n x).groups = s.groups := rfl
@[simp] theorem State.setPartAt_sphinxes (s : State) (n : Fin 8) (x : Part) : (s.setPartAt n x).sphinxes = s.sphinxes := rfl
@[simp] theorem State.setPartAt_copies (s : State) (n : Fin 8) (x : Part) : (s.setPartAt n x).copies = s.copies := rfl
@[simp] theorem State.setPartAt_merges (s : State) (n : Fin 8) (x : Part) : (s.setPartAt n x).merges = s.merges := rfl
@[simp] theorem State.setPartAt_dev (s : State) (n : Fin 8) (x : Part) : (s.setPartAt n x).dev = s.dev := rfl
@[simp] theorem State.setPartAt_bad (s : State) (n : Fin 8) (x : Part) : (s.setPartAt n x).bad = s.bad := rfl
@[simp] theorem State.setPartAt_net (s : State) (n : Fin 8) (x : Part) : (s.setPartAt n x).net = s.net := rfl
@[simp] theorem State.setPartAt_refcnt (s : State) (n : Fin 8) (x : Part) : (s.setPartAt n x).refcnt = s.refcnt := rfl
@[simp] theorem State.setPartAt_cyc (s : State) (n : Fin 8) (x : Part) : (s.setPartAt n x).cyc = s.cyc := rfl
@[simp] theorem State.setPartAt_sub (s : State) (n : Fin 8) (x : Part) : (s.setPartAt n x).sub = s.sub := rfl
@[simp] theorem State.setPartAt_agenda (s : State) (n : Fin 8) (x : Part) : (s.setPartAt n x).agenda = s.agenda := rfl
@[simp] theorem State.setPartAt_inputs (s : State) (n : Fin 8) (x : Part) : (s.setPartAt n x).inputs = s.inputs := rfl
@[simp] theorem State.setPartAt_choices (s : State) (n : Fin 8) (x : Part) : (s.setPartAt n x).choices = s.choices := rfl
@[simp] theorem State.setPartAt_cur (s : State) (n : Fin 8) (x : Part) : (s.setPartAt n x).cur = s.cur := rfl
@[simp] theorem State.setPartAt_turn (s : State) (n : Fin 8) (x : Part) : (s.setPartAt n x).turn = s.turn := rfl
@[simp] theorem State.setPartAt_stamp (s : State) (n : Fin 8) (x : Part) : (s.setPartAt n x).stamp = s.stamp := rfl

@[simp] theorem State.setArrayAt_mem (s : State) (c : Nat) (x : MatArray) : (s.setArrayAt c x).mem = s.mem := rfl
@[simp] theorem State.setArrayAt_slots (s : State) (c : Nat) (x : MatArray) : (s.setArrayAt c x).slots = s.slots := rfl
@[simp] theorem State.setArrayAt_cores (s : State) (c : Nat) (x : MatArray) : (s.setArrayAt c x).cores = s.cores := rfl
@[simp] theorem State.setArrayAt_ports (s : State) (c : Nat) (x : MatArray) : (s.setArrayAt c x).ports = s.ports := rfl
@[simp] theorem State.setArrayAt_sharers (s : State) (c : Nat) (x : MatArray) : (s.setArrayAt c x).sharers = s.sharers := rfl
@[simp] theorem State.setArrayAt_watchers (s : State) (c : Nat) (x : MatArray) : (s.setArrayAt c x).watchers = s.watchers := rfl
@[simp] theorem State.setArrayAt_reservations (s : State) (c : Nat) (x : MatArray) : (s.setArrayAt c x).reservations = s.reservations := rfl
@[simp] theorem State.setArrayAt_dies (s : State) (c : Nat) (x : MatArray) : (s.setArrayAt c x).dies = s.dies := rfl
@[simp] theorem State.setArrayAt_copiers (s : State) (c : Nat) (x : MatArray) : (s.setArrayAt c x).copiers = s.copiers := rfl
@[simp] theorem State.setArrayAt_collectors (s : State) (c : Nat) (x : MatArray) : (s.setArrayAt c x).collectors = s.collectors := rfl
@[simp] theorem State.setArrayAt_groups (s : State) (c : Nat) (x : MatArray) : (s.setArrayAt c x).groups = s.groups := rfl
@[simp] theorem State.setArrayAt_sphinxes (s : State) (c : Nat) (x : MatArray) : (s.setArrayAt c x).sphinxes = s.sphinxes := rfl
@[simp] theorem State.setArrayAt_copies (s : State) (c : Nat) (x : MatArray) : (s.setArrayAt c x).copies = s.copies := rfl
@[simp] theorem State.setArrayAt_merges (s : State) (c : Nat) (x : MatArray) : (s.setArrayAt c x).merges = s.merges := rfl
@[simp] theorem State.setArrayAt_parts (s : State) (c : Nat) (x : MatArray) : (s.setArrayAt c x).parts = s.parts := rfl
@[simp] theorem State.setArrayAt_dev (s : State) (c : Nat) (x : MatArray) : (s.setArrayAt c x).dev = s.dev := rfl
@[simp] theorem State.setArrayAt_bad (s : State) (c : Nat) (x : MatArray) : (s.setArrayAt c x).bad = s.bad := rfl
@[simp] theorem State.setArrayAt_net (s : State) (c : Nat) (x : MatArray) : (s.setArrayAt c x).net = s.net := rfl
@[simp] theorem State.setArrayAt_refcnt (s : State) (c : Nat) (x : MatArray) : (s.setArrayAt c x).refcnt = s.refcnt := rfl
@[simp] theorem State.setArrayAt_cyc (s : State) (c : Nat) (x : MatArray) : (s.setArrayAt c x).cyc = s.cyc := rfl
@[simp] theorem State.setArrayAt_sub (s : State) (c : Nat) (x : MatArray) : (s.setArrayAt c x).sub = s.sub := rfl
@[simp] theorem State.setArrayAt_agenda (s : State) (c : Nat) (x : MatArray) : (s.setArrayAt c x).agenda = s.agenda := rfl
@[simp] theorem State.setArrayAt_inputs (s : State) (c : Nat) (x : MatArray) : (s.setArrayAt c x).inputs = s.inputs := rfl
@[simp] theorem State.setArrayAt_choices (s : State) (c : Nat) (x : MatArray) : (s.setArrayAt c x).choices = s.choices := rfl
@[simp] theorem State.setArrayAt_cur (s : State) (c : Nat) (x : MatArray) : (s.setArrayAt c x).cur = s.cur := rfl
@[simp] theorem State.setArrayAt_turn (s : State) (c : Nat) (x : MatArray) : (s.setArrayAt c x).turn = s.turn := rfl
@[simp] theorem State.setArrayAt_stamp (s : State) (c : Nat) (x : MatArray) : (s.setArrayAt c x).stamp = s.stamp := rfl

@[simp] theorem State.send_mem (s : State) (p : Fin 8) (b : Body) : (s.send p b).mem = s.mem := rfl
@[simp] theorem State.send_slots (s : State) (p : Fin 8) (b : Body) : (s.send p b).slots = s.slots := rfl
@[simp] theorem State.send_cores (s : State) (p : Fin 8) (b : Body) : (s.send p b).cores = s.cores := rfl
@[simp] theorem State.send_ports (s : State) (p : Fin 8) (b : Body) : (s.send p b).ports = s.ports := rfl
@[simp] theorem State.send_sharers (s : State) (p : Fin 8) (b : Body) : (s.send p b).sharers = s.sharers := rfl
@[simp] theorem State.send_watchers (s : State) (p : Fin 8) (b : Body) : (s.send p b).watchers = s.watchers := rfl
@[simp] theorem State.send_reservations (s : State) (p : Fin 8) (b : Body) : (s.send p b).reservations = s.reservations := rfl
@[simp] theorem State.send_arrays (s : State) (p : Fin 8) (b : Body) : (s.send p b).arrays = s.arrays := rfl
@[simp] theorem State.send_dies (s : State) (p : Fin 8) (b : Body) : (s.send p b).dies = s.dies := rfl
@[simp] theorem State.send_copiers (s : State) (p : Fin 8) (b : Body) : (s.send p b).copiers = s.copiers := rfl
@[simp] theorem State.send_collectors (s : State) (p : Fin 8) (b : Body) : (s.send p b).collectors = s.collectors := rfl
@[simp] theorem State.send_groups (s : State) (p : Fin 8) (b : Body) : (s.send p b).groups = s.groups := rfl
@[simp] theorem State.send_sphinxes (s : State) (p : Fin 8) (b : Body) : (s.send p b).sphinxes = s.sphinxes := rfl
@[simp] theorem State.send_copies (s : State) (p : Fin 8) (b : Body) : (s.send p b).copies = s.copies := rfl
@[simp] theorem State.send_merges (s : State) (p : Fin 8) (b : Body) : (s.send p b).merges = s.merges := rfl
@[simp] theorem State.send_parts (s : State) (p : Fin 8) (b : Body) : (s.send p b).parts = s.parts := rfl
@[simp] theorem State.send_dev (s : State) (p : Fin 8) (b : Body) : (s.send p b).dev = s.dev := rfl
@[simp] theorem State.send_bad (s : State) (p : Fin 8) (b : Body) : (s.send p b).bad = s.bad := rfl
@[simp] theorem State.send_refcnt (s : State) (p : Fin 8) (b : Body) : (s.send p b).refcnt = s.refcnt := rfl
@[simp] theorem State.send_cyc (s : State) (p : Fin 8) (b : Body) : (s.send p b).cyc = s.cyc := rfl
@[simp] theorem State.send_sub (s : State) (p : Fin 8) (b : Body) : (s.send p b).sub = s.sub := rfl
@[simp] theorem State.send_agenda (s : State) (p : Fin 8) (b : Body) : (s.send p b).agenda = s.agenda := rfl
@[simp] theorem State.send_inputs (s : State) (p : Fin 8) (b : Body) : (s.send p b).inputs = s.inputs := rfl
@[simp] theorem State.send_choices (s : State) (p : Fin 8) (b : Body) : (s.send p b).choices = s.choices := rfl
@[simp] theorem State.send_cur (s : State) (p : Fin 8) (b : Body) : (s.send p b).cur = s.cur := rfl
@[simp] theorem State.send_turn (s : State) (p : Fin 8) (b : Body) : (s.send p b).turn = s.turn := rfl
@[simp] theorem State.send_stamp (s : State) (p : Fin 8) (b : Body) : (s.send p b).stamp = s.stamp := rfl

@[simp] theorem State.bump_mem (s : State) : (s.bump).mem = s.mem := rfl
@[simp] theorem State.bump_slots (s : State) : (s.bump).slots = s.slots := rfl
@[simp] theorem State.bump_cores (s : State) : (s.bump).cores = s.cores := rfl
@[simp] theorem State.bump_ports (s : State) : (s.bump).ports = s.ports := rfl
@[simp] theorem State.bump_sharers (s : State) : (s.bump).sharers = s.sharers := rfl
@[simp] theorem State.bump_watchers (s : State) : (s.bump).watchers = s.watchers := rfl
@[simp] theorem State.bump_reservations (s : State) : (s.bump).reservations = s.reservations := rfl
@[simp] theorem State.bump_arrays (s : State) : (s.bump).arrays = s.arrays := rfl
@[simp] theorem State.bump_dies (s : State) : (s.bump).dies = s.dies := rfl
@[simp] theorem State.bump_copiers (s : State) : (s.bump).copiers = s.copiers := rfl
@[simp] theorem State.bump_collectors (s : State) : (s.bump).collectors = s.collectors := rfl
@[simp] theorem State.bump_groups (s : State) : (s.bump).groups = s.groups := rfl
@[simp] theorem State.bump_sphinxes (s : State) : (s.bump).sphinxes = s.sphinxes := rfl
@[simp] theorem State.bump_copies (s : State) : (s.bump).copies = s.copies := rfl
@[simp] theorem State.bump_merges (s : State) : (s.bump).merges = s.merges := rfl
@[simp] theorem State.bump_parts (s : State) : (s.bump).parts = s.parts := rfl
@[simp] theorem State.bump_dev (s : State) : (s.bump).dev = s.dev := rfl
@[simp] theorem State.bump_bad (s : State) : (s.bump).bad = s.bad := rfl
@[simp] theorem State.bump_net (s : State) : (s.bump).net = s.net := rfl
@[simp] theorem State.bump_refcnt (s : State) : (s.bump).refcnt = s.refcnt := rfl
@[simp] theorem State.bump_cyc (s : State) : (s.bump).cyc = s.cyc := rfl
@[simp] theorem State.bump_sub (s : State) : (s.bump).sub = s.sub := rfl
@[simp] theorem State.bump_agenda (s : State) : (s.bump).agenda = s.agenda := rfl
@[simp] theorem State.bump_inputs (s : State) : (s.bump).inputs = s.inputs := rfl
@[simp] theorem State.bump_choices (s : State) : (s.bump).choices = s.choices := rfl
@[simp] theorem State.bump_cur (s : State) : (s.bump).cur = s.cur := rfl
@[simp] theorem State.bump_turn (s : State) : (s.bump).turn = s.turn := rfl

@[simp] theorem State.signal_mem (s : State) (n : Nat) : (s.signal n).mem = s.mem := rfl
@[simp] theorem State.signal_slots (s : State) (n : Nat) : (s.signal n).slots = s.slots := rfl
@[simp] theorem State.signal_cores (s : State) (n : Nat) : (s.signal n).cores = s.cores := rfl
@[simp] theorem State.signal_ports (s : State) (n : Nat) : (s.signal n).ports = s.ports := rfl
@[simp] theorem State.signal_sharers (s : State) (n : Nat) : (s.signal n).sharers = s.sharers := rfl
@[simp] theorem State.signal_watchers (s : State) (n : Nat) : (s.signal n).watchers = s.watchers := rfl
@[simp] theorem State.signal_reservations (s : State) (n : Nat) : (s.signal n).reservations = s.reservations := rfl
@[simp] theorem State.signal_arrays (s : State) (n : Nat) : (s.signal n).arrays = s.arrays := rfl
@[simp] theorem State.signal_dies (s : State) (n : Nat) : (s.signal n).dies = s.dies := rfl
@[simp] theorem State.signal_copiers (s : State) (n : Nat) : (s.signal n).copiers = s.copiers := rfl
@[simp] theorem State.signal_collectors (s : State) (n : Nat) : (s.signal n).collectors = s.collectors := rfl
@[simp] theorem State.signal_groups (s : State) (n : Nat) : (s.signal n).groups = s.groups := rfl
@[simp] theorem State.signal_sphinxes (s : State) (n : Nat) : (s.signal n).sphinxes = s.sphinxes := rfl
@[simp] theorem State.signal_copies (s : State) (n : Nat) : (s.signal n).copies = s.copies := rfl
@[simp] theorem State.signal_merges (s : State) (n : Nat) : (s.signal n).merges = s.merges := rfl
@[simp] theorem State.signal_parts (s : State) (n : Nat) : (s.signal n).parts = s.parts := rfl
@[simp] theorem State.signal_bad (s : State) (n : Nat) : (s.signal n).bad = s.bad := rfl
@[simp] theorem State.signal_net (s : State) (n : Nat) : (s.signal n).net = s.net := rfl
@[simp] theorem State.signal_refcnt (s : State) (n : Nat) : (s.signal n).refcnt = s.refcnt := rfl
@[simp] theorem State.signal_cyc (s : State) (n : Nat) : (s.signal n).cyc = s.cyc := rfl
@[simp] theorem State.signal_sub (s : State) (n : Nat) : (s.signal n).sub = s.sub := rfl
@[simp] theorem State.signal_agenda (s : State) (n : Nat) : (s.signal n).agenda = s.agenda := rfl
@[simp] theorem State.signal_inputs (s : State) (n : Nat) : (s.signal n).inputs = s.inputs := rfl
@[simp] theorem State.signal_choices (s : State) (n : Nat) : (s.signal n).choices = s.choices := rfl
@[simp] theorem State.signal_cur (s : State) (n : Nat) : (s.signal n).cur = s.cur := rfl
@[simp] theorem State.signal_turn (s : State) (n : Nat) : (s.signal n).turn = s.turn := rfl
@[simp] theorem State.signal_stamp (s : State) (n : Nat) : (s.signal n).stamp = s.stamp := rfl

/-! ## Tables -/

@[simp] theorem Table.get_set_same {α : Type} (d : α) (t : Table α) (n : Nat) (x : α) : (t.set n x).get d n = x := by
  induction t with
  | nil => simp [Table.set, Table.get]
  | cons e r ih =>
    obtain ⟨k, v⟩ := e
    unfold Table.set
    split
    · simp [Table.get]
    · split
      · simp [Table.get]
      · simp_all [Table.get] <;> omega

theorem Table.get_set_ne {α : Type} (d : α) (t : Table α) {n m : Nat} (x : α) (h : m ≠ n) :
    (t.set n x).get d m = t.get d m := by
  induction t with
  | nil => simp only [Table.set, Table.get, if_neg h, ite_self]
  | cons e r ih =>
    obtain ⟨k, v⟩ := e
    unfold Table.set
    split
    · simp only [Table.get, if_neg h]
      split
      · rw [if_pos (by omega)]
      · rfl
    · split
      · next h1 h2 =>
        subst h2
        simp only [Table.get, if_neg h]
      · simp only [Table.get, ih]

theorem Table.set_set {α : Type} (t : Table α) (n : Nat) (x y : α) : (t.set n x).set n y = t.set n y := by
  induction t with
  | nil => simp [Table.set]
  | cons e r ih =>
    obtain ⟨k, v⟩ := e
    simp only [Table.set]
    split
    · simp [Table.set]
    · split
      · simp [Table.set]
      · next h1 h2 => simp only [Table.set, if_neg h1, if_neg h2, ih]

/-! ## Slots -/

@[simp] theorem State.setSlotAt_setSlotAt (s : State) (n : Nat) (x y : Slot) :
    (s.setSlotAt n x).setSlotAt n y = s.setSlotAt n y := by
  simp only [State.setSlotAt, Table.set_set]

@[simp] theorem State.setSlot_setSlot (s : State) (x y : Slot) : (s.setSlot x).setSlot y = s.setSlot y :=
  State.setSlotAt_setSlotAt s s.cur x y

@[simp] theorem State.slotAt_setSlotAt_same (s : State) (n : Nat) (x : Slot) : (s.setSlotAt n x).slotAt n = x := by
  simp [State.slotAt, State.setSlotAt]

theorem State.slotAt_setSlotAt_ne (s : State) {n m : Nat} (x : Slot) (h : m ≠ n) :
    (s.setSlotAt n x).slotAt m = s.slotAt m := by
  simp [State.slotAt, State.setSlotAt, Table.get_set_ne _ _ _ h]

@[simp] theorem State.slot_setSlot (s : State) (x : Slot) : (s.setSlot x).slot = x := by
  simp [State.slot, State.setSlot]

theorem State.slotAt_setSlot_ne (s : State) {m : Nat} (x : Slot) (h : m ≠ s.cur) : (s.setSlot x).slotAt m = s.slotAt m :=
  State.slotAt_setSlotAt_ne s x h

@[simp] theorem State.slot_setCtx (s : State) (c : Ctx) : (s.setCtx c).slot = { s.slot with ctx := c } := by
  simp [State.setCtx]


@[simp] theorem State.slotAt_setCoreAt (s : State) (c : Nat) (x : CoreUnit) (m : Nat) : (s.setCoreAt c x).slotAt m = s.slotAt m := rfl
@[simp] theorem State.slot_setCoreAt (s : State) (c : Nat) (x : CoreUnit) : (s.setCoreAt c x).slot = s.slot := rfl
@[simp] theorem State.slotAt_setPortAt (s : State) (c : Nat) (x : Port) (m : Nat) : (s.setPortAt c x).slotAt m = s.slotAt m := rfl
@[simp] theorem State.slot_setPortAt (s : State) (c : Nat) (x : Port) : (s.setPortAt c x).slot = s.slot := rfl
@[simp] theorem State.slotAt_setPartAt (s : State) (n : Fin 8) (x : Part) (m : Nat) : (s.setPartAt n x).slotAt m = s.slotAt m := rfl
@[simp] theorem State.slot_setPartAt (s : State) (n : Fin 8) (x : Part) : (s.setPartAt n x).slot = s.slot := rfl
@[simp] theorem State.slotAt_setArrayAt (s : State) (c : Nat) (x : MatArray) (m : Nat) : (s.setArrayAt c x).slotAt m = s.slotAt m := rfl
@[simp] theorem State.slot_setArrayAt (s : State) (c : Nat) (x : MatArray) : (s.setArrayAt c x).slot = s.slot := rfl
@[simp] theorem State.slotAt_send (s : State) (p : Fin 8) (b : Body) (m : Nat) : (s.send p b).slotAt m = s.slotAt m := rfl
@[simp] theorem State.slot_send (s : State) (p : Fin 8) (b : Body) : (s.send p b).slot = s.slot := rfl
@[simp] theorem State.slotAt_bump (s : State) (m : Nat) : (s.bump).slotAt m = s.slotAt m := rfl
@[simp] theorem State.slot_bump (s : State) : (s.bump).slot = s.slot := rfl
@[simp] theorem State.slotAt_signal (s : State) (n : Nat) (m : Nat) : (s.signal n).slotAt m = s.slotAt m := rfl
@[simp] theorem State.slot_signal (s : State) (n : Nat) : (s.signal n).slot = s.slot := rfl

/-- The context of the thread that acts, in the form the laws use. -/
@[simp] theorem State.ctx_eq (s : State) : s.ctx = s.slot.ctx := rfl

/-! ## Units -/

@[simp] theorem State.coreAt_setCoreAt (s : State) (c : Nat) (x : CoreUnit) : (s.setCoreAt c x).coreAt c = x := by
  simp [State.coreAt, State.setCoreAt]

@[simp] theorem State.portAt_setPortAt (s : State) (c : Nat) (x : Port) : (s.setPortAt c x).portAt c = x := by
  simp [State.portAt, State.setPortAt]

@[simp] theorem State.partAt_setPartAt (s : State) (n : Fin 8) (x : Part) : (s.setPartAt n x).partAt n = x := by
  simp [State.partAt, State.setPartAt]

/-! ## General registers and predicates (R12, R102) -/

@[simp] theorem State.g_putG (s : State) (n : Reg) (v : Word) : (s.putG n v).g n = v := by
  simp [State.putG, State.g]

theorem State.g_putG_ne (s : State) {n m : Reg} (v : Word) (h : m ≠ n) : (s.putG n v).g m = s.g m := by
  have : n.val ≠ m.val := fun e => h (Fin.ext e.symm)
  simp [State.putG, State.g, this]

@[simp] theorem State.p_putG (s : State) (n : Reg) (v : Word) (m : Pred) : (s.putG n v).p m = s.p m := by
  simp [State.putG, State.p]

/-- p0 discards writes and reads 1. -/
@[simp] theorem State.putP_zero (s : State) (b : Bool) : s.putP 0 b = s := by simp [State.putP]

@[simp] theorem State.p_zero (s : State) : s.p 0 = true := by simp [State.p]

@[simp] theorem State.g_putP (s : State) (n : Pred) (b : Bool) (m : Reg) : (s.putP n b).g m = s.g m := by
  unfold State.putP
  split
  · rfl
  · simp [State.g]

end Sys2Proof.Machine
end

