-- ==== Sys2Proof/Laws/Ops.lean ====
section
/-! SUPPORT. What the shared operations do: the issue of a word, its end, register writes, and the exceptions. -/

namespace Sys2Proof.Machine

/-! ## Issue -/

/-- The guard reads only predicates. -/
theorem guardHolds_congr {s t : State} (g : Guard) (h : ∀ n, t.p n = s.p n) : guardHolds g t = guardHolds g s := by
  simp only [guardHolds, h]

theorem State.p_counted (s : State) (n : Pred) : s.counted.p n = s.p n := by
  unfold State.counted
  split
  · simp [State.p]
  · rfl

/-- A word performed afresh runs its body on the counted state. -/
theorem issue_performs {i : Instr} {g : Guard} {min : Nat} {barred : Bool} {body : State → Out} {s : State}
    (h : s.Performs g min barred) : issue i g min barred body s = .next (settle s.counted (body s.counted)) := by
  obtain ⟨hw, hp, hg, hh⟩ := h
  have hg' : guardHolds g s.counted = true := (guardHolds_congr g (State.p_counted s)).trans hg
  unfold issue
  rw [if_neg (by simp [hw]), if_neg (by omega), if_neg, if_pos hg']
  intro hc
  simp only [Bool.and_eq_true, Bool.not_eq_true', Bool.or_eq_true, decide_eq_true_eq] at hc
  have := hh hc.1.1 hc.1.2
  rcases hc.2 with h1 | h1
  · simp [this.1] at h1
  · omega

/-- Whatever the word, its issue answers a next state. -/
theorem issue_next (i : Instr) (g : Guard) (min : Nat) (barred : Bool) (body : State → Out) (s : State) :
    ∃ t, issue i g min barred body s = .next t := by
  unfold issue
  split
  · exact ⟨_, rfl⟩
  · split
    · exact ⟨_, rfl⟩
    · split
      · exact ⟨_, rfl⟩
      · dsimp only
        split <;> exact ⟨_, rfl⟩

theorem State.counted_of_plain {s : State} (h : s.slot.handler = false) : s.counted = s := by
  simp [State.counted, h]

/-- Counting an issue changes the count alone. -/
theorem State.counted_eq (s : State) : ∃ k, s.counted.slot = { s.slot with hcount := k } ∧
    s.counted = { s with slots := s.counted.slots } ∧ ∀ m, m ≠ s.cur → s.counted.slotAt m = s.slotAt m := by
  unfold State.counted
  split
  · exact ⟨s.slot.hcount + 1, by simp, rfl, fun m h => State.slotAt_setSlot_ne _ _ h⟩
  · exact ⟨s.slot.hcount, rfl, rfl, fun _ _ => rfl⟩

theorem State.g_counted (s : State) (n : Reg) : s.counted.g n = s.g n := by
  unfold State.counted
  split
  · simp [State.g]
  · rfl

theorem State.trailRoom_counted {s : State} (h : s.TrailRoom) : s.counted.TrailRoom := by
  unfold State.counted
  split
  · simpa [State.TrailRoom, Slot.inh] using h
  · exact h

/-! ## Register writes (R75, R102) -/

/-- A trail push where the hardware trail has room leaves all but the trail. -/
theorem trailPush_room {s : State} (e : TrailEnt) (h : s.TrailRoom) :
    trailPush e s = .ok s ∨ trailPush e s = .ok (s.setSlot { s.slot with trail := e :: s.slot.trail }) := by
  unfold trailPush
  dsimp only
  split
  · exact .inl rfl
  · next hc =>
    simp only [Bool.or_eq_true, List.isEmpty_iff, not_or] at hc
    rcases h with h | h | h
    · exact absurd h hc.1
    · exact absurd h hc.2
    · rw [if_pos h]; exact .inr rfl

/-- A general register's write where the hardware trail has room. -/
theorem setG_room {s : State} (n : Reg) (v : Word) (h : s.TrailRoom) :
    ∃ u, setG n v s = .ok (u.putG n v) ∧ (u = s ∨ ∃ l, u = s.setSlot { s.slot with trail := l }) := by
  unfold setG
  split
  · rcases trailPush_room ⟨.greg n, s.g n, s.slot.frame n⟩ h with e | e
    · exact ⟨s, by rw [e]; rfl, .inl rfl⟩
    · exact ⟨_, by rw [e]; rfl, .inr ⟨_, rfl⟩⟩
  · exact ⟨s, rfl, .inl rfl⟩

/-- A predicate's write where the hardware trail has room. -/
theorem setP_room {s : State} (n : Pred) (b : Bool) (h : s.TrailRoom) :
    ∃ u, setP n b s = .ok (u.putP n b) ∧ (u = s ∨ ∃ l, u = s.setSlot { s.slot with trail := l }) := by
  unfold setP
  split
  · next h0 => subst h0; exact ⟨s, by simp, .inl rfl⟩
  · rcases trailPush_room ⟨.pred n, if s.p n then 1 else 0, none⟩ h with e | e
    · exact ⟨s, by rw [e]; rfl, .inl rfl⟩
    · exact ⟨_, by rw [e]; rfl, .inr ⟨_, rfl⟩⟩

/-! ## The end of an instruction (R76, R127) -/

/-- A completion sets the PC by the end check and leaves no word in progress. -/
theorem settle_seq_slot (s₀ s : State) :
    (settle s₀ (.seq s)).slot = { s.slot with ctx := s.ctx.endCheck s₀.ctx.pc, prog := {} } := by simp [settle]

theorem settle_jump_slot (s₀ s : State) (v : Word) :
    (settle s₀ (.jump s v)).slot = { s.slot with ctx := { s.ctx with pc := v }, prog := {} } := by simp [settle]

/-- The end check changes PC and loop stack alone. -/
theorem Ctx.endCheck_eq (c : Ctx) (a : Word) : c.endCheck a = { c with pc := (c.endCheck a).pc, loops := (c.endCheck a).loops } := by
  unfold Ctx.endCheck
  split
  rfl

/-- What the end check does to the PC depends on the loop stack alone. -/
theorem Ctx.endCheck_pc_congr {c d : Ctx} (a : Word) (h : c.loops = d.loops) : (c.endCheck a).pc = (d.endCheck a).pc := by
  simp only [Ctx.endCheck, h]

/-! ## Words that write only registers -/

/-- The frame from the slot as it is afterwards. -/
theorem RegFrame.of {s t : State} {gs : List Reg} {ps : List Pred} {k : Nat} {l : List TrailEnt} {G : Vector Word 16} {P : Byte}
    {pc : Word} {lp : Loops}
    (hs : t.slot = { s.slot with ctx := { s.slot.ctx with g := G, p := P, pc := pc, loops := lp }, trail := l, hcount := k, prog := {} })
    (ho : ∀ m, m ≠ s.cur → t.slotAt m = s.slotAt m) (hr : t = { s with slots := t.slots })
    (hg : ∀ n : Reg, n ∉ gs → G[n] = s.slot.ctx.g[n])
    (hp : ∀ n : Pred, n ∉ ps → n ≠ 0 → P.getLsbD n.val = s.slot.ctx.p.getLsbD n.val) : RegFrame s t gs ps := by
  constructor
  · intro n hn; simp only [State.g, State.ctx_eq, hs]; exact hg n hn
  · intro n hn
    by_cases h0 : n = 0
    · simp [State.p, h0]
    · simp only [State.p, State.ctx_eq, hs, hp n hn h0]
  · simp [hs]
  · simp [hs]
  · exact ho
  · exact hr
  · intro a; rw [hr]

/-- The state is `s` with another slot for the thread that acts. -/
structure SlotOnly (s t : State) (x : Slot) : Prop where
  slot : t.slot = x
  others : ∀ m, m ≠ s.cur → t.slotAt m = s.slotAt m
  rest : t = { s with slots := t.slots }

theorem SlotOnly.refl (s : State) : SlotOnly s s s.slot := ⟨rfl, fun _ _ => rfl, rfl⟩

theorem SlotOnly.cur {s t : State} {x : Slot} (h : SlotOnly s t x) : t.cur = s.cur := by rw [h.rest]

theorem SlotOnly.set {s t : State} {x : Slot} (h : SlotOnly s t x) (y : Slot) : SlotOnly s (t.setSlot y) y := by
  refine ⟨by simp, fun m hm => ?_, ?_⟩
  · rw [State.slotAt_setSlot_ne _ _ (by rw [h.cur]; exact hm), h.others m hm]
  · rw [State.setSlot, State.setSlotAt, h.rest]

theorem SlotOnly.counted (s : State) : ∃ k, SlotOnly s s.counted { s.slot with hcount := k } := by
  obtain ⟨k, h1, h2, h3⟩ := s.counted_eq
  exact ⟨k, h1, h3, h2⟩

/-- A word that ends in a general register write completes with it, and changes nothing else. -/
theorem issue_setG {s : State} {d : Reg} {v : Word} {i : Instr} {g : Guard} {min : Nat} {barred : Bool} {body : State → Out}
    (h : s.Performs g min barred) (hr : s.TrailRoom) (hb : body s.counted = Out.setG d v s.counted) :
    ∃ t, issue i g min barred body s = .next t ∧ t.g d = v ∧ t.ctx.pc = s.nextPc ∧ RegFrame s t [d] [] := by
  obtain ⟨u, hu, hu'⟩ := setG_room d v (State.trailRoom_counted hr)
  obtain ⟨k, hk⟩ := SlotOnly.counted s
  obtain ⟨l, hl⟩ : ∃ l, SlotOnly s u { s.slot with hcount := k, trail := l } := by
    rcases hu' with rfl | ⟨l, rfl⟩
    · exact ⟨_, hk⟩
    · exact ⟨l, by simpa [hk.slot] using hk.set { s.counted.slot with trail := l }⟩
  refine ⟨_, issue_performs h, ?_⟩
  rw [hb, Out.setG, hu]
  have ht : SlotOnly s (settle s.counted (.seq (u.putG d v)))
      { s.slot with ctx := ({ s.slot.ctx with g := s.slot.ctx.g.set d v } : Ctx).endCheck s.slot.ctx.pc
                    hcount := k, trail := l, prog := {} } := by
    have := (hl.set { u.slot with ctx := { u.slot.ctx with g := u.slot.ctx.g.set d v } }).set
      { u.slot with ctx := ({ u.slot.ctx with g := u.slot.ctx.g.set d v } : Ctx).endCheck s.slot.ctx.pc, prog := {} }
    simpa [settle, State.putG, State.setCtx, hl.slot, hk.slot] using this
  have hs := ht.slot
  rw [Ctx.endCheck_eq] at hs
  refine ⟨?_, ?_, RegFrame.of hs ht.others ht.rest ?_ ?_⟩
  · simp [Out.ofRes, State.g, hs]
  · simp only [Out.ofRes, State.ctx_eq, hs, State.nextPc]
    exact Ctx.endCheck_pc_congr _ rfl
  · intro n hn
    have : d.val ≠ n.val := fun e => hn (by simp [Fin.ext e])
    simp [this]
  · intros; rfl

end Sys2Proof.Machine
end

