-- ==== Sys2Proof/Laws/PerInstr.lean ====
section
/-! SUPPORT. What holds of each instruction as syntax. Encoding: the word that the encoder writes, or the command, is read back field by
field. -/

namespace Sys2Proof.Laws.Encoding

/-- The instruction's word, or its command word, reads as the instruction, before the check that nothing else is set. -/
def Statement (i : Instr) : Prop :=
  (∀ w, i.wf = true → encodeWord i = some w → decodeRaw w = some i) ∧
  (∀ w, i.wf = true → encodeTile i = some w → decodeTileRaw w = some i)

theorem fin_of {n : Nat} [NeZero n] {x : Fin n} {k : Nat} (h : k % n = x.val) : Fin.ofNat n k = x := Fin.ext h

theorem bv_of {n : Nat} {x : BitVec n} {k : Nat} (h : k % 2 ^ n = x.toNat) : BitVec.ofNat n k = x :=
  BitVec.eq_of_toNat_eq (by simpa using h)

theorem bool_of {b : Bool} {k : Nat} (h : k = b.toNat) : (k == 1) = b := by subst h; cases b <;> rfl

/-- An event has no word. -/
theorem of_event {i : Instr} (h : encodeWord i = none) (k : encodeTile i = none) : Statement i :=
  ⟨fun _ _ e => by simp [h] at e, fun _ _ e => by simp [k] at e⟩

theorem of_word {i : Instr} {e : Nat} (h : encodeWord i = some e) (k : encodeTile i = none)
    (d : ∀ w, i.wf = true → e = w → decodeRaw w = some i) : Statement i :=
  ⟨fun w f e => d w f (Option.some.inj (h.symm.trans e)), fun _ _ e => by simp [k] at e⟩

theorem of_tile {i : Instr} {e : Nat} (h : encodeWord i = none) (k : encodeTile i = some e)
    (d : ∀ w, i.wf = true → e = w → decodeTileRaw w = some i) : Statement i :=
  ⟨fun _ _ e => by simp [h] at e, fun w f e => d w f (Option.some.inj (k.symm.trans e))⟩

/-- The fields of a word of four registers' places and nine bits. -/
theorem fields9 {w c g d a b m : Nat} (h : w = c * 2097152 + g * 268435456 + d * 131072 + a * 8192 + b * 512 + m) (hc : c < 128)
    (hg : g < 16) (hd : d < 16) (ha : a < 16) (hb : b < 16) (hm : m < 512) :
    w / 2097152 % 128 = c ∧ w / 268435456 % 16 = g ∧ w / 131072 % 16 = d ∧ w / 8192 % 16 = a ∧ w / 512 % 16 = b ∧ w % 512 = m := by
  refine ⟨?_, ?_, ?_, ?_, ?_, ?_⟩ <;> omega

/-- The fields of a word of three registers' places and thirteen bits. -/
theorem fields13 {w c g d a m : Nat} (h : w = c * 2097152 + g * 268435456 + d * 131072 + a * 8192 + m) (hc : c < 128)
    (hg : g < 16) (hd : d < 16) (ha : a < 16) (hm : m < 8192) :
    w / 2097152 % 128 = c ∧ w / 268435456 % 16 = g ∧ w / 131072 % 16 = d ∧ w / 8192 % 16 = a ∧ w % 8192 = m := by
  refine ⟨?_, ?_, ?_, ?_, ?_⟩ <;> omega

theorem mod8 {x y : Nat} (h : x % 16 = y) (k : y < 8) : x % 8 = y := by omega

/-! ## Codes -/

theorem size_code (z : Size) : Size.ofCode z.code = some z := by cases z <;> rfl

theorem size_lt (z : Size) : z.code < 4 := by cases z <;> decide

theorem dsize_code (z : DSize) : DSize.ofCode z.code = some z := by cases z <;> rfl

theorem dsize_lt (z : DSize) : z.code < 2 := by cases z <;> decide

theorem scope_code (z : Scope) : Scope.ofCode z.code = some z := by cases z <;> rfl

theorem scope_lt (z : Scope) : z.code < 4 := by cases z <;> decide

theorem elem_code (z : Elem) : Elem.ofCode z.code = some z := by cases z <;> rfl

theorem elem_lt (z : Elem) : z.code < 9 := by cases z <;> decide

theorem rnd_code (z : Rnd) : Rnd.ofCode z.code = some z := by cases z <;> rfl

theorem rnd_lt (z : Rnd) : z.code < 8 := by cases z <;> decide

theorem cond_code (z : Cond) : Cond.ofCode z.code = some z := by cases z <;> rfl

theorem cond_lt (z : Cond) : z.code < 10 := by cases z <;> decide

theorem vcond_code (z : VCond) : VCond.ofCode z.code = some z := by cases z <;> rfl

theorem vcond_lt (z : VCond) : z.code < 6 := by cases z <;> decide

theorem aop_code (z : AOp) : AOp.ofCode z.code = some z := by cases z <;> rfl

theorem aop_lt (z : AOp) : z.code < 8 := by cases z <;> decide

theorem red_code (z : Red) : Red.ofCode z.code = some z := by cases z <;> rfl

theorem red_lt (z : Red) : z.code < 3 := by cases z <;> decide

theorem instsrc_lt (z : InstSrc) : z.code < 512 := by
  cases z <;> simp only [InstSrc.code] <;> omega

theorem instsrc_code (z : InstSrc) : InstSrc.ofCode z.code = some z := by
  cases z with
  | rel n =>
    have e : InstSrc.code (.rel n) = n.toNat := rfl
    generalize InstSrc.code (.rel n) = c at e ⊢
    rw [InstSrc.ofCode, if_pos (by omega), bv_of (x := n) (by omega)]
  | now n =>
    have e : InstSrc.code (.now n) = 128 + n.toNat := rfl
    generalize InstSrc.code (.now n) = c at e ⊢
    rw [InstSrc.ofCode, if_neg (by omega), if_pos (by omega), bv_of (x := n) (by omega)]
  | reg n =>
    have e : InstSrc.code (.reg n) = 256 + n.val * 8 := rfl
    generalize InstSrc.code (.reg n) = c at e ⊢
    rw [InstSrc.ofCode]
    iterate 2 rw [if_neg (by omega)]
    rw [if_pos (by omega), fin_of (x := n) (by omega)]

theorem ext_lt (z : Ext) : z.code < 9 := by
  cases z <;> simp only [Ext.code] <;> omega

theorem ext_code (z : Ext) : Ext.ofCode z.code = some z := by
  cases z with
  | one => rfl
  | k r =>
    have e : Ext.code (.k r) = r.val := rfl
    generalize Ext.code (.k r) = c at e ⊢
    rw [Ext.ofCode, if_pos (by omega), fin_of (x := r) (by omega)]

theorem instfield_lt (z : InstField) : z.code < 49152 := by
  cases z <;> simp only [InstField.code] <;> omega

theorem instfield_code (z : InstField) : InstField.ofCode z.code = some z := by
  cases z with
  | dflt => rfl
  | rel n =>
    have e : InstField.code (.rel n) = 16384 + n.toNat := rfl
    generalize InstField.code (.rel n) = c at e ⊢
    rw [InstField.ofCode, if_neg (by omega), if_pos (by omega), bv_of (x := n) (by omega)]
  | now n =>
    have e : InstField.code (.now n) = 32768 + n.toNat := rfl
    generalize InstField.code (.now n) = c at e ⊢
    rw [InstField.ofCode]
    iterate 2 rw [if_neg (by omega)]
    rw [if_pos (by omega), bv_of (x := n) (by omega)]

/-! ## Majors -/

theorem major01 {w : Nat} (h : w / 2097152 % 128 = 1) : decodeRaw w = decodeMajor01 w := by unfold decodeRaw; rw [h]; rfl

theorem major02 {w : Nat} (h : w / 2097152 % 128 = 2) : decodeRaw w = decodeMajor02 w := by unfold decodeRaw; rw [h]; rfl

theorem major03 {w : Nat} (h : w / 2097152 % 128 = 3) : decodeRaw w = decodeMajor03 w := by unfold decodeRaw; rw [h]; rfl

theorem major04 {w : Nat} (h : w / 2097152 % 128 = 4) : decodeRaw w = decodeMajor04 w := by unfold decodeRaw; rw [h]; rfl

theorem major05 {w : Nat} (h : w / 2097152 % 128 = 5) : decodeRaw w = decodeMajor05 w := by unfold decodeRaw; rw [h]; rfl

theorem major06 {w : Nat} (h : w / 2097152 % 128 = 6) : decodeRaw w = decodeMajor06 w := by unfold decodeRaw; rw [h]; rfl

theorem major07 {w : Nat} (h : w / 2097152 % 128 = 7) : decodeRaw w = decodeMajor07 w := by unfold decodeRaw; rw [h]; rfl

theorem major08 {w : Nat} (h : w / 2097152 % 128 = 8) : decodeRaw w = decodeMajor08 w := by unfold decodeRaw; rw [h]; rfl

theorem major09 {w : Nat} (h : w / 2097152 % 128 = 9) : decodeRaw w = decodeMajor09 w := by unfold decodeRaw; rw [h]; rfl

theorem major0A {w : Nat} (h : w / 2097152 % 128 = 10) : decodeRaw w = decodeMajor0A w := by unfold decodeRaw; rw [h]; rfl

theorem major0B {w : Nat} (h : w / 2097152 % 128 = 11) : decodeRaw w = decodeMajor0B w := by unfold decodeRaw; rw [h]; rfl

theorem major0C {w : Nat} (h : w / 2097152 % 128 = 12) : decodeRaw w = decodeMajor0C w := by unfold decodeRaw; rw [h]; rfl

theorem major0D {w : Nat} (h : w / 2097152 % 128 = 13) : decodeRaw w = decodeMajor0D w := by unfold decodeRaw; rw [h]; rfl

theorem major0E {w : Nat} (h : w / 2097152 % 128 = 14) : decodeRaw w = decodeMajor0E w := by unfold decodeRaw; rw [h]; rfl

theorem major10 {w : Nat} (h : w / 2097152 % 128 = 16) : decodeRaw w = decodeMajor10 w := by unfold decodeRaw; rw [h]; rfl

theorem major11 {w : Nat} (h : w / 2097152 % 128 = 17) : decodeRaw w = decodeMajor10 w := by unfold decodeRaw; rw [h]; rfl

theorem major12 {w : Nat} (h : w / 2097152 % 128 = 18) : decodeRaw w = decodeMajor10 w := by unfold decodeRaw; rw [h]; rfl

theorem major13 {w : Nat} (h : w / 2097152 % 128 = 19) : decodeRaw w = decodeMajor10 w := by unfold decodeRaw; rw [h]; rfl

theorem major14 {w : Nat} (h : w / 2097152 % 128 = 20) : decodeRaw w = decodeMajor10 w := by unfold decodeRaw; rw [h]; rfl

theorem major15 {w : Nat} (h : w / 2097152 % 128 = 21) : decodeRaw w = decodeMajor10 w := by unfold decodeRaw; rw [h]; rfl

theorem major16 {w : Nat} (h : w / 2097152 % 128 = 22) : decodeRaw w = decodeMajor10 w := by unfold decodeRaw; rw [h]; rfl

theorem major17 {w : Nat} (h : w / 2097152 % 128 = 23) : decodeRaw w = decodeMajor10 w := by unfold decodeRaw; rw [h]; rfl

theorem major18 {w : Nat} (h : w / 2097152 % 128 = 24) : decodeRaw w = decodeMajor10 w := by unfold decodeRaw; rw [h]; rfl

theorem major19 {w : Nat} (h : w / 2097152 % 128 = 25) : decodeRaw w = decodeMajor10 w := by unfold decodeRaw; rw [h]; rfl

theorem major30 {w : Nat} (h : w / 2097152 % 128 = 48) : decodeRaw w = decodeMajor30 w := by unfold decodeRaw; rw [h]; rfl

theorem major31 {w : Nat} (h : w / 2097152 % 128 = 49) : decodeRaw w = decodeMajor31 w := by unfold decodeRaw; rw [h]; rfl

theorem major32 {w : Nat} (h : w / 2097152 % 128 = 50) : decodeRaw w = decodeMajor32 w := by unfold decodeRaw; rw [h]; rfl

theorem major33 {w : Nat} (h : w / 2097152 % 128 = 51) : decodeRaw w = decodeMajor33 w := by unfold decodeRaw; rw [h]; rfl

theorem major34 {w : Nat} (h : w / 2097152 % 128 = 52) : decodeRaw w = decodeMajor34 w := by unfold decodeRaw; rw [h]; rfl

theorem major35 {w : Nat} (h : w / 2097152 % 128 = 53) : decodeRaw w = decodeMajor35 w := by unfold decodeRaw; rw [h]; rfl

theorem major36 {w : Nat} (h : w / 2097152 % 128 = 54) : decodeRaw w = decodeMajor36 w := by unfold decodeRaw; rw [h]; rfl

theorem major37 {w : Nat} (h : w / 2097152 % 128 = 55) : decodeRaw w = decodeMajor37 w := by unfold decodeRaw; rw [h]; rfl

theorem major38 {w : Nat} (h : w / 2097152 % 128 = 56) : decodeRaw w = decodeMajor38 w := by unfold decodeRaw; rw [h]; rfl

theorem major39 {w : Nat} (h : w / 2097152 % 128 = 57) : decodeRaw w = decodeMajor39 w := by unfold decodeRaw; rw [h]; rfl

theorem major3A {w : Nat} (h : w / 2097152 % 128 = 58) : decodeRaw w = decodeMajor3A w := by unfold decodeRaw; rw [h]; rfl

theorem major3B {w : Nat} (h : w / 2097152 % 128 = 59) : decodeRaw w = decodeMajor3B w := by unfold decodeRaw; rw [h]; rfl

theorem major3C {w : Nat} (h : w / 2097152 % 128 = 60) : decodeRaw w = decodeMajor3C w := by unfold decodeRaw; rw [h]; rfl

theorem major3D {w : Nat} (h : w / 2097152 % 128 = 61) : decodeRaw w = decodeMajor3D w := by unfold decodeRaw; rw [h]; rfl

theorem major3E {w : Nat} (h : w / 2097152 % 128 = 62) : decodeRaw w = decodeMajor3E w := by unfold decodeRaw; rw [h]; rfl

theorem major3F {w : Nat} (h : w / 2097152 % 128 = 63) : decodeRaw w = decodeMajor3F w := by unfold decodeRaw; rw [h]; rfl

theorem major40 {w : Nat} (h : w / 2097152 % 128 = 64) : decodeRaw w = decodeMajor40 w := by unfold decodeRaw; rw [h]; rfl

theorem major41 {w : Nat} (h : w / 2097152 % 128 = 65) : decodeRaw w = decodeMajor41 w := by unfold decodeRaw; rw [h]; rfl

theorem major42 {w : Nat} (h : w / 2097152 % 128 = 66) : decodeRaw w = decodeMajor42 w := by unfold decodeRaw; rw [h]; rfl

theorem major43 {w : Nat} (h : w / 2097152 % 128 = 67) : decodeRaw w = decodeMajor43 w := by unfold decodeRaw; rw [h]; rfl

theorem major44 {w : Nat} (h : w / 2097152 % 128 = 68) : decodeRaw w = decodeMajor44 w := by unfold decodeRaw; rw [h]; rfl

theorem major45 {w : Nat} (h : w / 2097152 % 128 = 69) : decodeRaw w = decodeMajor45 w := by unfold decodeRaw; rw [h]; rfl

theorem major46 {w : Nat} (h : w / 2097152 % 128 = 70) : decodeRaw w = decodeMajor46 w := by unfold decodeRaw; rw [h]; rfl

theorem major47 {w : Nat} (h : w / 2097152 % 128 = 71) : decodeRaw w = decodeMajor47 w := by unfold decodeRaw; rw [h]; rfl

theorem major48 {w : Nat} (h : w / 2097152 % 128 = 72) : decodeRaw w = decodeMajor48 w := by unfold decodeRaw; rw [h]; rfl

theorem major49 {w : Nat} (h : w / 2097152 % 128 = 73) : decodeRaw w = decodeMajor49 w := by unfold decodeRaw; rw [h]; rfl

theorem major4C {w : Nat} (h : w / 2097152 % 128 = 76) : decodeRaw w = decodeMajor4C w := by unfold decodeRaw; rw [h]; rfl

theorem major4D {w : Nat} (h : w / 2097152 % 128 = 77) : decodeRaw w = decodeMajor4D w := by unfold decodeRaw; rw [h]; rfl

theorem major4E {w : Nat} (h : w / 2097152 % 128 = 78) : decodeRaw w = decodeMajor4E w := by unfold decodeRaw; rw [h]; rfl

theorem major54 {w : Nat} (h : w / 2097152 % 128 = 84) : decodeRaw w = decodeMajor54 w := by unfold decodeRaw; rw [h]; rfl

theorem major55 {w : Nat} (h : w / 2097152 % 128 = 85) : decodeRaw w = decodeMajor55 w := by unfold decodeRaw; rw [h]; rfl

theorem major56 {w : Nat} (h : w / 2097152 % 128 = 86) : decodeRaw w = decodeMajor56 w := by unfold decodeRaw; rw [h]; rfl

theorem major57 {w : Nat} (h : w / 2097152 % 128 = 87) : decodeRaw w = decodeMajor57 w := by unfold decodeRaw; rw [h]; rfl

theorem major58 {w : Nat} (h : w / 2097152 % 128 = 88) : decodeRaw w = decodeMajor58 w := by unfold decodeRaw; rw [h]; rfl

theorem major59 {w : Nat} (h : w / 2097152 % 128 = 89) : decodeRaw w = decodeMajor59 w := by unfold decodeRaw; rw [h]; rfl

theorem major5A {w : Nat} (h : w / 2097152 % 128 = 90) : decodeRaw w = decodeMajor5A w := by unfold decodeRaw; rw [h]; rfl

theorem major5B {w : Nat} (h : w / 2097152 % 128 = 91) : decodeRaw w = decodeMajor5B w := by unfold decodeRaw; rw [h]; rfl

theorem major5C {w : Nat} (h : w / 2097152 % 128 = 92) : decodeRaw w = decodeMajor5C w := by unfold decodeRaw; rw [h]; rfl

theorem major5D {w : Nat} (h : w / 2097152 % 128 = 93) : decodeRaw w = decodeMajor5D w := by unfold decodeRaw; rw [h]; rfl

theorem major5E {w : Nat} (h : w / 2097152 % 128 = 94) : decodeRaw w = decodeMajor5E w := by unfold decodeRaw; rw [h]; rfl

theorem major5F {w : Nat} (h : w / 2097152 % 128 = 95) : decodeRaw w = decodeMajor5F w := by unfold decodeRaw; rw [h]; rfl

theorem major60 {w : Nat} (h : w / 2097152 % 128 = 96) : decodeRaw w = decodeMajor60 w := by unfold decodeRaw; rw [h]; rfl

theorem major61 {w : Nat} (h : w / 2097152 % 128 = 97) : decodeRaw w = decodeMajor61 w := by unfold decodeRaw; rw [h]; rfl

theorem major62 {w : Nat} (h : w / 2097152 % 128 = 98) : decodeRaw w = decodeMajor62 w := by unfold decodeRaw; rw [h]; rfl

theorem major63 {w : Nat} (h : w / 2097152 % 128 = 99) : decodeRaw w = decodeMajor63 w := by unfold decodeRaw; rw [h]; rfl

theorem major64 {w : Nat} (h : w / 2097152 % 128 = 100) : decodeRaw w = decodeMajor64 w := by unfold decodeRaw; rw [h]; rfl

theorem major65 {w : Nat} (h : w / 2097152 % 128 = 101) : decodeRaw w = decodeMajor65 w := by unfold decodeRaw; rw [h]; rfl

theorem major66 {w : Nat} (h : w / 2097152 % 128 = 102) : decodeRaw w = decodeMajor66 w := by unfold decodeRaw; rw [h]; rfl

theorem major67 {w : Nat} (h : w / 2097152 % 128 = 103) : decodeRaw w = decodeMajor67 w := by unfold decodeRaw; rw [h]; rfl

theorem major68 {w : Nat} (h : w / 2097152 % 128 = 104) : decodeRaw w = decodeMajor68 w := by unfold decodeRaw; rw [h]; rfl

theorem major69 {w : Nat} (h : w / 2097152 % 128 = 105) : decodeRaw w = decodeMajor69 w := by unfold decodeRaw; rw [h]; rfl

theorem major6C {w : Nat} (h : w / 2097152 % 128 = 108) : decodeRaw w = decodeMajor6C w := by unfold decodeRaw; rw [h]; rfl

theorem major6D {w : Nat} (h : w / 2097152 % 128 = 109) : decodeRaw w = decodeMajor6D w := by unfold decodeRaw; rw [h]; rfl

theorem major6E {w : Nat} (h : w / 2097152 % 128 = 110) : decodeRaw w = decodeMajor6E w := by unfold decodeRaw; rw [h]; rfl

theorem major70 {w : Nat} (h : w / 2097152 % 128 = 112) : decodeRaw w = decodeMajor70 w := by unfold decodeRaw; rw [h]; rfl

theorem major71 {w : Nat} (h : w / 2097152 % 128 = 113) : decodeRaw w = decodeMajor71 w := by unfold decodeRaw; rw [h]; rfl

theorem major72 {w : Nat} (h : w / 2097152 % 128 = 114) : decodeRaw w = decodeMajor72 w := by unfold decodeRaw; rw [h]; rfl

theorem major73 {w : Nat} (h : w / 2097152 % 128 = 115) : decodeRaw w = decodeMajor73 w := by unfold decodeRaw; rw [h]; rfl

theorem major74 {w : Nat} (h : w / 2097152 % 128 = 116) : decodeRaw w = decodeMajor74 w := by unfold decodeRaw; rw [h]; rfl

theorem major75 {w : Nat} (h : w / 2097152 % 128 = 117) : decodeRaw w = decodeMajor75 w := by unfold decodeRaw; rw [h]; rfl

theorem major76 {w : Nat} (h : w / 2097152 % 128 = 118) : decodeRaw w = decodeMajor76 w := by unfold decodeRaw; rw [h]; rfl

theorem major77 {w : Nat} (h : w / 2097152 % 128 = 119) : decodeRaw w = decodeMajor77 w := by unfold decodeRaw; rw [h]; rfl

theorem major78 {w : Nat} (h : w / 2097152 % 128 = 120) : decodeRaw w = decodeMajor78 w := by unfold decodeRaw; rw [h]; rfl

theorem major79 {w : Nat} (h : w / 2097152 % 128 = 121) : decodeRaw w = decodeMajor79 w := by unfold decodeRaw; rw [h]; rfl

theorem major7A {w : Nat} (h : w / 2097152 % 128 = 122) : decodeRaw w = decodeMajor7A w := by unfold decodeRaw; rw [h]; rfl

theorem major7B {w : Nat} (h : w / 2097152 % 128 = 123) : decodeRaw w = decodeMajor7B w := by unfold decodeRaw; rw [h]; rfl

theorem major7C {w : Nat} (h : w / 2097152 % 128 = 124) : decodeRaw w = decodeMajor7C w := by unfold decodeRaw; rw [h]; rfl

theorem major7D {w : Nat} (h : w / 2097152 % 128 = 125) : decodeRaw w = decodeMajor7D w := by unfold decodeRaw; rw [h]; rfl

theorem major7E {w : Nat} (h : w / 2097152 % 128 = 126) : decodeRaw w = decodeMajor7E w := by unfold decodeRaw; rw [h]; rfl

theorem major7F {w : Nat} (h : w / 2097152 % 128 = 127) : decodeRaw w = decodeMajor7F w := by unfold decodeRaw; rw [h]; rfl


/-! ## Words -/

theorem add (g : Guard) (d : Reg) (a : Reg) (b : Reg) : Statement (.add g d a b) := of_word rfl rfl fun w _ hw => by
  obtain ⟨hc, hg, hd, ha, hb, hm⟩ := fields9 (w := w) (c := 1) (g := g.val) (d := d.val) (a := a.val)
    (b := b.val) (m := 0) (by omega) (by decide) (by omega) (by omega) (by omega) (by omega) (by omega)
  clear hw
  rw [major01 hc, decodeMajor01, if_pos (by omega), fin_of (x := g) hg, fin_of (x := d) hd, fin_of (x := a) ha,
    fin_of (x := b) hb]

theorem sub (g : Guard) (d : Reg) (a : Reg) (b : Reg) : Statement (.sub g d a b) := of_word rfl rfl fun w _ hw => by
  obtain ⟨hc, hg, hd, ha, hb, hm⟩ := fields9 (w := w) (c := 1) (g := g.val) (d := d.val) (a := a.val)
    (b := b.val) (m := 1) (by omega) (by decide) (by omega) (by omega) (by omega) (by omega) (by omega)
  clear hw
  rw [major01 hc, decodeMajor01, hm, if_neg (by decide), if_pos rfl, fin_of (x := g) hg, fin_of (x := d) hd, fin_of (x := a) ha,
    fin_of (x := b) hb]

theorem and (g : Guard) (d : Reg) (a : Reg) (b : Reg) : Statement (.and g d a b) := of_word rfl rfl fun w _ hw => by
  obtain ⟨hc, hg, hd, ha, hb, hm⟩ := fields9 (w := w) (c := 1) (g := g.val) (d := d.val) (a := a.val)
    (b := b.val) (m := 2) (by omega) (by decide) (by omega) (by omega) (by omega) (by omega) (by omega)
  clear hw
  rw [major01 hc, decodeMajor01, hm, if_neg (by decide), if_neg (by decide), if_pos rfl, fin_of (x := g) hg, fin_of (x := d) hd,
    fin_of (x := a) ha, fin_of (x := b) hb]

theorem or (g : Guard) (d : Reg) (a : Reg) (b : Reg) : Statement (.or g d a b) := of_word rfl rfl fun w _ hw => by
  obtain ⟨hc, hg, hd, ha, hb, hm⟩ := fields9 (w := w) (c := 1) (g := g.val) (d := d.val) (a := a.val)
    (b := b.val) (m := 3) (by omega) (by decide) (by omega) (by omega) (by omega) (by omega) (by omega)
  clear hw
  rw [major01 hc, decodeMajor01, hm]
  iterate 3 rw [if_neg (by decide)]
  rw [if_pos rfl, fin_of (x := g) hg,
    fin_of (x := d) hd, fin_of (x := a) ha, fin_of (x := b) hb]

theorem xor (g : Guard) (d : Reg) (a : Reg) (b : Reg) : Statement (.xor g d a b) := of_word rfl rfl fun w _ hw => by
  obtain ⟨hc, hg, hd, ha, hb, hm⟩ := fields9 (w := w) (c := 1) (g := g.val) (d := d.val) (a := a.val)
    (b := b.val) (m := 4) (by omega) (by decide) (by omega) (by omega) (by omega) (by omega) (by omega)
  clear hw
  rw [major01 hc, decodeMajor01, hm]
  iterate 4 rw [if_neg (by decide)]
  rw [if_pos rfl,
    fin_of (x := g) hg, fin_of (x := d) hd, fin_of (x := a) ha, fin_of (x := b) hb]

theorem andn (g : Guard) (d : Reg) (a : Reg) (b : Reg) : Statement (.andn g d a b) := of_word rfl rfl fun w _ hw => by
  obtain ⟨hc, hg, hd, ha, hb, hm⟩ := fields9 (w := w) (c := 1) (g := g.val) (d := d.val) (a := a.val)
    (b := b.val) (m := 5) (by omega) (by decide) (by omega) (by omega) (by omega) (by omega) (by omega)
  clear hw
  rw [major01 hc, decodeMajor01, hm]
  iterate 5 rw [if_neg (by decide)]
  rw [if_pos rfl, fin_of (x := g) hg, fin_of (x := d) hd, fin_of (x := a) ha, fin_of (x := b) hb]

theorem min (g : Guard) (d : Reg) (a : Reg) (b : Reg) : Statement (.min g d a b) := of_word rfl rfl fun w _ hw => by
  obtain ⟨hc, hg, hd, ha, hb, hm⟩ := fields9 (w := w) (c := 1) (g := g.val) (d := d.val) (a := a.val)
    (b := b.val) (m := 6) (by omega) (by decide) (by omega) (by omega) (by omega) (by omega) (by omega)
  clear hw
  rw [major01 hc, decodeMajor01, hm]
  iterate 6 rw [if_neg (by decide)]
  rw [if_pos rfl, fin_of (x := g) hg, fin_of (x := d) hd, fin_of (x := a) ha,
    fin_of (x := b) hb]

theorem max (g : Guard) (d : Reg) (a : Reg) (b : Reg) : Statement (.max g d a b) := of_word rfl rfl fun w _ hw => by
  obtain ⟨hc, hg, hd, ha, hb, hm⟩ := fields9 (w := w) (c := 1) (g := g.val) (d := d.val) (a := a.val)
    (b := b.val) (m := 7) (by omega) (by decide) (by omega) (by omega) (by omega) (by omega) (by omega)
  clear hw
  rw [major01 hc, decodeMajor01, hm]
  iterate 7 rw [if_neg (by decide)]
  rw [if_pos rfl, fin_of (x := g) hg, fin_of (x := d) hd,
    fin_of (x := a) ha, fin_of (x := b) hb]

theorem minu (g : Guard) (d : Reg) (a : Reg) (b : Reg) : Statement (.minu g d a b) := of_word rfl rfl fun w _ hw => by
  obtain ⟨hc, hg, hd, ha, hb, hm⟩ := fields9 (w := w) (c := 1) (g := g.val) (d := d.val) (a := a.val)
    (b := b.val) (m := 8) (by omega) (by decide) (by omega) (by omega) (by omega) (by omega) (by omega)
  clear hw
  rw [major01 hc, decodeMajor01, hm]
  iterate 8 rw [if_neg (by decide)]
  rw [if_pos rfl, fin_of (x := g) hg,
    fin_of (x := d) hd, fin_of (x := a) ha, fin_of (x := b) hb]

theorem maxu (g : Guard) (d : Reg) (a : Reg) (b : Reg) : Statement (.maxu g d a b) := of_word rfl rfl fun w _ hw => by
  obtain ⟨hc, hg, hd, ha, hb, hm⟩ := fields9 (w := w) (c := 1) (g := g.val) (d := d.val) (a := a.val)
    (b := b.val) (m := 9) (by omega) (by decide) (by omega) (by omega) (by omega) (by omega) (by omega)
  clear hw
  rw [major01 hc, decodeMajor01, hm]
  iterate 9 rw [if_neg (by decide)]
  rw [if_pos rfl,
    fin_of (x := g) hg, fin_of (x := d) hd, fin_of (x := a) ha, fin_of (x := b) hb]

theorem adds (g : Guard) (d : Reg) (a : Reg) (b : Reg) : Statement (.adds g d a b) := of_word rfl rfl fun w _ hw => by
  obtain ⟨hc, hg, hd, ha, hb, hm⟩ := fields9 (w := w) (c := 1) (g := g.val) (d := d.val) (a := a.val)
    (b := b.val) (m := 10) (by omega) (by decide) (by omega) (by omega) (by omega) (by omega) (by omega)
  clear hw
  rw [major01 hc, decodeMajor01, hm]
  iterate 10 rw [if_neg (by decide)]
  rw [if_pos rfl, fin_of (x := g) hg, fin_of (x := d) hd, fin_of (x := a) ha, fin_of (x := b) hb]

theorem subs (g : Guard) (d : Reg) (a : Reg) (b : Reg) : Statement (.subs g d a b) := of_word rfl rfl fun w _ hw => by
  obtain ⟨hc, hg, hd, ha, hb, hm⟩ := fields9 (w := w) (c := 1) (g := g.val) (d := d.val) (a := a.val)
    (b := b.val) (m := 11) (by omega) (by decide) (by omega) (by omega) (by omega) (by omega) (by omega)
  clear hw
  rw [major01 hc, decodeMajor01, hm]
  iterate 11 rw [if_neg (by decide)]
  rw [if_pos rfl, fin_of (x := g) hg, fin_of (x := d) hd, fin_of (x := a) ha, fin_of (x := b) hb]

theorem lea (g : Guard) (d : Reg) (a : Reg) (b : Reg) (s : BitVec 2) : Statement (.lea g d a b s) := of_word rfl rfl fun w _ hw => by
  obtain ⟨hc, hg, hd, ha, hb, hm⟩ := fields9 (w := w) (c := 1) (g := g.val) (d := d.val) (a := a.val)
    (b := b.val) (m := 64 + s.toNat) (by omega) (by decide) (by omega) (by omega) (by omega) (by omega) (by omega)
  clear hw
  rw [major01 hc, decodeMajor01]
  iterate 12 rw [if_neg (by omega)]
  rw [if_pos (by omega), fin_of (x := g) hg, fin_of (x := d) hd, fin_of (x := a) ha, fin_of (x := b) hb,
    bv_of (x := s) (by omega)]

theorem mul (g : Guard) (d : Reg) (a : Reg) (b : Reg) : Statement (.mul g d a b) := of_word rfl rfl fun w _ hw => by
  obtain ⟨hc, hg, hd, ha, hb, hm⟩ := fields9 (w := w) (c := 2) (g := g.val) (d := d.val) (a := a.val)
    (b := b.val) (m := 0) (by omega) (by decide) (by omega) (by omega) (by omega) (by omega) (by omega)
  clear hw
  rw [major02 hc, decodeMajor02, if_pos (by omega), fin_of (x := g) hg, fin_of (x := d) hd, fin_of (x := a) ha,
    fin_of (x := b) hb]

theorem mulhi (g : Guard) (d : Reg) (a : Reg) (b : Reg) : Statement (.mulhi g d a b) := of_word rfl rfl fun w _ hw => by
  obtain ⟨hc, hg, hd, ha, hb, hm⟩ := fields9 (w := w) (c := 2) (g := g.val) (d := d.val) (a := a.val)
    (b := b.val) (m := 1) (by omega) (by decide) (by omega) (by omega) (by omega) (by omega) (by omega)
  clear hw
  rw [major02 hc, decodeMajor02, hm, if_neg (by decide), if_pos rfl, fin_of (x := g) hg, fin_of (x := d) hd, fin_of (x := a) ha,
    fin_of (x := b) hb]

theorem mulhu (g : Guard) (d : Reg) (a : Reg) (b : Reg) : Statement (.mulhu g d a b) := of_word rfl rfl fun w _ hw => by
  obtain ⟨hc, hg, hd, ha, hb, hm⟩ := fields9 (w := w) (c := 2) (g := g.val) (d := d.val) (a := a.val)
    (b := b.val) (m := 2) (by omega) (by decide) (by omega) (by omega) (by omega) (by omega) (by omega)
  clear hw
  rw [major02 hc, decodeMajor02, hm, if_neg (by decide), if_neg (by decide), if_pos rfl, fin_of (x := g) hg, fin_of (x := d) hd,
    fin_of (x := a) ha, fin_of (x := b) hb]

theorem div (g : Guard) (d : Reg) (a : Reg) (b : Reg) : Statement (.div g d a b) := of_word rfl rfl fun w _ hw => by
  obtain ⟨hc, hg, hd, ha, hb, hm⟩ := fields9 (w := w) (c := 2) (g := g.val) (d := d.val) (a := a.val)
    (b := b.val) (m := 3) (by omega) (by decide) (by omega) (by omega) (by omega) (by omega) (by omega)
  clear hw
  rw [major02 hc, decodeMajor02, hm]
  iterate 3 rw [if_neg (by decide)]
  rw [if_pos rfl, fin_of (x := g) hg,
    fin_of (x := d) hd, fin_of (x := a) ha, fin_of (x := b) hb]

theorem divu (g : Guard) (d : Reg) (a : Reg) (b : Reg) : Statement (.divu g d a b) := of_word rfl rfl fun w _ hw => by
  obtain ⟨hc, hg, hd, ha, hb, hm⟩ := fields9 (w := w) (c := 2) (g := g.val) (d := d.val) (a := a.val)
    (b := b.val) (m := 4) (by omega) (by decide) (by omega) (by omega) (by omega) (by omega) (by omega)
  clear hw
  rw [major02 hc, decodeMajor02, hm]
  iterate 4 rw [if_neg (by decide)]
  rw [if_pos rfl,
    fin_of (x := g) hg, fin_of (x := d) hd, fin_of (x := a) ha, fin_of (x := b) hb]

theorem rem (g : Guard) (d : Reg) (a : Reg) (b : Reg) : Statement (.rem g d a b) := of_word rfl rfl fun w _ hw => by
  obtain ⟨hc, hg, hd, ha, hb, hm⟩ := fields9 (w := w) (c := 2) (g := g.val) (d := d.val) (a := a.val)
    (b := b.val) (m := 5) (by omega) (by decide) (by omega) (by omega) (by omega) (by omega) (by omega)
  clear hw
  rw [major02 hc, decodeMajor02, hm]
  iterate 5 rw [if_neg (by decide)]
  rw [if_pos rfl, fin_of (x := g) hg, fin_of (x := d) hd, fin_of (x := a) ha, fin_of (x := b) hb]

theorem remu (g : Guard) (d : Reg) (a : Reg) (b : Reg) : Statement (.remu g d a b) := of_word rfl rfl fun w _ hw => by
  obtain ⟨hc, hg, hd, ha, hb, hm⟩ := fields9 (w := w) (c := 2) (g := g.val) (d := d.val) (a := a.val)
    (b := b.val) (m := 6) (by omega) (by decide) (by omega) (by omega) (by omega) (by omega) (by omega)
  clear hw
  rw [major02 hc, decodeMajor02, hm]
  iterate 6 rw [if_neg (by decide)]
  rw [if_pos rfl, fin_of (x := g) hg, fin_of (x := d) hd, fin_of (x := a) ha,
    fin_of (x := b) hb]

theorem shl (g : Guard) (d : Reg) (a : Reg) (b : Reg) : Statement (.shl g d a b) := of_word rfl rfl fun w _ hw => by
  obtain ⟨hc, hg, hd, ha, hb, hm⟩ := fields9 (w := w) (c := 3) (g := g.val) (d := d.val) (a := a.val)
    (b := b.val) (m := 0) (by omega) (by decide) (by omega) (by omega) (by omega) (by omega) (by omega)
  clear hw
  rw [major03 hc, decodeMajor03, if_pos (by omega), fin_of (x := g) hg, fin_of (x := d) hd, fin_of (x := a) ha,
    fin_of (x := b) hb]

theorem shr (g : Guard) (d : Reg) (a : Reg) (b : Reg) : Statement (.shr g d a b) := of_word rfl rfl fun w _ hw => by
  obtain ⟨hc, hg, hd, ha, hb, hm⟩ := fields9 (w := w) (c := 3) (g := g.val) (d := d.val) (a := a.val)
    (b := b.val) (m := 1) (by omega) (by decide) (by omega) (by omega) (by omega) (by omega) (by omega)
  clear hw
  rw [major03 hc, decodeMajor03, hm, if_neg (by decide), if_pos rfl, fin_of (x := g) hg, fin_of (x := d) hd, fin_of (x := a) ha,
    fin_of (x := b) hb]

theorem sra (g : Guard) (d : Reg) (a : Reg) (b : Reg) : Statement (.sra g d a b) := of_word rfl rfl fun w _ hw => by
  obtain ⟨hc, hg, hd, ha, hb, hm⟩ := fields9 (w := w) (c := 3) (g := g.val) (d := d.val) (a := a.val)
    (b := b.val) (m := 2) (by omega) (by decide) (by omega) (by omega) (by omega) (by omega) (by omega)
  clear hw
  rw [major03 hc, decodeMajor03, hm, if_neg (by decide), if_neg (by decide), if_pos rfl, fin_of (x := g) hg, fin_of (x := d) hd,
    fin_of (x := a) ha, fin_of (x := b) hb]

theorem rol (g : Guard) (d : Reg) (a : Reg) (b : Reg) : Statement (.rol g d a b) := of_word rfl rfl fun w _ hw => by
  obtain ⟨hc, hg, hd, ha, hb, hm⟩ := fields9 (w := w) (c := 3) (g := g.val) (d := d.val) (a := a.val)
    (b := b.val) (m := 3) (by omega) (by decide) (by omega) (by omega) (by omega) (by omega) (by omega)
  clear hw
  rw [major03 hc, decodeMajor03, hm]
  iterate 3 rw [if_neg (by decide)]
  rw [if_pos rfl, fin_of (x := g) hg,
    fin_of (x := d) hd, fin_of (x := a) ha, fin_of (x := b) hb]

theorem clz (g : Guard) (d : Reg) (a : Reg) : Statement (.clz g d a) := of_word rfl rfl fun w _ hw => by
  obtain ⟨hc, hg, hd, ha, hb, hm⟩ := fields9 (w := w) (c := 3) (g := g.val) (d := d.val) (a := a.val)
    (b := 0) (m := 4) (by omega) (by decide) (by omega) (by omega) (by omega) (by omega) (by omega)
  clear hw
  rw [major03 hc, decodeMajor03, hm]
  iterate 4 rw [if_neg (by decide)]
  rw [if_pos rfl,
    fin_of (x := g) hg, fin_of (x := d) hd, fin_of (x := a) ha]

theorem ctz (g : Guard) (d : Reg) (a : Reg) : Statement (.ctz g d a) := of_word rfl rfl fun w _ hw => by
  obtain ⟨hc, hg, hd, ha, hb, hm⟩ := fields9 (w := w) (c := 3) (g := g.val) (d := d.val) (a := a.val)
    (b := 0) (m := 5) (by omega) (by decide) (by omega) (by omega) (by omega) (by omega) (by omega)
  clear hw
  rw [major03 hc, decodeMajor03, hm]
  iterate 5 rw [if_neg (by decide)]
  rw [if_pos rfl, fin_of (x := g) hg, fin_of (x := d) hd, fin_of (x := a) ha]

theorem popc (g : Guard) (d : Reg) (a : Reg) : Statement (.popc g d a) := of_word rfl rfl fun w _ hw => by
  obtain ⟨hc, hg, hd, ha, hb, hm⟩ := fields9 (w := w) (c := 3) (g := g.val) (d := d.val) (a := a.val)
    (b := 0) (m := 6) (by omega) (by decide) (by omega) (by omega) (by omega) (by omega) (by omega)
  clear hw
  rw [major03 hc, decodeMajor03, hm]
  iterate 6 rw [if_neg (by decide)]
  rw [if_pos rfl, fin_of (x := g) hg, fin_of (x := d) hd, fin_of (x := a) ha]

theorem sext (g : Guard) (d : Reg) (a : Reg) (s : Size) : Statement (.sext g d a s) := of_word rfl rfl fun w _ hw => by
  have := size_lt s
  obtain ⟨hc, hg, hd, ha, hb, hm⟩ := fields9 (w := w) (c := 3) (g := g.val) (d := d.val) (a := a.val)
    (b := 0) (m := 16 + s.code) (by omega) (by decide) (by omega) (by omega) (by omega) (by omega) (by omega)
  clear hw
  have h1 : w % 4 = s.code := by omega
  rw [major03 hc, decodeMajor03]
  iterate 7 rw [if_neg (by omega)]
  rw [if_pos (by omega), h1, size_code, Option.bind_some, fin_of (x := g) hg,
    fin_of (x := d) hd, fin_of (x := a) ha]

theorem zext (g : Guard) (d : Reg) (a : Reg) (s : Size) : Statement (.zext g d a s) := of_word rfl rfl fun w _ hw => by
  have := size_lt s
  obtain ⟨hc, hg, hd, ha, hb, hm⟩ := fields9 (w := w) (c := 3) (g := g.val) (d := d.val) (a := a.val)
    (b := 0) (m := 24 + s.code) (by omega) (by decide) (by omega) (by omega) (by omega) (by omega) (by omega)
  clear hw
  have h1 : w % 4 = s.code := by omega
  rw [major03 hc, decodeMajor03]
  iterate 8 rw [if_neg (by omega)]
  rw [if_pos (by omega), h1, size_code, Option.bind_some,
    fin_of (x := g) hg, fin_of (x := d) hd, fin_of (x := a) ha]

theorem cmp (g : Guard) (p : Pred) (a : Reg) (b : Reg) (c : Cond) : Statement (.cmp g p a b c) := of_word rfl rfl fun w _ hw => by
  have := cond_lt c
  obtain ⟨hc, hg, hd, ha, hb, hm⟩ := fields9 (w := w) (c := 4) (g := g.val) (d := p.val) (a := a.val)
    (b := b.val) (m := 16 + c.code) (by omega) (by decide) (by omega) (by omega) (by omega) (by omega) (by omega)
  clear hw
  have h1 : w % 16 = c.code := by omega
  rw [major04 hc, decodeMajor04, if_pos (by omega), h1, cond_code, Option.bind_some, fin_of (x := g) hg,
    fin_of (x := p) (mod8 hd p.isLt), fin_of (x := a) ha, fin_of (x := b) hb]

theorem sel (g : Guard) (d : Reg) (a : Reg) (b : Reg) (n : Pred) : Statement (.sel g d a b n) := of_word rfl rfl fun w _ hw => by
  obtain ⟨hc, hg, hd, ha, hb, hm⟩ := fields9 (w := w) (c := 4) (g := g.val) (d := d.val) (a := a.val)
    (b := b.val) (m := 32 + n.val) (by omega) (by decide) (by omega) (by omega) (by omega) (by omega) (by omega)
  clear hw
  rw [major04 hc, decodeMajor04, if_neg (by omega), if_pos (by omega), fin_of (x := g) hg, fin_of (x := d) hd,
    fin_of (x := a) ha, fin_of (x := b) hb, fin_of (x := n) (by omega)]

theorem pand (g : Guard) (p : Pred) (q : Pred) (r : Pred) : Statement (.pand g p q r) := of_word rfl rfl fun w _ hw => by
  obtain ⟨hc, hg, hd, ha, hb, hm⟩ := fields9 (w := w) (c := 4) (g := g.val) (d := p.val) (a := q.val)
    (b := r.val) (m := 48) (by omega) (by decide) (by omega) (by omega) (by omega) (by omega) (by omega)
  clear hw
  rw [major04 hc, decodeMajor04]
  iterate 2 rw [if_neg (by omega)]
  rw [if_pos (by omega), fin_of (x := g) hg,
    fin_of (x := p) (mod8 hd p.isLt), fin_of (x := q) (mod8 ha q.isLt), fin_of (x := r) (mod8 hb r.isLt)]

theorem por (g : Guard) (p : Pred) (q : Pred) (r : Pred) : Statement (.por g p q r) := of_word rfl rfl fun w _ hw => by
  obtain ⟨hc, hg, hd, ha, hb, hm⟩ := fields9 (w := w) (c := 4) (g := g.val) (d := p.val) (a := q.val)
    (b := r.val) (m := 49) (by omega) (by decide) (by omega) (by omega) (by omega) (by omega) (by omega)
  clear hw
  rw [major04 hc, decodeMajor04]
  iterate 3 rw [if_neg (by omega)]
  rw [if_pos (by omega), fin_of (x := g) hg,
    fin_of (x := p) (mod8 hd p.isLt), fin_of (x := q) (mod8 ha q.isLt), fin_of (x := r) (mod8 hb r.isLt)]

theorem pxor (g : Guard) (p : Pred) (q : Pred) (r : Pred) : Statement (.pxor g p q r) := of_word rfl rfl fun w _ hw => by
  obtain ⟨hc, hg, hd, ha, hb, hm⟩ := fields9 (w := w) (c := 4) (g := g.val) (d := p.val) (a := q.val)
    (b := r.val) (m := 50) (by omega) (by decide) (by omega) (by omega) (by omega) (by omega) (by omega)
  clear hw
  rw [major04 hc, decodeMajor04]
  iterate 4 rw [if_neg (by omega)]
  rw [if_pos (by omega),
    fin_of (x := g) hg, fin_of (x := p) (mod8 hd p.isLt), fin_of (x := q) (mod8 ha q.isLt), fin_of (x := r) (mod8 hb r.isLt)]

theorem pmov (g : Guard) (p : Pred) (q : Pred) : Statement (.pmov g p q) := of_word rfl rfl fun w _ hw => by
  obtain ⟨hc, hg, hd, ha, hb, hm⟩ := fields9 (w := w) (c := 4) (g := g.val) (d := p.val) (a := q.val)
    (b := 0) (m := 51) (by omega) (by decide) (by omega) (by omega) (by omega) (by omega) (by omega)
  clear hw
  rw [major04 hc, decodeMajor04]
  iterate 5 rw [if_neg (by omega)]
  rw [if_pos (by omega), fin_of (x := g) hg, fin_of (x := p) (mod8 hd p.isLt), fin_of (x := q) (mod8 ha q.isLt)]

theorem addi (g : Guard) (d : Reg) (a : Reg) (i : BitVec 13) : Statement (.addi g d a i) := of_word rfl rfl fun w _ hw => by
  obtain ⟨hc, hg, hd, ha, hm⟩ := fields13 (w := w) (c := 5) (g := g.val) (d := d.val) (a := a.val)
    (m := i.toNat) (by omega) (by decide) (by omega) (by omega) (by omega) (by omega)
  clear hw
  rw [major05 hc, decodeMajor05, fin_of (x := g) hg, fin_of (x := d) hd, fin_of (x := a) ha, bv_of (x := i) (by omega)]

theorem andi (g : Guard) (d : Reg) (a : Reg) (i : BitVec 13) : Statement (.andi g d a i) := of_word rfl rfl fun w _ hw => by
  obtain ⟨hc, hg, hd, ha, hm⟩ := fields13 (w := w) (c := 6) (g := g.val) (d := d.val) (a := a.val)
    (m := i.toNat) (by omega) (by decide) (by omega) (by omega) (by omega) (by omega)
  clear hw
  rw [major06 hc, decodeMajor06, fin_of (x := g) hg, fin_of (x := d) hd, fin_of (x := a) ha, bv_of (x := i) (by omega)]

theorem ori (g : Guard) (d : Reg) (a : Reg) (i : BitVec 13) : Statement (.ori g d a i) := of_word rfl rfl fun w _ hw => by
  obtain ⟨hc, hg, hd, ha, hm⟩ := fields13 (w := w) (c := 7) (g := g.val) (d := d.val) (a := a.val)
    (m := i.toNat) (by omega) (by decide) (by omega) (by omega) (by omega) (by omega)
  clear hw
  rw [major07 hc, decodeMajor07, fin_of (x := g) hg, fin_of (x := d) hd, fin_of (x := a) ha, bv_of (x := i) (by omega)]

theorem xori (g : Guard) (d : Reg) (a : Reg) (i : BitVec 13) : Statement (.xori g d a i) := of_word rfl rfl fun w _ hw => by
  obtain ⟨hc, hg, hd, ha, hm⟩ := fields13 (w := w) (c := 8) (g := g.val) (d := d.val) (a := a.val)
    (m := i.toNat) (by omega) (by decide) (by omega) (by omega) (by omega) (by omega)
  clear hw
  rw [major08 hc, decodeMajor08, fin_of (x := g) hg, fin_of (x := d) hd, fin_of (x := a) ha, bv_of (x := i) (by omega)]

theorem shli (g : Guard) (d : Reg) (a : Reg) (n : BitVec 6) : Statement (.shli g d a n) := of_word rfl rfl fun w _ hw => by
  obtain ⟨hc, hg, hd, ha, hb, hm⟩ := fields9 (w := w) (c := 9) (g := g.val) (d := d.val) (a := a.val)
    (b := 0) (m := n.toNat) (by omega) (by decide) (by omega) (by omega) (by omega) (by omega) (by omega)
  clear hw
  rw [major09 hc, decodeMajor09, fin_of (x := g) hg, fin_of (x := d) hd, fin_of (x := a) ha, bv_of (x := n) (by omega)]

theorem shri (g : Guard) (d : Reg) (a : Reg) (n : BitVec 6) : Statement (.shri g d a n) := of_word rfl rfl fun w _ hw => by
  obtain ⟨hc, hg, hd, ha, hb, hm⟩ := fields9 (w := w) (c := 10) (g := g.val) (d := d.val) (a := a.val)
    (b := 0) (m := n.toNat) (by omega) (by decide) (by omega) (by omega) (by omega) (by omega) (by omega)
  clear hw
  rw [major0A hc, decodeMajor0A, fin_of (x := g) hg, fin_of (x := d) hd, fin_of (x := a) ha, bv_of (x := n) (by omega)]

theorem srai (g : Guard) (d : Reg) (a : Reg) (n : BitVec 6) : Statement (.srai g d a n) := of_word rfl rfl fun w _ hw => by
  obtain ⟨hc, hg, hd, ha, hb, hm⟩ := fields9 (w := w) (c := 11) (g := g.val) (d := d.val) (a := a.val)
    (b := 0) (m := n.toNat) (by omega) (by decide) (by omega) (by omega) (by omega) (by omega) (by omega)
  clear hw
  rw [major0B hc, decodeMajor0B, fin_of (x := g) hg, fin_of (x := d) hd, fin_of (x := a) ha, bv_of (x := n) (by omega)]

theorem movi (g : Guard) (d : Reg) (i : BitVec 13) : Statement (.movi g d i) := of_word rfl rfl fun w _ hw => by
  obtain ⟨hc, hg, hd, ha, hm⟩ := fields13 (w := w) (c := 12) (g := g.val) (d := d.val) (a := 0)
    (m := i.toNat) (by omega) (by decide) (by omega) (by omega) (by omega) (by omega)
  clear hw
  rw [major0C hc, decodeMajor0C, fin_of (x := g) hg, fin_of (x := d) hd, bv_of (x := i) (by omega)]

theorem movhi (g : Guard) (d : Reg) (a : Reg) (i : BitVec 13) : Statement (.movhi g d a i) := of_word rfl rfl fun w _ hw => by
  obtain ⟨hc, hg, hd, ha, hm⟩ := fields13 (w := w) (c := 13) (g := g.val) (d := d.val) (a := a.val)
    (m := i.toNat) (by omega) (by decide) (by omega) (by omega) (by omega) (by omega)
  clear hw
  rw [major0D hc, decodeMajor0D, fin_of (x := g) hg, fin_of (x := d) hd, fin_of (x := a) ha, bv_of (x := i) (by omega)]

theorem addpc (g : Guard) (d : Reg) (i : BitVec 13) : Statement (.addpc g d i) := of_word rfl rfl fun w _ hw => by
  obtain ⟨hc, hg, hd, ha, hm⟩ := fields13 (w := w) (c := 14) (g := g.val) (d := d.val) (a := 0)
    (m := i.toNat) (by omega) (by decide) (by omega) (by omega) (by omega) (by omega)
  clear hw
  rw [major0E hc, decodeMajor0E, fin_of (x := g) hg, fin_of (x := d) hd, bv_of (x := i) (by omega)]

theorem cmpi (g : Guard) (c : Cond) (p : Pred) (a : Reg) (i : BitVec 13) : Statement (.cmpi g c p a i) := of_word rfl rfl fun w _ hw => by
  have h1 : w / 2097152 % 16 = c.code := by have := cond_lt c; omega
  have hm : decodeRaw w = decodeMajor10 w := by
    cases c <;> simp only [Cond.code] at hw
    · exact major10 (by omega)
    · exact major11 (by omega)
    · exact major12 (by omega)
    · exact major13 (by omega)
    · exact major14 (by omega)
    · exact major15 (by omega)
    · exact major16 (by omega)
    · exact major17 (by omega)
    · exact major18 (by omega)
    · exact major19 (by omega)
  have := cond_lt c
  rw [hm, decodeMajor10, h1, cond_code, Option.bind_some, fin_of (x := g) (by omega), fin_of (x := p) (by omega),
    fin_of (x := a) (by omega), bv_of (x := i) (by omega)]

theorem br (g : Guard) (o : BitVec 21) : Statement (.br g o) := of_word rfl rfl fun w _ hw => by
  rw [major30 (by omega), decodeMajor30, fin_of (x := g) (by omega), bv_of (x := o) (by omega)]

theorem call (g : Guard) (o : BitVec 21) : Statement (.call g o) := of_word rfl rfl fun w _ hw => by
  rw [major31 (by omega), decodeMajor31, fin_of (x := g) (by omega), bv_of (x := o) (by omega)]

theorem jr (g : Guard) (a : Reg) : Statement (.jr g a) := of_word rfl rfl fun w _ hw => by
  obtain ⟨hc, hg, hd, ha, hb, hm⟩ := fields9 (w := w) (c := 50) (g := g.val) (d := 0) (a := a.val)
    (b := 0) (m := 0) (by omega) (by decide) (by omega) (by omega) (by omega) (by omega) (by omega)
  clear hw
  rw [major32 hc, decodeMajor32, if_pos (by omega), fin_of (x := g) hg, fin_of (x := a) ha]

theorem callr (g : Guard) (a : Reg) : Statement (.callr g a) := of_word rfl rfl fun w _ hw => by
  obtain ⟨hc, hg, hd, ha, hb, hm⟩ := fields9 (w := w) (c := 50) (g := g.val) (d := 0) (a := a.val)
    (b := 0) (m := 1) (by omega) (by decide) (by omega) (by omega) (by omega) (by omega) (by omega)
  clear hw
  rw [major32 hc, decodeMajor32, hm, if_neg (by decide), if_pos rfl, fin_of (x := g) hg, fin_of (x := a) ha]

theorem ret (g : Guard) : Statement (.ret g) := of_word rfl rfl fun w _ hw => by
  obtain ⟨hc, hg, hd, ha, hb, hm⟩ := fields9 (w := w) (c := 50) (g := g.val) (d := 0) (a := 0)
    (b := 0) (m := 2) (by omega) (by decide) (by omega) (by omega) (by omega) (by omega) (by omega)
  clear hw
  rw [major32 hc, decodeMajor32, hm, if_neg (by decide), if_neg (by decide), if_pos rfl, fin_of (x := g) hg]

theorem jtab (g : Guard) (a : Reg) (b : Reg) (l : BitVec 9) : Statement (.jtab g a b l) := of_word rfl rfl fun w _ hw => by
  obtain ⟨hc, hg, hd, ha, hb, hm⟩ := fields9 (w := w) (c := 51) (g := g.val) (d := 0) (a := a.val)
    (b := b.val) (m := l.toNat) (by omega) (by decide) (by omega) (by omega) (by omega) (by omega) (by omega)
  clear hw
  rw [major33 hc, decodeMajor33, fin_of (x := g) hg, fin_of (x := a) ha, fin_of (x := b) hb, bv_of (x := l) (by omega)]

theorem jmp (g : Guard) (a : Reg) (i : BitVec 13) : Statement (.jmp g a i) := of_word rfl rfl fun w _ hw => by
  obtain ⟨hc, hg, hd, ha, hm⟩ := fields13 (w := w) (c := 52) (g := g.val) (d := 0) (a := a.val)
    (m := i.toNat) (by omega) (by decide) (by omega) (by omega) (by omega) (by omega)
  clear hw
  rw [major34 hc, decodeMajor34, fin_of (x := g) hg, fin_of (x := a) ha, bv_of (x := i) (by omega)]

theorem loop (g : Guard) (c : Reg) (e : BitVec 9) : Statement (.loop g c e) := of_word rfl rfl fun w _ hw => by
  obtain ⟨hc, hg, hd, ha, hb, hm⟩ := fields9 (w := w) (c := 53) (g := g.val) (d := c.val) (a := 0)
    (b := 0) (m := e.toNat) (by omega) (by decide) (by omega) (by omega) (by omega) (by omega) (by omega)
  clear hw
  rw [major35 hc, decodeMajor35, fin_of (x := g) hg, fin_of (x := c) hd, bv_of (x := e) (by omega)]

theorem loopi (g : Guard) (n : BitVec 12) (e : BitVec 9) : Statement (.loopi g n e) := of_word rfl rfl fun w _ hw => by
  rw [major36 (by omega), decodeMajor36, fin_of (x := g) (by omega), bv_of (x := n) (by omega), bv_of (x := e) (by omega)]

theorem nop (g : Guard) : Statement (.nop g) := of_word rfl rfl fun w _ hw => by
  obtain ⟨hc, hg, hd, ha, hb, hm⟩ := fields9 (w := w) (c := 55) (g := g.val) (d := 0) (a := 0)
    (b := 0) (m := 0) (by omega) (by decide) (by omega) (by omega) (by omega) (by omega) (by omega)
  clear hw
  rw [major37 hc, decodeMajor37, if_pos (by omega), fin_of (x := g) hg]

theorem lexit (g : Guard) : Statement (.lexit g) := of_word rfl rfl fun w _ hw => by
  obtain ⟨hc, hg, hd, ha, hb, hm⟩ := fields9 (w := w) (c := 55) (g := g.val) (d := 0) (a := 0)
    (b := 0) (m := 1) (by omega) (by decide) (by omega) (by omega) (by omega) (by omega) (by omega)
  clear hw
  rw [major37 hc, decodeMajor37, hm, if_neg (by decide), if_pos rfl, fin_of (x := g) hg]

theorem ld (g : Guard) (d : Reg) (a : Reg) (s : Size) (x : Bool) (o : BitVec 9) : Statement (.ld g d a s x o) := of_word rfl rfl fun w _ hw => by
  have := size_lt s
  have := x.toNat_lt
  obtain ⟨hc, hg, hd, ha, hm⟩ := fields13 (w := w) (c := 56) (g := g.val) (d := d.val) (a := a.val)
    (m := s.code * 2048 + x.toNat * 1024 + o.toNat) (by omega) (by decide) (by omega) (by omega) (by omega) (by omega)
  clear hw
  have h1 : w / 2048 % 4 = s.code := by omega
  rw [major38 hc, decodeMajor38, h1, size_code, Option.bind_some, fin_of (x := g) hg, fin_of (x := d) hd, fin_of (x := a) ha,
    bool_of (b := x) (by omega), bv_of (x := o) (by omega)]

theorem st (g : Guard) (d : Reg) (a : Reg) (s : Size) (o : BitVec 9) : Statement (.st g d a s o) := of_word rfl rfl fun w _ hw => by
  have := size_lt s
  obtain ⟨hc, hg, hd, ha, hm⟩ := fields13 (w := w) (c := 57) (g := g.val) (d := d.val) (a := a.val)
    (m := s.code * 2048 + o.toNat) (by omega) (by decide) (by omega) (by omega) (by omega) (by omega)
  clear hw
  have h1 : w / 2048 % 4 = s.code := by omega
  rw [major39 hc, decodeMajor39, h1, size_code, Option.bind_some, fin_of (x := g) hg, fin_of (x := d) hd, fin_of (x := a) ha,
    bv_of (x := o) (by omega)]

theorem lda (g : Guard) (d : Reg) (a : Reg) (s : Size) (x : Bool) (i : InstSrc) : Statement (.lda g d a s x i) := of_word rfl rfl fun w _ hw => by
  have := size_lt s
  have := x.toNat_lt
  have := instsrc_lt i
  obtain ⟨hc, hg, hd, ha, hm⟩ := fields13 (w := w) (c := 58) (g := g.val) (d := d.val) (a := a.val)
    (m := s.code * 2048 + x.toNat * 1024 + i.code) (by omega) (by decide) (by omega) (by omega) (by omega) (by omega)
  clear hw
  have h1 : w / 2048 % 4 = s.code := by omega
  have h2 : w % 512 = i.code := by omega
  rw [major3A hc, decodeMajor3A, h1, size_code, Option.bind_some, h2, instsrc_code, Option.bind_some, fin_of (x := g) hg,
    fin_of (x := d) hd, fin_of (x := a) ha, bool_of (b := x) (by omega)]

theorem stv (g : Guard) (d : Reg) (a : Reg) (s : Size) (i : InstSrc) : Statement (.stv g d a s i) := of_word rfl rfl fun w _ hw => by
  have := size_lt s
  have := instsrc_lt i
  obtain ⟨hc, hg, hd, ha, hm⟩ := fields13 (w := w) (c := 59) (g := g.val) (d := d.val) (a := a.val)
    (m := s.code * 2048 + i.code) (by omega) (by decide) (by omega) (by omega) (by omega) (by omega)
  clear hw
  have h1 : w / 2048 % 4 = s.code := by omega
  have h2 : w % 512 = i.code := by omega
  rw [major3B hc, decodeMajor3B, h1, size_code, Option.bind_some, h2, instsrc_code, Option.bind_some, fin_of (x := g) hg,
    fin_of (x := d) hd, fin_of (x := a) ha]

theorem ldn (g : Guard) (d : Reg) (a : Reg) (s : Size) (x : Bool) (o : BitVec 9) : Statement (.ldn g d a s x o) := of_word rfl rfl fun w _ hw => by
  have := size_lt s
  have := x.toNat_lt
  obtain ⟨hc, hg, hd, ha, hm⟩ := fields13 (w := w) (c := 60) (g := g.val) (d := d.val) (a := a.val)
    (m := s.code * 2048 + x.toNat * 1024 + o.toNat) (by omega) (by decide) (by omega) (by omega) (by omega) (by omega)
  clear hw
  have h1 : w / 2048 % 4 = s.code := by omega
  rw [major3C hc, decodeMajor3C, h1, size_code, Option.bind_some, fin_of (x := g) hg, fin_of (x := d) hd, fin_of (x := a) ha,
    bool_of (b := x) (by omega), bv_of (x := o) (by omega)]

theorem stn (g : Guard) (d : Reg) (a : Reg) (s : Size) (o : BitVec 9) : Statement (.stn g d a s o) := of_word rfl rfl fun w _ hw => by
  have := size_lt s
  obtain ⟨hc, hg, hd, ha, hm⟩ := fields13 (w := w) (c := 61) (g := g.val) (d := d.val) (a := a.val)
    (m := s.code * 2048 + o.toNat) (by omega) (by decide) (by omega) (by omega) (by omega) (by omega)
  clear hw
  have h1 : w / 2048 % 4 = s.code := by omega
  rw [major3D hc, decodeMajor3D, h1, size_code, Option.bind_some, fin_of (x := g) hg, fin_of (x := d) hd, fin_of (x := a) ha,
    bv_of (x := o) (by omega)]

theorem scancel (g : Guard) (a : Reg) (s : Size) (o : BitVec 9) : Statement (.scancel g a s o) := of_word rfl rfl fun w _ hw => by
  have := size_lt s
  obtain ⟨hc, hg, hd, ha, hm⟩ := fields13 (w := w) (c := 62) (g := g.val) (d := 0) (a := a.val)
    (m := s.code * 2048 + o.toNat) (by omega) (by decide) (by omega) (by omega) (by omega) (by omega)
  clear hw
  have h1 : w / 2048 % 4 = s.code := by omega
  rw [major3E hc, decodeMajor3E, h1, size_code, Option.bind_some, fin_of (x := g) hg, fin_of (x := a) ha,
    bv_of (x := o) (by omega)]

theorem lkup (g : Guard) (d : Reg) (a : Reg) : Statement (.lkup g d a) := of_word rfl rfl fun w _ hw => by
  obtain ⟨hc, hg, hd, ha, hb, hm⟩ := fields9 (w := w) (c := 63) (g := g.val) (d := d.val) (a := a.val)
    (b := 0) (m := 0) (by omega) (by decide) (by omega) (by omega) (by omega) (by omega) (by omega)
  clear hw
  rw [major3F hc, decodeMajor3F, if_pos (by omega), fin_of (x := g) hg, fin_of (x := d) hd, fin_of (x := a) ha]

theorem tagin (g : Guard) (a : Reg) (b : Reg) : Statement (.tagin g a b) := of_word rfl rfl fun w _ hw => by
  obtain ⟨hc, hg, hd, ha, hb, hm⟩ := fields9 (w := w) (c := 63) (g := g.val) (d := 0) (a := a.val)
    (b := b.val) (m := 1) (by omega) (by decide) (by omega) (by omega) (by omega) (by omega) (by omega)
  clear hw
  rw [major3F hc, decodeMajor3F, hm, if_neg (by decide), if_pos rfl, fin_of (x := g) hg, fin_of (x := a) ha, fin_of (x := b) hb]

theorem tagout (g : Guard) (d : Reg) (a : Reg) : Statement (.tagout g d a) := of_word rfl rfl fun w _ hw => by
  obtain ⟨hc, hg, hd, ha, hb, hm⟩ := fields9 (w := w) (c := 63) (g := g.val) (d := d.val) (a := a.val)
    (b := 0) (m := 2) (by omega) (by decide) (by omega) (by omega) (by omega) (by omega) (by omega)
  clear hw
  rw [major3F hc, decodeMajor3F, hm, if_neg (by decide), if_neg (by decide), if_pos rfl, fin_of (x := g) hg, fin_of (x := d) hd,
    fin_of (x := a) ha]

theorem ldaq (g : Guard) (d : Reg) (a : Reg) (c : Scope) (z : DSize) (x : Bool) (o : BitVec 9) : Statement (.ldaq g d a c z x o) := of_word rfl rfl fun w _ hw => by
  have := scope_lt c
  have := dsize_lt z
  have := x.toNat_lt
  have h1 : w / 2048 % 4 = c.code := by omega
  have h2 : w / 1024 % 2 = z.code := by omega
  rw [major40 (by omega), decodeMajor40, h1, scope_code, Option.bind_some, h2, dsize_code, Option.bind_some,
    fin_of (x := g) (by omega), fin_of (x := d) (by omega), fin_of (x := a) (by omega), bool_of (b := x) (by omega),
    bv_of (x := o) (by omega)]

theorem strl (g : Guard) (d : Reg) (a : Reg) (c : Scope) (z : DSize) (o : BitVec 9) : Statement (.strl g d a c z o) := of_word rfl rfl fun w _ hw => by
  have := scope_lt c
  have := dsize_lt z
  obtain ⟨hc, hg, hd, ha, hm⟩ := fields13 (w := w) (c := 65) (g := g.val) (d := d.val) (a := a.val)
    (m := c.code * 2048 + z.code * 1024 + o.toNat) (by omega) (by decide) (by omega) (by omega) (by omega) (by omega)
  clear hw
  have h1 : w / 2048 % 4 = c.code := by omega
  have h2 : w / 1024 % 2 = z.code := by omega
  rw [major41 hc, decodeMajor41, h1, scope_code, Option.bind_some, h2, dsize_code, Option.bind_some, fin_of (x := g) hg,
    fin_of (x := d) hd, fin_of (x := a) ha, bv_of (x := o) (by omega)]

theorem fenceFull (g : Guard) (c : Scope) : Statement (.fenceFull g c) := of_word rfl rfl fun w _ hw => by
  have := scope_lt c
  obtain ⟨hc, hg, hd, ha, hb, hm⟩ := fields9 (w := w) (c := 66) (g := g.val) (d := 0) (a := 0)
    (b := 0) (m := c.code * 128) (by omega) (by decide) (by omega) (by omega) (by omega) (by omega) (by omega)
  clear hw
  have h1 : w / 128 % 4 = c.code := by omega
  rw [major42 hc, decodeMajor42, if_pos (by omega), h1, scope_code, Option.bind_some, fin_of (x := g) hg]

theorem fenceAcq (g : Guard) (c : Scope) : Statement (.fenceAcq g c) := of_word rfl rfl fun w _ hw => by
  have := scope_lt c
  obtain ⟨hc, hg, hd, ha, hb, hm⟩ := fields9 (w := w) (c := 66) (g := g.val) (d := 0) (a := 0)
    (b := 0) (m := 1 + c.code * 128) (by omega) (by decide) (by omega) (by omega) (by omega) (by omega) (by omega)
  clear hw
  have h0 : w % 128 = 1 := by omega
  have h1 : w / 128 % 4 = c.code := by omega
  rw [major42 hc, decodeMajor42, h0, if_neg (by decide), if_pos rfl, h1, scope_code, Option.bind_some, fin_of (x := g) hg]

theorem fenceRel (g : Guard) (c : Scope) : Statement (.fenceRel g c) := of_word rfl rfl fun w _ hw => by
  have := scope_lt c
  obtain ⟨hc, hg, hd, ha, hb, hm⟩ := fields9 (w := w) (c := 66) (g := g.val) (d := 0) (a := 0)
    (b := 0) (m := 2 + c.code * 128) (by omega) (by decide) (by omega) (by omega) (by omega) (by omega) (by omega)
  clear hw
  have h0 : w % 128 = 2 := by omega
  have h1 : w / 128 % 4 = c.code := by omega
  rw [major42 hc, decodeMajor42, h0, if_neg (by decide), if_neg (by decide), if_pos rfl, h1, scope_code, Option.bind_some,
    fin_of (x := g) hg]

theorem stsync (g : Guard) (c : Scope) : Statement (.stsync g c) := of_word rfl rfl fun w _ hw => by
  have := scope_lt c
  obtain ⟨hc, hg, hd, ha, hb, hm⟩ := fields9 (w := w) (c := 67) (g := g.val) (d := 0) (a := 0)
    (b := 0) (m := c.code * 128) (by omega) (by decide) (by omega) (by omega) (by omega) (by omega) (by omega)
  clear hw
  have h1 : w / 128 % 4 = c.code := by omega
  rw [major43 hc, decodeMajor43, h1, scope_code, Option.bind_some, fin_of (x := g) hg]

theorem rsv (g : Guard) (d : Reg) (a : Reg) (s : DSize) (o : BitVec 9) : Statement (.rsv g d a s o) := of_word rfl rfl fun w _ hw => by
  have := dsize_lt s
  obtain ⟨hc, hg, hd, ha, hm⟩ := fields13 (w := w) (c := 68) (g := g.val) (d := d.val) (a := a.val)
    (m := 4096 + s.code * 2048 + o.toNat) (by omega) (by decide) (by omega) (by omega) (by omega) (by omega)
  clear hw
  have h1 : w / 2048 % 2 = s.code := by omega
  rw [major44 hc, decodeMajor44, h1, dsize_code, Option.bind_some, fin_of (x := g) hg, fin_of (x := d) hd, fin_of (x := a) ha,
    bv_of (x := o) (by omega)]

theorem rls (g : Guard) (d : Reg) (a : Reg) (s : DSize) (o : BitVec 9) : Statement (.rls g d a s o) := of_word rfl rfl fun w _ hw => by
  have := dsize_lt s
  obtain ⟨hc, hg, hd, ha, hm⟩ := fields13 (w := w) (c := 69) (g := g.val) (d := d.val) (a := a.val)
    (m := 4096 + s.code * 2048 + o.toNat) (by omega) (by decide) (by omega) (by omega) (by omega) (by omega)
  clear hw
  have h1 : w / 2048 % 2 = s.code := by omega
  rw [major45 hc, decodeMajor45, h1, dsize_code, Option.bind_some, fin_of (x := g) hg, fin_of (x := d) hd, fin_of (x := a) ha,
    bv_of (x := o) (by omega)]

theorem rlsn (g : Guard) (a : Reg) (s : DSize) (o : BitVec 9) : Statement (.rlsn g a s o) := of_word rfl rfl fun w _ hw => by
  have := dsize_lt s
  obtain ⟨hc, hg, hd, ha, hm⟩ := fields13 (w := w) (c := 70) (g := g.val) (d := 0) (a := a.val)
    (m := 4096 + s.code * 2048 + o.toNat) (by omega) (by decide) (by omega) (by omega) (by omega) (by omega)
  clear hw
  have h1 : w / 2048 % 2 = s.code := by omega
  rw [major46 hc, decodeMajor46, h1, dsize_code, Option.bind_some, fin_of (x := g) hg, fin_of (x := a) ha,
    bv_of (x := o) (by omega)]

theorem lamo (g : Guard) (d : Reg) (a : Reg) (b : Reg) (o : AOp) (s : DSize) : Statement (.lamo g d a b o s) := of_word rfl rfl fun w _ hw => by
  have := aop_lt o
  have := dsize_lt s
  obtain ⟨hc, hg, hd, ha, hb, hm⟩ := fields9 (w := w) (c := 71) (g := g.val) (d := d.val) (a := a.val)
    (b := b.val) (m := o.code * 64 + s.code * 32) (by omega) (by decide) (by omega) (by omega) (by omega) (by omega) (by omega)
  clear hw
  have h1 : w / 64 % 8 = o.code := by omega
  have h2 : w / 32 % 2 = s.code := by omega
  rw [major47 hc, decodeMajor47, h1, aop_code, Option.bind_some, h2, dsize_code, Option.bind_some, fin_of (x := g) hg,
    fin_of (x := d) hd, fin_of (x := a) ha, fin_of (x := b) hb]

theorem mon (g : Guard) (a : Reg) : Statement (.mon g a) := of_word rfl rfl fun w _ hw => by
  obtain ⟨hc, hg, hd, ha, hb, hm⟩ := fields9 (w := w) (c := 72) (g := g.val) (d := 0) (a := a.val)
    (b := 0) (m := 0) (by omega) (by decide) (by omega) (by omega) (by omega) (by omega) (by omega)
  clear hw
  rw [major48 hc, decodeMajor48, if_pos (by omega), fin_of (x := g) hg, fin_of (x := a) ha]

theorem mwait (g : Guard) (d : Reg) (a : Reg) : Statement (.mwait g d a) := of_word rfl rfl fun w _ hw => by
  obtain ⟨hc, hg, hd, ha, hb, hm⟩ := fields9 (w := w) (c := 72) (g := g.val) (d := d.val) (a := a.val)
    (b := 0) (m := 1) (by omega) (by decide) (by omega) (by omega) (by omega) (by omega) (by omega)
  clear hw
  rw [major48 hc, decodeMajor48, hm, if_neg (by decide), if_pos rfl, fin_of (x := g) hg, fin_of (x := d) hd, fin_of (x := a) ha]

theorem moff (g : Guard) (a : Reg) : Statement (.moff g a) := of_word rfl rfl fun w _ hw => by
  obtain ⟨hc, hg, hd, ha, hb, hm⟩ := fields9 (w := w) (c := 72) (g := g.val) (d := 0) (a := a.val)
    (b := 0) (m := 2) (by omega) (by decide) (by omega) (by omega) (by omega) (by omega) (by omega)
  clear hw
  rw [major48 hc, decodeMajor48, hm, if_neg (by decide), if_neg (by decide), if_pos rfl, fin_of (x := g) hg, fin_of (x := a) ha]

theorem bari (g : Guard) (a : Reg) (b : Reg) : Statement (.bari g a b) := of_word rfl rfl fun w _ hw => by
  obtain ⟨hc, hg, hd, ha, hb, hm⟩ := fields9 (w := w) (c := 73) (g := g.val) (d := 0) (a := a.val)
    (b := b.val) (m := 0) (by omega) (by decide) (by omega) (by omega) (by omega) (by omega) (by omega)
  clear hw
  rw [major49 hc, decodeMajor49, if_pos (by omega), fin_of (x := g) hg, fin_of (x := a) ha, fin_of (x := b) hb]

theorem bara (g : Guard) (d : Reg) (a : Reg) : Statement (.bara g d a) := of_word rfl rfl fun w _ hw => by
  obtain ⟨hc, hg, hd, ha, hb, hm⟩ := fields9 (w := w) (c := 73) (g := g.val) (d := d.val) (a := a.val)
    (b := 0) (m := 1) (by omega) (by decide) (by omega) (by omega) (by omega) (by omega) (by omega)
  clear hw
  rw [major49 hc, decodeMajor49, hm, if_neg (by decide), if_pos rfl, fin_of (x := g) hg, fin_of (x := d) hd, fin_of (x := a) ha]

theorem bard (g : Guard) (d : Reg) (a : Reg) : Statement (.bard g d a) := of_word rfl rfl fun w _ hw => by
  obtain ⟨hc, hg, hd, ha, hb, hm⟩ := fields9 (w := w) (c := 73) (g := g.val) (d := d.val) (a := a.val)
    (b := 0) (m := 2) (by omega) (by decide) (by omega) (by omega) (by omega) (by omega) (by omega)
  clear hw
  rw [major49 hc, decodeMajor49, hm, if_neg (by decide), if_neg (by decide), if_pos rfl, fin_of (x := g) hg, fin_of (x := d) hd,
    fin_of (x := a) ha]

theorem barw (g : Guard) (a : Reg) (b : Reg) : Statement (.barw g a b) := of_word rfl rfl fun w _ hw => by
  obtain ⟨hc, hg, hd, ha, hb, hm⟩ := fields9 (w := w) (c := 73) (g := g.val) (d := 0) (a := a.val)
    (b := b.val) (m := 3) (by omega) (by decide) (by omega) (by omega) (by omega) (by omega) (by omega)
  clear hw
  rw [major49 hc, decodeMajor49, hm]
  iterate 3 rw [if_neg (by decide)]
  rw [if_pos rfl, fin_of (x := g) hg,
    fin_of (x := a) ha, fin_of (x := b) hb]

theorem exit (g : Guard) : Statement (.exit g) := of_word rfl rfl fun w _ hw => by
  obtain ⟨hc, hg, hd, ha, hb, hm⟩ := fields9 (w := w) (c := 76) (g := g.val) (d := 0) (a := 0)
    (b := 0) (m := 0) (by omega) (by decide) (by omega) (by omega) (by omega) (by omega) (by omega)
  clear hw
  rw [major4C hc, decodeMajor4C, if_pos (by omega), fin_of (x := g) hg]

theorem yield (g : Guard) : Statement (.yield g) := of_word rfl rfl fun w _ hw => by
  obtain ⟨hc, hg, hd, ha, hb, hm⟩ := fields9 (w := w) (c := 76) (g := g.val) (d := 0) (a := 0)
    (b := 0) (m := 1) (by omega) (by decide) (by omega) (by omega) (by omega) (by omega) (by omega)
  clear hw
  rw [major4C hc, decodeMajor4C, hm, if_neg (by decide), if_pos rfl, fin_of (x := g) hg]

theorem anchor (g : Guard) : Statement (.anchor g) := of_word rfl rfl fun w _ hw => by
  obtain ⟨hc, hg, hd, ha, hb, hm⟩ := fields9 (w := w) (c := 76) (g := g.val) (d := 0) (a := 0)
    (b := 0) (m := 2) (by omega) (by decide) (by omega) (by omega) (by omega) (by omega) (by omega)
  clear hw
  rw [major4C hc, decodeMajor4C, hm, if_neg (by decide), if_neg (by decide), if_pos rfl, fin_of (x := g) hg]

theorem roam (g : Guard) : Statement (.roam g) := of_word rfl rfl fun w _ hw => by
  obtain ⟨hc, hg, hd, ha, hb, hm⟩ := fields9 (w := w) (c := 76) (g := g.val) (d := 0) (a := 0)
    (b := 0) (m := 3) (by omega) (by decide) (by omega) (by omega) (by omega) (by omega) (by omega)
  clear hw
  rw [major4C hc, decodeMajor4C, hm]
  iterate 3 rw [if_neg (by decide)]
  rw [if_pos rfl, fin_of (x := g) hg]

theorem migr (g : Guard) (a : Reg) : Statement (.migr g a) := of_word rfl rfl fun w _ hw => by
  obtain ⟨hc, hg, hd, ha, hb, hm⟩ := fields9 (w := w) (c := 76) (g := g.val) (d := 0) (a := a.val)
    (b := 0) (m := 4) (by omega) (by decide) (by omega) (by omega) (by omega) (by omega) (by omega)
  clear hw
  rw [major4C hc, decodeMajor4C, hm]
  iterate 4 rw [if_neg (by decide)]
  rw [if_pos rfl,
    fin_of (x := g) hg, fin_of (x := a) ha]

theorem who (g : Guard) (d : Reg) : Statement (.who g d) := of_word rfl rfl fun w _ hw => by
  obtain ⟨hc, hg, hd, ha, hb, hm⟩ := fields9 (w := w) (c := 76) (g := g.val) (d := d.val) (a := 0)
    (b := 0) (m := 5) (by omega) (by decide) (by omega) (by omega) (by omega) (by omega) (by omega)
  clear hw
  rw [major4C hc, decodeMajor4C, hm]
  iterate 5 rw [if_neg (by decide)]
  rw [if_pos rfl, fin_of (x := g) hg, fin_of (x := d) hd]

theorem sleep (g : Guard) (a : Reg) : Statement (.sleep g a) := of_word rfl rfl fun w _ hw => by
  obtain ⟨hc, hg, hd, ha, hb, hm⟩ := fields9 (w := w) (c := 76) (g := g.val) (d := 0) (a := a.val)
    (b := 0) (m := 6) (by omega) (by decide) (by omega) (by omega) (by omega) (by omega) (by omega)
  clear hw
  rw [major4C hc, decodeMajor4C, hm]
  iterate 6 rw [if_neg (by decide)]
  rw [if_pos rfl, fin_of (x := g) hg, fin_of (x := a) ha]

theorem spawn (g : Guard) (d : Reg) (a : Reg) (b : Reg) : Statement (.spawn g d a b) := of_word rfl rfl fun w _ hw => by
  obtain ⟨hc, hg, hd, ha, hb, hm⟩ := fields9 (w := w) (c := 76) (g := g.val) (d := d.val) (a := a.val)
    (b := b.val) (m := 7) (by omega) (by decide) (by omega) (by omega) (by omega) (by omega) (by omega)
  clear hw
  rw [major4C hc, decodeMajor4C, hm]
  iterate 7 rw [if_neg (by decide)]
  rw [if_pos rfl, fin_of (x := g) hg, fin_of (x := d) hd,
    fin_of (x := a) ha, fin_of (x := b) hb]

theorem tnext (g : Guard) : Statement (.tnext g) := of_word rfl rfl fun w _ hw => by
  obtain ⟨hc, hg, hd, ha, hb, hm⟩ := fields9 (w := w) (c := 76) (g := g.val) (d := 0) (a := 0)
    (b := 0) (m := 8) (by omega) (by decide) (by omega) (by omega) (by omega) (by omega) (by omega)
  clear hw
  rw [major4C hc, decodeMajor4C, hm]
  iterate 8 rw [if_neg (by decide)]
  rw [if_pos rfl, fin_of (x := g) hg]

theorem twait (g : Guard) (d : Reg) (a : Reg) (b : Reg) : Statement (.twait g d a b) := of_word rfl rfl fun w _ hw => by
  obtain ⟨hc, hg, hd, ha, hb, hm⟩ := fields9 (w := w) (c := 76) (g := g.val) (d := d.val) (a := a.val)
    (b := b.val) (m := 9) (by omega) (by decide) (by omega) (by omega) (by omega) (by omega) (by omega)
  clear hw
  rw [major4C hc, decodeMajor4C, hm]
  iterate 9 rw [if_neg (by decide)]
  rw [if_pos rfl,
    fin_of (x := g) hg, fin_of (x := d) hd, fin_of (x := a) ha, fin_of (x := b) hb]

theorem send (g : Guard) (p : Pred) (a : Reg) (b : Reg) (h : Bool) : Statement (.send g p a b h) := of_word rfl rfl fun w _ hw => by
  have := h.toNat_lt
  obtain ⟨hc, hg, hd, ha, hb, hm⟩ := fields9 (w := w) (c := 77) (g := g.val) (d := p.val) (a := a.val)
    (b := b.val) (m := h.toNat * 256) (by omega) (by decide) (by omega) (by omega) (by omega) (by omega) (by omega)
  clear hw
  rw [major4D hc, decodeMajor4D, if_pos (by omega), fin_of (x := g) hg, fin_of (x := p) (mod8 hd p.isLt), fin_of (x := a) ha,
    fin_of (x := b) hb, bool_of (b := h) (by omega)]

theorem inbox (g : Guard) (d : Reg) (a : Reg) : Statement (.inbox g d a) := of_word rfl rfl fun w _ hw => by
  obtain ⟨hc, hg, hd, ha, hb, hm⟩ := fields9 (w := w) (c := 77) (g := g.val) (d := d.val) (a := a.val)
    (b := 0) (m := 1) (by omega) (by decide) (by omega) (by omega) (by omega) (by omega) (by omega)
  clear hw
  rw [major4D hc, decodeMajor4D, if_neg (by omega), if_pos (by omega), fin_of (x := g) hg, fin_of (x := d) hd, fin_of (x := a) ha]

theorem ipeek (g : Guard) (d : Reg) : Statement (.ipeek g d) := of_word rfl rfl fun w _ hw => by
  obtain ⟨hc, hg, hd, ha, hb, hm⟩ := fields9 (w := w) (c := 77) (g := g.val) (d := d.val) (a := 0)
    (b := 0) (m := 2) (by omega) (by decide) (by omega) (by omega) (by omega) (by omega) (by omega)
  clear hw
  rw [major4D hc, decodeMajor4D]
  iterate 2 rw [if_neg (by omega)]
  rw [if_pos (by omega), fin_of (x := g) hg, fin_of (x := d) hd]

theorem launch (g : Guard) (p : Pred) (a : Reg) (z : Bool) : Statement (.launch g p a z) := of_word rfl rfl fun w _ hw => by
  have := z.toNat_lt
  obtain ⟨hc, hg, hd, ha, hb, hm⟩ := fields9 (w := w) (c := 78) (g := g.val) (d := p.val) (a := a.val)
    (b := 0) (m := z.toNat) (by omega) (by decide) (by omega) (by omega) (by omega) (by omega) (by omega)
  clear hw
  rw [major4E hc, decodeMajor4E, fin_of (x := g) hg, fin_of (x := p) (mod8 hd p.isLt), fin_of (x := a) ha,
    bool_of (b := z) (by omega)]

theorem vadd (g : Guard) (d : Reg) (a : Reg) (b : Reg) (t : Elem) (r : Rnd) : Statement (.vadd g d a b t r) := of_word rfl rfl fun w _ hw => by
  have := elem_lt t
  have := rnd_lt r
  obtain ⟨hc, hg, hd, ha, hb, hm⟩ := fields9 (w := w) (c := 84) (g := g.val) (d := d.val) (a := a.val)
    (b := b.val) (m := t.code * 32 + r.code * 4) (by omega) (by decide) (by omega) (by omega) (by omega) (by omega) (by omega)
  clear hw
  have h1 : w / 32 % 16 = t.code := by omega
  have h2 : w / 4 % 8 = r.code := by omega
  rw [major54 hc, decodeMajor54, h1, elem_code, Option.bind_some, h2, rnd_code, Option.bind_some, fin_of (x := g) hg,
    fin_of (x := d) hd, fin_of (x := a) ha, fin_of (x := b) hb]

theorem vsub (g : Guard) (d : Reg) (a : Reg) (b : Reg) (t : Elem) (r : Rnd) : Statement (.vsub g d a b t r) := of_word rfl rfl fun w _ hw => by
  have := elem_lt t
  have := rnd_lt r
  obtain ⟨hc, hg, hd, ha, hb, hm⟩ := fields9 (w := w) (c := 85) (g := g.val) (d := d.val) (a := a.val)
    (b := b.val) (m := t.code * 32 + r.code * 4) (by omega) (by decide) (by omega) (by omega) (by omega) (by omega) (by omega)
  clear hw
  have h1 : w / 32 % 16 = t.code := by omega
  have h2 : w / 4 % 8 = r.code := by omega
  rw [major55 hc, decodeMajor55, h1, elem_code, Option.bind_some, h2, rnd_code, Option.bind_some, fin_of (x := g) hg,
    fin_of (x := d) hd, fin_of (x := a) ha, fin_of (x := b) hb]

theorem vmul (g : Guard) (d : Reg) (a : Reg) (b : Reg) (t : Elem) (r : Rnd) : Statement (.vmul g d a b t r) := of_word rfl rfl fun w _ hw => by
  have := elem_lt t
  have := rnd_lt r
  obtain ⟨hc, hg, hd, ha, hb, hm⟩ := fields9 (w := w) (c := 86) (g := g.val) (d := d.val) (a := a.val)
    (b := b.val) (m := t.code * 32 + r.code * 4) (by omega) (by decide) (by omega) (by omega) (by omega) (by omega) (by omega)
  clear hw
  have h1 : w / 32 % 16 = t.code := by omega
  have h2 : w / 4 % 8 = r.code := by omega
  rw [major56 hc, decodeMajor56, h1, elem_code, Option.bind_some, h2, rnd_code, Option.bind_some, fin_of (x := g) hg,
    fin_of (x := d) hd, fin_of (x := a) ha, fin_of (x := b) hb]

theorem vfma (g : Guard) (d : Reg) (a : Reg) (b : Reg) (t : Elem) (r : Rnd) : Statement (.vfma g d a b t r) := of_word rfl rfl fun w _ hw => by
  have := elem_lt t
  have := rnd_lt r
  obtain ⟨hc, hg, hd, ha, hb, hm⟩ := fields9 (w := w) (c := 87) (g := g.val) (d := d.val) (a := a.val)
    (b := b.val) (m := t.code * 32 + r.code * 4) (by omega) (by decide) (by omega) (by omega) (by omega) (by omega) (by omega)
  clear hw
  have h1 : w / 32 % 16 = t.code := by omega
  have h2 : w / 4 % 8 = r.code := by omega
  rw [major57 hc, decodeMajor57, h1, elem_code, Option.bind_some, h2, rnd_code, Option.bind_some, fin_of (x := g) hg,
    fin_of (x := d) hd, fin_of (x := a) ha, fin_of (x := b) hb]

theorem vmin (g : Guard) (d : Reg) (a : Reg) (b : Reg) (t : Elem) (r : Rnd) : Statement (.vmin g d a b t r) := of_word rfl rfl fun w _ hw => by
  have := elem_lt t
  have := rnd_lt r
  obtain ⟨hc, hg, hd, ha, hb, hm⟩ := fields9 (w := w) (c := 88) (g := g.val) (d := d.val) (a := a.val)
    (b := b.val) (m := t.code * 32 + r.code * 4) (by omega) (by decide) (by omega) (by omega) (by omega) (by omega) (by omega)
  clear hw
  have h1 : w / 32 % 16 = t.code := by omega
  have h2 : w / 4 % 8 = r.code := by omega
  rw [major58 hc, decodeMajor58, h1, elem_code, Option.bind_some, h2, rnd_code, Option.bind_some, fin_of (x := g) hg,
    fin_of (x := d) hd, fin_of (x := a) ha, fin_of (x := b) hb]

theorem vmax (g : Guard) (d : Reg) (a : Reg) (b : Reg) (t : Elem) (r : Rnd) : Statement (.vmax g d a b t r) := of_word rfl rfl fun w _ hw => by
  have := elem_lt t
  have := rnd_lt r
  obtain ⟨hc, hg, hd, ha, hb, hm⟩ := fields9 (w := w) (c := 89) (g := g.val) (d := d.val) (a := a.val)
    (b := b.val) (m := t.code * 32 + r.code * 4) (by omega) (by decide) (by omega) (by omega) (by omega) (by omega) (by omega)
  clear hw
  have h1 : w / 32 % 16 = t.code := by omega
  have h2 : w / 4 % 8 = r.code := by omega
  rw [major59 hc, decodeMajor59, h1, elem_code, Option.bind_some, h2, rnd_code, Option.bind_some, fin_of (x := g) hg,
    fin_of (x := d) hd, fin_of (x := a) ha, fin_of (x := b) hb]

theorem vabs (g : Guard) (d : Reg) (a : Reg) (t : Elem) : Statement (.vabs g d a t) := of_word rfl rfl fun w _ hw => by
  have := elem_lt t
  obtain ⟨hc, hg, hd, ha, hb, hm⟩ := fields9 (w := w) (c := 90) (g := g.val) (d := d.val) (a := a.val)
    (b := 0) (m := t.code * 32) (by omega) (by decide) (by omega) (by omega) (by omega) (by omega) (by omega)
  clear hw
  have h1 : w / 32 % 16 = t.code := by omega
  rw [major5A hc, decodeMajor5A, if_pos (by omega), h1, elem_code, Option.bind_some, fin_of (x := g) hg, fin_of (x := d) hd,
    fin_of (x := a) ha]

theorem vneg (g : Guard) (d : Reg) (a : Reg) (t : Elem) : Statement (.vneg g d a t) := of_word rfl rfl fun w _ hw => by
  have := elem_lt t
  obtain ⟨hc, hg, hd, ha, hb, hm⟩ := fields9 (w := w) (c := 90) (g := g.val) (d := d.val) (a := a.val)
    (b := 0) (m := 1 + t.code * 32) (by omega) (by decide) (by omega) (by omega) (by omega) (by omega) (by omega)
  clear hw
  have h0 : w % 32 = 1 := by omega
  have h1 : w / 32 % 16 = t.code := by omega
  rw [major5A hc, decodeMajor5A, h0, if_neg (by decide), if_pos rfl, h1, elem_code, Option.bind_some, fin_of (x := g) hg,
    fin_of (x := d) hd, fin_of (x := a) ha]

theorem vand (g : Guard) (d : Reg) (a : Reg) (b : Reg) (t : Elem) : Statement (.vand g d a b t) := of_word rfl rfl fun w _ hw => by
  have := elem_lt t
  obtain ⟨hc, hg, hd, ha, hb, hm⟩ := fields9 (w := w) (c := 91) (g := g.val) (d := d.val) (a := a.val)
    (b := b.val) (m := t.code * 32) (by omega) (by decide) (by omega) (by omega) (by omega) (by omega) (by omega)
  clear hw
  have h1 : w / 32 % 16 = t.code := by omega
  rw [major5B hc, decodeMajor5B, if_pos (by omega), h1, elem_code, Option.bind_some, fin_of (x := g) hg, fin_of (x := d) hd,
    fin_of (x := a) ha, fin_of (x := b) hb]

theorem vor (g : Guard) (d : Reg) (a : Reg) (b : Reg) (t : Elem) : Statement (.vor g d a b t) := of_word rfl rfl fun w _ hw => by
  have := elem_lt t
  obtain ⟨hc, hg, hd, ha, hb, hm⟩ := fields9 (w := w) (c := 91) (g := g.val) (d := d.val) (a := a.val)
    (b := b.val) (m := 1 + t.code * 32) (by omega) (by decide) (by omega) (by omega) (by omega) (by omega) (by omega)
  clear hw
  have h0 : w % 32 = 1 := by omega
  have h1 : w / 32 % 16 = t.code := by omega
  rw [major5B hc, decodeMajor5B, h0, if_neg (by decide), if_pos rfl, h1, elem_code, Option.bind_some, fin_of (x := g) hg,
    fin_of (x := d) hd, fin_of (x := a) ha, fin_of (x := b) hb]

theorem vxor (g : Guard) (d : Reg) (a : Reg) (b : Reg) (t : Elem) : Statement (.vxor g d a b t) := of_word rfl rfl fun w _ hw => by
  have := elem_lt t
  obtain ⟨hc, hg, hd, ha, hb, hm⟩ := fields9 (w := w) (c := 91) (g := g.val) (d := d.val) (a := a.val)
    (b := b.val) (m := 2 + t.code * 32) (by omega) (by decide) (by omega) (by omega) (by omega) (by omega) (by omega)
  clear hw
  have h0 : w % 32 = 2 := by omega
  have h1 : w / 32 % 16 = t.code := by omega
  rw [major5B hc, decodeMajor5B, h0, if_neg (by decide), if_neg (by decide), if_pos rfl, h1, elem_code, Option.bind_some,
    fin_of (x := g) hg, fin_of (x := d) hd, fin_of (x := a) ha, fin_of (x := b) hb]

theorem vshl (g : Guard) (d : Reg) (a : Reg) (b : Reg) (t : Elem) : Statement (.vshl g d a b t) := of_word rfl rfl fun w _ hw => by
  have := elem_lt t
  obtain ⟨hc, hg, hd, ha, hb, hm⟩ := fields9 (w := w) (c := 92) (g := g.val) (d := d.val) (a := a.val)
    (b := b.val) (m := t.code * 32) (by omega) (by decide) (by omega) (by omega) (by omega) (by omega) (by omega)
  clear hw
  have h1 : w / 32 % 16 = t.code := by omega
  rw [major5C hc, decodeMajor5C, if_pos (by omega), h1, elem_code, Option.bind_some, fin_of (x := g) hg, fin_of (x := d) hd,
    fin_of (x := a) ha, fin_of (x := b) hb]

theorem vshr (g : Guard) (d : Reg) (a : Reg) (b : Reg) (t : Elem) : Statement (.vshr g d a b t) := of_word rfl rfl fun w _ hw => by
  have := elem_lt t
  obtain ⟨hc, hg, hd, ha, hb, hm⟩ := fields9 (w := w) (c := 92) (g := g.val) (d := d.val) (a := a.val)
    (b := b.val) (m := 1 + t.code * 32) (by omega) (by decide) (by omega) (by omega) (by omega) (by omega) (by omega)
  clear hw
  have h0 : w % 32 = 1 := by omega
  have h1 : w / 32 % 16 = t.code := by omega
  rw [major5C hc, decodeMajor5C, h0, if_neg (by decide), if_pos rfl, h1, elem_code, Option.bind_some, fin_of (x := g) hg,
    fin_of (x := d) hd, fin_of (x := a) ha, fin_of (x := b) hb]

theorem vsra (g : Guard) (d : Reg) (a : Reg) (b : Reg) (t : Elem) : Statement (.vsra g d a b t) := of_word rfl rfl fun w _ hw => by
  have := elem_lt t
  obtain ⟨hc, hg, hd, ha, hb, hm⟩ := fields9 (w := w) (c := 92) (g := g.val) (d := d.val) (a := a.val)
    (b := b.val) (m := 2 + t.code * 32) (by omega) (by decide) (by omega) (by omega) (by omega) (by omega) (by omega)
  clear hw
  have h0 : w % 32 = 2 := by omega
  have h1 : w / 32 % 16 = t.code := by omega
  rw [major5C hc, decodeMajor5C, h0, if_neg (by decide), if_neg (by decide), if_pos rfl, h1, elem_code, Option.bind_some,
    fin_of (x := g) hg, fin_of (x := d) hd, fin_of (x := a) ha, fin_of (x := b) hb]

theorem vcmp (g : Guard) (d : Reg) (a : Reg) (b : Reg) (t : Elem) (c : VCond) : Statement (.vcmp g d a b t c) := of_word rfl rfl fun w _ hw => by
  have := elem_lt t
  have := vcond_lt c
  obtain ⟨hc, hg, hd, ha, hb, hm⟩ := fields9 (w := w) (c := 93) (g := g.val) (d := d.val) (a := a.val)
    (b := b.val) (m := t.code * 32 + c.code * 4) (by omega) (by decide) (by omega) (by omega) (by omega) (by omega) (by omega)
  clear hw
  have h1 : w / 32 % 16 = t.code := by omega
  have h2 : w / 4 % 8 = c.code := by omega
  rw [major5D hc, decodeMajor5D, h1, elem_code, Option.bind_some, h2, vcond_code, Option.bind_some, fin_of (x := g) hg,
    fin_of (x := d) hd, fin_of (x := a) ha, fin_of (x := b) hb]

theorem vsel (g : Guard) (d : Reg) (a : Reg) (b : Reg) (t : Elem) : Statement (.vsel g d a b t) := of_word rfl rfl fun w _ hw => by
  have := elem_lt t
  obtain ⟨hc, hg, hd, ha, hb, hm⟩ := fields9 (w := w) (c := 94) (g := g.val) (d := d.val) (a := a.val)
    (b := b.val) (m := t.code * 32) (by omega) (by decide) (by omega) (by omega) (by omega) (by omega) (by omega)
  clear hw
  have h1 : w / 32 % 16 = t.code := by omega
  rw [major5E hc, decodeMajor5E, h1, elem_code, Option.bind_some, fin_of (x := g) hg, fin_of (x := d) hd, fin_of (x := a) ha,
    fin_of (x := b) hb]

theorem vcvt (g : Guard) (d : Reg) (a : Reg) (s : Elem) (t : Elem) (r : Rnd) : Statement (.vcvt g d a s t r) := of_word rfl rfl fun w _ hw => by
  have := elem_lt s
  have := elem_lt t
  have := rnd_lt r
  obtain ⟨hc, hg, hd, ha, hb, hm⟩ := fields9 (w := w) (c := 95) (g := g.val) (d := d.val) (a := a.val)
    (b := s.code) (m := t.code * 32 + r.code * 4) (by omega) (by decide) (by omega) (by omega) (by omega) (by omega) (by omega)
  clear hw
  have h1 : w / 512 % 16 = s.code := by omega
  have h2 : w / 32 % 16 = t.code := by omega
  have h3 : w / 4 % 8 = r.code := by omega
  rw [major5F hc, decodeMajor5F, h1, elem_code, Option.bind_some, h2, elem_code, Option.bind_some, h3, rnd_code,
    Option.bind_some, fin_of (x := g) hg, fin_of (x := d) hd, fin_of (x := a) ha]

theorem vscl (g : Guard) (d : Reg) (a : Reg) (b : Reg) (t : Elem) (r : Rnd) : Statement (.vscl g d a b t r) := of_word rfl rfl fun w _ hw => by
  have := elem_lt t
  have := rnd_lt r
  obtain ⟨hc, hg, hd, ha, hb, hm⟩ := fields9 (w := w) (c := 96) (g := g.val) (d := d.val) (a := a.val)
    (b := b.val) (m := t.code * 32 + r.code * 4) (by omega) (by decide) (by omega) (by omega) (by omega) (by omega) (by omega)
  clear hw
  have h1 : w / 32 % 16 = t.code := by omega
  have h2 : w / 4 % 8 = r.code := by omega
  rw [major60 hc, decodeMajor60, h1, elem_code, Option.bind_some, h2, rnd_code, Option.bind_some, fin_of (x := g) hg,
    fin_of (x := d) hd, fin_of (x := a) ha, fin_of (x := b) hb]

theorem vreds (g : Guard) (d : Reg) (a : Reg) (t : Elem) (r : Rnd) : Statement (.vreds g d a t r) := of_word rfl rfl fun w _ hw => by
  have := elem_lt t
  have := rnd_lt r
  obtain ⟨hc, hg, hd, ha, hb, hm⟩ := fields9 (w := w) (c := 97) (g := g.val) (d := d.val) (a := a.val)
    (b := 0) (m := t.code * 32 + r.code * 4) (by omega) (by decide) (by omega) (by omega) (by omega) (by omega) (by omega)
  clear hw
  have h1 : w / 32 % 16 = t.code := by omega
  have h2 : w / 4 % 8 = r.code := by omega
  rw [major61 hc, decodeMajor61, if_pos (by omega), h1, elem_code, Option.bind_some, h2, rnd_code, Option.bind_some,
    fin_of (x := g) hg, fin_of (x := d) hd, fin_of (x := a) ha]

theorem vredm (g : Guard) (d : Reg) (a : Reg) (t : Elem) : Statement (.vredm g d a t) := of_word rfl rfl fun w _ hw => by
  have := elem_lt t
  obtain ⟨hc, hg, hd, ha, hb, hm⟩ := fields9 (w := w) (c := 97) (g := g.val) (d := d.val) (a := a.val)
    (b := 0) (m := 1 + t.code * 32) (by omega) (by decide) (by omega) (by omega) (by omega) (by omega) (by omega)
  clear hw
  have h1 : w / 32 % 16 = t.code := by omega
  rw [major61 hc, decodeMajor61, if_neg (by omega), if_pos (by omega), h1, elem_code, Option.bind_some, fin_of (x := g) hg,
    fin_of (x := d) hd, fin_of (x := a) ha]

theorem vexp2 (g : Guard) (d : Reg) (a : Reg) (t : Elem) (r : Rnd) : Statement (.vexp2 g d a t r) := of_word rfl rfl fun w _ hw => by
  have := elem_lt t
  have := rnd_lt r
  obtain ⟨hc, hg, hd, ha, hb, hm⟩ := fields9 (w := w) (c := 98) (g := g.val) (d := d.val) (a := a.val)
    (b := 0) (m := t.code * 32 + r.code * 4) (by omega) (by decide) (by omega) (by omega) (by omega) (by omega) (by omega)
  clear hw
  have h1 : w / 32 % 16 = t.code := by omega
  have h2 : w / 4 % 8 = r.code := by omega
  rw [major62 hc, decodeMajor62, if_pos (by omega), h1, elem_code, Option.bind_some, h2, rnd_code, Option.bind_some,
    fin_of (x := g) hg, fin_of (x := d) hd, fin_of (x := a) ha]

theorem vlog2 (g : Guard) (d : Reg) (a : Reg) (t : Elem) (r : Rnd) : Statement (.vlog2 g d a t r) := of_word rfl rfl fun w _ hw => by
  have := elem_lt t
  have := rnd_lt r
  obtain ⟨hc, hg, hd, ha, hb, hm⟩ := fields9 (w := w) (c := 98) (g := g.val) (d := d.val) (a := a.val)
    (b := 0) (m := 1 + t.code * 32 + r.code * 4) (by omega) (by decide) (by omega) (by omega) (by omega) (by omega) (by omega)
  clear hw
  have h0 : w % 4 = 1 := by omega
  have h1 : w / 32 % 16 = t.code := by omega
  have h2 : w / 4 % 8 = r.code := by omega
  rw [major62 hc, decodeMajor62, h0, if_neg (by decide), if_pos rfl, h1, elem_code, Option.bind_some, h2, rnd_code,
    Option.bind_some, fin_of (x := g) hg, fin_of (x := d) hd, fin_of (x := a) ha]

theorem vrcp (g : Guard) (d : Reg) (a : Reg) (t : Elem) (r : Rnd) : Statement (.vrcp g d a t r) := of_word rfl rfl fun w _ hw => by
  have := elem_lt t
  have := rnd_lt r
  obtain ⟨hc, hg, hd, ha, hb, hm⟩ := fields9 (w := w) (c := 98) (g := g.val) (d := d.val) (a := a.val)
    (b := 0) (m := 2 + t.code * 32 + r.code * 4) (by omega) (by decide) (by omega) (by omega) (by omega) (by omega) (by omega)
  clear hw
  have h0 : w % 4 = 2 := by omega
  have h1 : w / 32 % 16 = t.code := by omega
  have h2 : w / 4 % 8 = r.code := by omega
  rw [major62 hc, decodeMajor62, h0, if_neg (by decide), if_neg (by decide), if_pos rfl, h1, elem_code, Option.bind_some, h2,
    rnd_code, Option.bind_some, fin_of (x := g) hg, fin_of (x := d) hd, fin_of (x := a) ha]

theorem vrsq (g : Guard) (d : Reg) (a : Reg) (t : Elem) (r : Rnd) : Statement (.vrsq g d a t r) := of_word rfl rfl fun w _ hw => by
  have := elem_lt t
  have := rnd_lt r
  obtain ⟨hc, hg, hd, ha, hb, hm⟩ := fields9 (w := w) (c := 98) (g := g.val) (d := d.val) (a := a.val)
    (b := 0) (m := 3 + t.code * 32 + r.code * 4) (by omega) (by decide) (by omega) (by omega) (by omega) (by omega) (by omega)
  clear hw
  have h0 : w % 4 = 3 := by omega
  have h1 : w / 32 % 16 = t.code := by omega
  have h2 : w / 4 % 8 = r.code := by omega
  rw [major62 hc, decodeMajor62, h0]
  iterate 3 rw [if_neg (by decide)]
  rw [if_pos rfl, h1, elem_code,
    Option.bind_some, h2, rnd_code, Option.bind_some, fin_of (x := g) hg, fin_of (x := d) hd, fin_of (x := a) ha]

theorem vdot (g : Guard) (d : Reg) (a : Reg) (b : Reg) (t : Elem) (r : Rnd) : Statement (.vdot g d a b t r) := of_word rfl rfl fun w _ hw => by
  have := elem_lt t
  have := rnd_lt r
  obtain ⟨hc, hg, hd, ha, hb, hm⟩ := fields9 (w := w) (c := 99) (g := g.val) (d := d.val) (a := a.val)
    (b := b.val) (m := t.code * 32 + r.code * 4) (by omega) (by decide) (by omega) (by omega) (by omega) (by omega) (by omega)
  clear hw
  have h1 : w / 32 % 16 = t.code := by omega
  have h2 : w / 4 % 8 = r.code := by omega
  rw [major63 hc, decodeMajor63, h1, elem_code, Option.bind_some, h2, rnd_code, Option.bind_some, fin_of (x := g) hg,
    fin_of (x := d) hd, fin_of (x := a) ha, fin_of (x := b) hb]

theorem vbc (g : Guard) (d : Reg) (a : Reg) (t : Elem) : Statement (.vbc g d a t) := of_word rfl rfl fun w _ hw => by
  have := elem_lt t
  obtain ⟨hc, hg, hd, ha, hb, hm⟩ := fields9 (w := w) (c := 100) (g := g.val) (d := d.val) (a := a.val)
    (b := 0) (m := t.code * 32) (by omega) (by decide) (by omega) (by omega) (by omega) (by omega) (by omega)
  clear hw
  have h1 : w / 32 % 16 = t.code := by omega
  rw [major64 hc, decodeMajor64, if_pos (by omega), h1, elem_code, Option.bind_some, fin_of (x := g) hg, fin_of (x := d) hd,
    fin_of (x := a) ha]

theorem vext (g : Guard) (d : Reg) (a : Reg) (b : Reg) (t : Elem) : Statement (.vext g d a b t) := of_word rfl rfl fun w _ hw => by
  have := elem_lt t
  obtain ⟨hc, hg, hd, ha, hb, hm⟩ := fields9 (w := w) (c := 100) (g := g.val) (d := d.val) (a := a.val)
    (b := b.val) (m := 1 + t.code * 32) (by omega) (by decide) (by omega) (by omega) (by omega) (by omega) (by omega)
  clear hw
  have h0 : w % 32 = 1 := by omega
  have h1 : w / 32 % 16 = t.code := by omega
  rw [major64 hc, decodeMajor64, h0, if_neg (by decide), if_pos rfl, h1, elem_code, Option.bind_some, fin_of (x := g) hg,
    fin_of (x := d) hd, fin_of (x := a) ha, fin_of (x := b) hb]

theorem vins (g : Guard) (d : Reg) (a : Reg) (b : Reg) (t : Elem) : Statement (.vins g d a b t) := of_word rfl rfl fun w _ hw => by
  have := elem_lt t
  obtain ⟨hc, hg, hd, ha, hb, hm⟩ := fields9 (w := w) (c := 100) (g := g.val) (d := d.val) (a := a.val)
    (b := b.val) (m := 2 + t.code * 32) (by omega) (by decide) (by omega) (by omega) (by omega) (by omega) (by omega)
  clear hw
  have h0 : w % 32 = 2 := by omega
  have h1 : w / 32 % 16 = t.code := by omega
  rw [major64 hc, decodeMajor64, h0, if_neg (by decide), if_neg (by decide), if_pos rfl, h1, elem_code, Option.bind_some,
    fin_of (x := g) hg, fin_of (x := d) hd, fin_of (x := a) ha, fin_of (x := b) hb]

theorem vperm (g : Guard) (d : Reg) (a : Reg) (b : Reg) (t : Elem) : Statement (.vperm g d a b t) := of_word rfl rfl fun w _ hw => by
  have := elem_lt t
  obtain ⟨hc, hg, hd, ha, hb, hm⟩ := fields9 (w := w) (c := 100) (g := g.val) (d := d.val) (a := a.val)
    (b := b.val) (m := 3 + t.code * 32) (by omega) (by decide) (by omega) (by omega) (by omega) (by omega) (by omega)
  clear hw
  have h0 : w % 32 = 3 := by omega
  have h1 : w / 32 % 16 = t.code := by omega
  rw [major64 hc, decodeMajor64, h0]
  iterate 3 rw [if_neg (by decide)]
  rw [if_pos rfl, h1, elem_code,
    Option.bind_some, fin_of (x := g) hg, fin_of (x := d) hd, fin_of (x := a) ha, fin_of (x := b) hb]

theorem vld (g : Guard) (d : Reg) (a : Reg) (t : Elem) : Statement (.vld g d a t) := of_word rfl rfl fun w _ hw => by
  have := elem_lt t
  obtain ⟨hc, hg, hd, ha, hb, hm⟩ := fields9 (w := w) (c := 101) (g := g.val) (d := d.val) (a := a.val)
    (b := 0) (m := t.code * 32) (by omega) (by decide) (by omega) (by omega) (by omega) (by omega) (by omega)
  clear hw
  have h1 : w / 32 % 16 = t.code := by omega
  rw [major65 hc, decodeMajor65, h1, elem_code, Option.bind_some, fin_of (x := g) hg, fin_of (x := d) hd, fin_of (x := a) ha]

theorem vst (g : Guard) (d : Reg) (a : Reg) (t : Elem) : Statement (.vst g d a t) := of_word rfl rfl fun w _ hw => by
  have := elem_lt t
  obtain ⟨hc, hg, hd, ha, hb, hm⟩ := fields9 (w := w) (c := 102) (g := g.val) (d := d.val) (a := a.val)
    (b := 0) (m := t.code * 32) (by omega) (by decide) (by omega) (by omega) (by omega) (by omega) (by omega)
  clear hw
  have h1 : w / 32 % 16 = t.code := by omega
  rw [major66 hc, decodeMajor66, h1, elem_code, Option.bind_some, fin_of (x := g) hg, fin_of (x := d) hd, fin_of (x := a) ha]

theorem vldx (g : Guard) (d : Reg) (a : Reg) (b : Reg) (t : Elem) : Statement (.vldx g d a b t) := of_word rfl rfl fun w _ hw => by
  have := elem_lt t
  obtain ⟨hc, hg, hd, ha, hb, hm⟩ := fields9 (w := w) (c := 103) (g := g.val) (d := d.val) (a := a.val)
    (b := b.val) (m := t.code * 32) (by omega) (by decide) (by omega) (by omega) (by omega) (by omega) (by omega)
  clear hw
  have h1 : w / 32 % 16 = t.code := by omega
  rw [major67 hc, decodeMajor67, h1, elem_code, Option.bind_some, fin_of (x := g) hg, fin_of (x := d) hd, fin_of (x := a) ha,
    fin_of (x := b) hb]

theorem vstx (g : Guard) (d : Reg) (a : Reg) (b : Reg) (t : Elem) : Statement (.vstx g d a b t) := of_word rfl rfl fun w _ hw => by
  have := elem_lt t
  obtain ⟨hc, hg, hd, ha, hb, hm⟩ := fields9 (w := w) (c := 104) (g := g.val) (d := d.val) (a := a.val)
    (b := b.val) (m := t.code * 32) (by omega) (by decide) (by omega) (by omega) (by omega) (by omega) (by omega)
  clear hw
  have h1 : w / 32 % 16 = t.code := by omega
  rw [major68 hc, decodeMajor68, h1, elem_code, Option.bind_some, fin_of (x := g) hg, fin_of (x := d) hd, fin_of (x := a) ha,
    fin_of (x := b) hb]

theorem vlen (g : Guard) (d : Reg) (a : Reg) (t : Elem) : Statement (.vlen g d a t) := of_word rfl rfl fun w _ hw => by
  have := elem_lt t
  obtain ⟨hc, hg, hd, ha, hb, hm⟩ := fields9 (w := w) (c := 105) (g := g.val) (d := d.val) (a := a.val)
    (b := 0) (m := t.code * 32) (by omega) (by decide) (by omega) (by omega) (by omega) (by omega) (by omega)
  clear hw
  have h1 : w / 32 % 16 = t.code := by omega
  rw [major69 hc, decodeMajor69, if_pos (by omega), h1, elem_code, Option.bind_some, fin_of (x := g) hg, fin_of (x := d) hd,
    fin_of (x := a) ha]

theorem vmov (g : Guard) (d : Reg) (a : Reg) (t : Elem) : Statement (.vmov g d a t) := of_word rfl rfl fun w _ hw => by
  have := elem_lt t
  obtain ⟨hc, hg, hd, ha, hb, hm⟩ := fields9 (w := w) (c := 105) (g := g.val) (d := d.val) (a := a.val)
    (b := 0) (m := 1 + t.code * 32) (by omega) (by decide) (by omega) (by omega) (by omega) (by omega) (by omega)
  clear hw
  have h0 : w % 32 = 1 := by omega
  have h1 : w / 32 % 16 = t.code := by omega
  rw [major69 hc, decodeMajor69, h0, if_neg (by decide), if_pos rfl, h1, elem_code, Option.bind_some, fin_of (x := g) hg,
    fin_of (x := d) hd, fin_of (x := a) ha]

theorem viota (g : Guard) (d : Reg) (t : Elem) : Statement (.viota g d t) := of_word rfl rfl fun w _ hw => by
  have := elem_lt t
  obtain ⟨hc, hg, hd, ha, hb, hm⟩ := fields9 (w := w) (c := 105) (g := g.val) (d := d.val) (a := 0)
    (b := 0) (m := 2 + t.code * 32) (by omega) (by decide) (by omega) (by omega) (by omega) (by omega) (by omega)
  clear hw
  have h0 : w % 32 = 2 := by omega
  have h1 : w / 32 % 16 = t.code := by omega
  rw [major69 hc, decodeMajor69, h0, if_neg (by decide), if_neg (by decide), if_pos rfl, h1, elem_code, Option.bind_some,
    fin_of (x := g) hg, fin_of (x := d) hd]

theorem kset (g : Guard) (k : KReg) (a : Reg) : Statement (.kset g k a) := of_word rfl rfl fun w _ hw => by
  obtain ⟨hc, hg, hd, ha, hb, hm⟩ := fields9 (w := w) (c := 108) (g := g.val) (d := k.val) (a := a.val)
    (b := 0) (m := 0) (by omega) (by decide) (by omega) (by omega) (by omega) (by omega) (by omega)
  clear hw
  rw [major6C hc, decodeMajor6C, fin_of (x := g) hg, fin_of (x := k) (mod8 hd k.isLt), fin_of (x := a) ha]

theorem trun (g : Guard) (a : Reg) : Statement (.trun g a) := of_word rfl rfl fun w _ hw => by
  obtain ⟨hc, hg, hd, ha, hb, hm⟩ := fields9 (w := w) (c := 109) (g := g.val) (d := 0) (a := a.val)
    (b := 0) (m := 0) (by omega) (by decide) (by omega) (by omega) (by omega) (by omega) (by omega)
  clear hw
  rw [major6D hc, decodeMajor6D, if_pos (by omega), fin_of (x := g) hg, fin_of (x := a) ha]

theorem tstat (g : Guard) (d : Reg) : Statement (.tstat g d) := of_word rfl rfl fun w _ hw => by
  obtain ⟨hc, hg, hd, ha, hb, hm⟩ := fields9 (w := w) (c := 109) (g := g.val) (d := d.val) (a := 0)
    (b := 0) (m := 1) (by omega) (by decide) (by omega) (by omega) (by omega) (by omega) (by omega)
  clear hw
  rw [major6D hc, decodeMajor6D, hm, if_neg (by decide), if_pos rfl, fin_of (x := g) hg, fin_of (x := d) hd]

theorem hnew (g : Guard) (d : Reg) (a : Reg) (b : Reg) : Statement (.hnew g d a b) := of_word rfl rfl fun w _ hw => by
  obtain ⟨hc, hg, hd, ha, hb, hm⟩ := fields9 (w := w) (c := 110) (g := g.val) (d := d.val) (a := a.val)
    (b := b.val) (m := 0) (by omega) (by decide) (by omega) (by omega) (by omega) (by omega) (by omega)
  clear hw
  rw [major6E hc, decodeMajor6E, if_pos (by omega), fin_of (x := g) hg, fin_of (x := d) hd, fin_of (x := a) ha,
    fin_of (x := b) hb]

theorem hdel (g : Guard) (a : Reg) : Statement (.hdel g a) := of_word rfl rfl fun w _ hw => by
  obtain ⟨hc, hg, hd, ha, hb, hm⟩ := fields9 (w := w) (c := 110) (g := g.val) (d := 0) (a := a.val)
    (b := 0) (m := 1) (by omega) (by decide) (by omega) (by omega) (by omega) (by omega) (by omega)
  clear hw
  rw [major6E hc, decodeMajor6E, hm, if_neg (by decide), if_pos rfl, fin_of (x := g) hg, fin_of (x := a) ha]

theorem cpy (g : Guard) (p : Pred) (a : Reg) : Statement (.cpy g p a) := of_word rfl rfl fun w _ hw => by
  obtain ⟨hc, hg, hd, ha, hb, hm⟩ := fields9 (w := w) (c := 112) (g := g.val) (d := p.val) (a := a.val)
    (b := 0) (m := 0) (by omega) (by decide) (by omega) (by omega) (by omega) (by omega) (by omega)
  clear hw
  rw [major70 hc, decodeMajor70, fin_of (x := g) hg, fin_of (x := p) (mod8 hd p.isLt), fin_of (x := a) ha]

theorem cpyr (g : Guard) (p : Pred) (a : Reg) : Statement (.cpyr g p a) := of_word rfl rfl fun w _ hw => by
  obtain ⟨hc, hg, hd, ha, hb, hm⟩ := fields9 (w := w) (c := 113) (g := g.val) (d := p.val) (a := a.val)
    (b := 0) (m := 0) (by omega) (by decide) (by omega) (by omega) (by omega) (by omega) (by omega)
  clear hw
  rw [major71 hc, decodeMajor71, fin_of (x := g) hg, fin_of (x := p) (mod8 hd p.isLt), fin_of (x := a) ha]

theorem fill (g : Guard) (p : Pred) (a : Reg) : Statement (.fill g p a) := of_word rfl rfl fun w _ hw => by
  obtain ⟨hc, hg, hd, ha, hb, hm⟩ := fields9 (w := w) (c := 114) (g := g.val) (d := p.val) (a := a.val)
    (b := 0) (m := 0) (by omega) (by decide) (by omega) (by omega) (by omega) (by omega) (by omega)
  clear hw
  rw [major72 hc, decodeMajor72, fin_of (x := g) hg, fin_of (x := p) (mod8 hd p.isLt), fin_of (x := a) ha]

theorem collReduce (g : Guard) (p : Pred) (a : Reg) (t : Elem) (r : Red) : Statement (.collReduce g p a t r) := of_word rfl rfl fun w _ hw => by
  have := elem_lt t
  have := red_lt r
  obtain ⟨hc, hg, hd, ha, hb, hm⟩ := fields9 (w := w) (c := 115) (g := g.val) (d := p.val) (a := a.val)
    (b := 0) (m := t.code * 4 + r.code) (by omega) (by decide) (by omega) (by omega) (by omega) (by omega) (by omega)
  clear hw
  have h1 : w / 4 % 16 = t.code := by omega
  have h2 : w % 4 = r.code := by omega
  rw [major73 hc, decodeMajor73, if_pos (by omega), h1, elem_code, Option.bind_some, h2, red_code, Option.bind_some,
    fin_of (x := g) hg, fin_of (x := p) (mod8 hd p.isLt), fin_of (x := a) ha]

theorem collAllreduce (g : Guard) (p : Pred) (a : Reg) (t : Elem) (r : Red) : Statement (.collAllreduce g p a t r) := of_word rfl rfl fun w _ hw => by
  have := elem_lt t
  have := red_lt r
  obtain ⟨hc, hg, hd, ha, hb, hm⟩ := fields9 (w := w) (c := 115) (g := g.val) (d := p.val) (a := a.val)
    (b := 0) (m := 64 + t.code * 4 + r.code) (by omega) (by decide) (by omega) (by omega) (by omega) (by omega) (by omega)
  clear hw
  have h0 : w / 64 % 8 = 1 := by omega
  have h1 : w / 4 % 16 = t.code := by omega
  have h2 : w % 4 = r.code := by omega
  rw [major73 hc, decodeMajor73, h0, if_neg (by decide), if_pos rfl, h1, elem_code, Option.bind_some, h2, red_code,
    Option.bind_some, fin_of (x := g) hg, fin_of (x := p) (mod8 hd p.isLt), fin_of (x := a) ha]

theorem collRscatter (g : Guard) (p : Pred) (a : Reg) (t : Elem) (r : Red) : Statement (.collRscatter g p a t r) := of_word rfl rfl fun w _ hw => by
  have := elem_lt t
  have := red_lt r
  obtain ⟨hc, hg, hd, ha, hb, hm⟩ := fields9 (w := w) (c := 115) (g := g.val) (d := p.val) (a := a.val)
    (b := 0) (m := 128 + t.code * 4 + r.code) (by omega) (by decide) (by omega) (by omega) (by omega) (by omega) (by omega)
  clear hw
  have h0 : w / 64 % 8 = 2 := by omega
  have h1 : w / 4 % 16 = t.code := by omega
  have h2 : w % 4 = r.code := by omega
  rw [major73 hc, decodeMajor73, h0, if_neg (by decide), if_neg (by decide), if_pos rfl, h1, elem_code, Option.bind_some, h2,
    red_code, Option.bind_some, fin_of (x := g) hg, fin_of (x := p) (mod8 hd p.isLt), fin_of (x := a) ha]

theorem collAllgather (g : Guard) (p : Pred) (a : Reg) (t : Elem) : Statement (.collAllgather g p a t) := of_word rfl rfl fun w _ hw => by
  have := elem_lt t
  obtain ⟨hc, hg, hd, ha, hb, hm⟩ := fields9 (w := w) (c := 115) (g := g.val) (d := p.val) (a := a.val)
    (b := 0) (m := 192 + t.code * 4) (by omega) (by decide) (by omega) (by omega) (by omega) (by omega) (by omega)
  clear hw
  have h1 : w / 4 % 16 = t.code := by omega
  rw [major73 hc, decodeMajor73]
  iterate 3 rw [if_neg (by omega)]
  rw [if_pos (by omega), h1, elem_code,
    Option.bind_some, fin_of (x := g) hg, fin_of (x := p) (mod8 hd p.isLt), fin_of (x := a) ha]

theorem mask (g : Guard) (p : Pred) (a : Reg) : Statement (.mask g p a) := of_word rfl rfl fun w _ hw => by
  obtain ⟨hc, hg, hd, ha, hb, hm⟩ := fields9 (w := w) (c := 116) (g := g.val) (d := p.val) (a := a.val)
    (b := 0) (m := 0) (by omega) (by decide) (by omega) (by omega) (by omega) (by omega) (by omega)
  clear hw
  rw [major74 hc, decodeMajor74, if_pos (by omega), fin_of (x := g) hg, fin_of (x := p) (mod8 hd p.isLt), fin_of (x := a) ha]

theorem padv (g : Guard) (d : Reg) (a : Reg) (b : Reg) : Statement (.padv g d a b) := of_word rfl rfl fun w _ hw => by
  obtain ⟨hc, hg, hd, ha, hb, hm⟩ := fields9 (w := w) (c := 116) (g := g.val) (d := d.val) (a := a.val)
    (b := b.val) (m := 1) (by omega) (by decide) (by omega) (by omega) (by omega) (by omega) (by omega)
  clear hw
  rw [major74 hc, decodeMajor74, hm, if_neg (by decide), if_pos rfl, fin_of (x := g) hg, fin_of (x := d) hd, fin_of (x := a) ha,
    fin_of (x := b) hb]

theorem sample (g : Guard) (d : Reg) (a : Reg) (p : Pred) : Statement (.sample g d a p) := of_word rfl rfl fun w _ hw => by
  obtain ⟨hc, hg, hd, ha, hb, hm⟩ := fields9 (w := w) (c := 117) (g := g.val) (d := d.val) (a := a.val)
    (b := p.val) (m := 0) (by omega) (by decide) (by omega) (by omega) (by omega) (by omega) (by omega)
  clear hw
  rw [major75 hc, decodeMajor75, if_pos (by omega), fin_of (x := g) hg, fin_of (x := d) hd, fin_of (x := a) ha,
    fin_of (x := p) (mod8 hb p.isLt)]

theorem argmx (g : Guard) (d : Reg) (a : Reg) (p : Pred) : Statement (.argmx g d a p) := of_word rfl rfl fun w _ hw => by
  obtain ⟨hc, hg, hd, ha, hb, hm⟩ := fields9 (w := w) (c := 117) (g := g.val) (d := d.val) (a := a.val)
    (b := p.val) (m := 1) (by omega) (by decide) (by omega) (by omega) (by omega) (by omega) (by omega)
  clear hw
  rw [major75 hc, decodeMajor75, hm, if_neg (by decide), if_pos rfl, fin_of (x := g) hg, fin_of (x := d) hd, fin_of (x := a) ha,
    fin_of (x := p) (mod8 hb p.isLt)]

theorem tryPoint (g : Guard) (d : Reg) (a : Reg) (b : Reg) : Statement (.tryPoint g d a b) := of_word rfl rfl fun w _ hw => by
  obtain ⟨hc, hg, hd, ha, hb, hm⟩ := fields9 (w := w) (c := 118) (g := g.val) (d := d.val) (a := a.val)
    (b := b.val) (m := 0) (by omega) (by decide) (by omega) (by omega) (by omega) (by omega) (by omega)
  clear hw
  rw [major76 hc, decodeMajor76, if_pos (by omega), fin_of (x := g) hg, fin_of (x := d) hd, fin_of (x := a) ha,
    fin_of (x := b) hb]

theorem fail (g : Guard) : Statement (.fail g) := of_word rfl rfl fun w _ hw => by
  obtain ⟨hc, hg, hd, ha, hb, hm⟩ := fields9 (w := w) (c := 118) (g := g.val) (d := 0) (a := 0)
    (b := 0) (m := 1) (by omega) (by decide) (by omega) (by omega) (by omega) (by omega) (by omega)
  clear hw
  rw [major76 hc, decodeMajor76, hm, if_neg (by decide), if_pos rfl, fin_of (x := g) hg]

theorem cut (g : Guard) (a : Reg) : Statement (.cut g a) := of_word rfl rfl fun w _ hw => by
  obtain ⟨hc, hg, hd, ha, hb, hm⟩ := fields9 (w := w) (c := 118) (g := g.val) (d := 0) (a := a.val)
    (b := 0) (m := 2) (by omega) (by decide) (by omega) (by omega) (by omega) (by omega) (by omega)
  clear hw
  rw [major76 hc, decodeMajor76, hm, if_neg (by decide), if_neg (by decide), if_pos rfl, fin_of (x := g) hg, fin_of (x := a) ha]

theorem cpd (g : Guard) (d : Reg) : Statement (.cpd g d) := of_word rfl rfl fun w _ hw => by
  obtain ⟨hc, hg, hd, ha, hb, hm⟩ := fields9 (w := w) (c := 118) (g := g.val) (d := d.val) (a := 0)
    (b := 0) (m := 3) (by omega) (by decide) (by omega) (by omega) (by omega) (by omega) (by omega)
  clear hw
  rw [major76 hc, decodeMajor76, hm]
  iterate 3 rw [if_neg (by decide)]
  rw [if_pos rfl, fin_of (x := g) hg,
    fin_of (x := d) hd]

theorem steal (g : Guard) (p : Pred) (a : Reg) : Statement (.steal g p a) := of_word rfl rfl fun w _ hw => by
  obtain ⟨hc, hg, hd, ha, hb, hm⟩ := fields9 (w := w) (c := 119) (g := g.val) (d := p.val) (a := a.val)
    (b := 0) (m := 0) (by omega) (by decide) (by omega) (by omega) (by omega) (by omega) (by omega)
  clear hw
  rw [major77 hc, decodeMajor77, if_pos (by omega), fin_of (x := g) hg, fin_of (x := p) (mod8 hd p.isLt), fin_of (x := a) ha]

theorem commit (g : Guard) : Statement (.commit g) := of_word rfl rfl fun w _ hw => by
  obtain ⟨hc, hg, hd, ha, hb, hm⟩ := fields9 (w := w) (c := 119) (g := g.val) (d := 0) (a := 0)
    (b := 0) (m := 1) (by omega) (by decide) (by omega) (by omega) (by omega) (by omega) (by omega)
  clear hw
  rw [major77 hc, decodeMajor77, hm, if_neg (by decide), if_pos rfl, fin_of (x := g) hg]

theorem ecnt (g : Guard) (a : Reg) (b : Reg) : Statement (.ecnt g a b) := of_word rfl rfl fun w _ hw => by
  obtain ⟨hc, hg, hd, ha, hb, hm⟩ := fields9 (w := w) (c := 120) (g := g.val) (d := 0) (a := a.val)
    (b := b.val) (m := 0) (by omega) (by decide) (by omega) (by omega) (by omega) (by omega) (by omega)
  clear hw
  rw [major78 hc, decodeMajor78, if_pos (by omega), fin_of (x := g) hg, fin_of (x := a) ha, fin_of (x := b) hb]

theorem rlook (g : Guard) (d : Reg) (a : Reg) (b : Reg) : Statement (.rlook g d a b) := of_word rfl rfl fun w _ hw => by
  obtain ⟨hc, hg, hd, ha, hb, hm⟩ := fields9 (w := w) (c := 120) (g := g.val) (d := d.val) (a := a.val)
    (b := b.val) (m := 1) (by omega) (by decide) (by omega) (by omega) (by omega) (by omega) (by omega)
  clear hw
  rw [major78 hc, decodeMajor78, hm, if_neg (by decide), if_pos rfl, fin_of (x := g) hg, fin_of (x := d) hd, fin_of (x := a) ha,
    fin_of (x := b) hb]

theorem rpub (g : Guard) (a : Reg) (b : Reg) : Statement (.rpub g a b) := of_word rfl rfl fun w _ hw => by
  obtain ⟨hc, hg, hd, ha, hb, hm⟩ := fields9 (w := w) (c := 120) (g := g.val) (d := 0) (a := a.val)
    (b := b.val) (m := 2) (by omega) (by decide) (by omega) (by omega) (by omega) (by omega) (by omega)
  clear hw
  rw [major78 hc, decodeMajor78, hm, if_neg (by decide), if_neg (by decide), if_pos rfl, fin_of (x := g) hg, fin_of (x := a) ha,
    fin_of (x := b) hb]

theorem rret (g : Guard) (a : Reg) (b : Reg) : Statement (.rret g a b) := of_word rfl rfl fun w _ hw => by
  obtain ⟨hc, hg, hd, ha, hb, hm⟩ := fields9 (w := w) (c := 120) (g := g.val) (d := 0) (a := a.val)
    (b := b.val) (m := 3) (by omega) (by decide) (by omega) (by omega) (by omega) (by omega) (by omega)
  clear hw
  rw [major78 hc, decodeMajor78, hm]
  iterate 3 rw [if_neg (by decide)]
  rw [if_pos rfl, fin_of (x := g) hg,
    fin_of (x := a) ha, fin_of (x := b) hb]

theorem rcopy (g : Guard) (p : Pred) (a : Reg) : Statement (.rcopy g p a) := of_word rfl rfl fun w _ hw => by
  obtain ⟨hc, hg, hd, ha, hb, hm⟩ := fields9 (w := w) (c := 121) (g := g.val) (d := p.val) (a := a.val)
    (b := 0) (m := 0) (by omega) (by decide) (by omega) (by omega) (by omega) (by omega) (by omega)
  clear hw
  rw [major79 hc, decodeMajor79, if_pos (by omega), fin_of (x := g) hg, fin_of (x := p) (mod8 hd p.isLt), fin_of (x := a) ha]

theorem rmerge (g : Guard) (p : Pred) (a : Reg) : Statement (.rmerge g p a) := of_word rfl rfl fun w _ hw => by
  obtain ⟨hc, hg, hd, ha, hb, hm⟩ := fields9 (w := w) (c := 121) (g := g.val) (d := p.val) (a := a.val)
    (b := 0) (m := 1) (by omega) (by decide) (by omega) (by omega) (by omega) (by omega) (by omega)
  clear hw
  rw [major79 hc, decodeMajor79, hm, if_neg (by decide), if_pos rfl, fin_of (x := g) hg, fin_of (x := p) (mod8 hd p.isLt),
    fin_of (x := a) ha]

theorem rstat (g : Guard) (d : Reg) (a : Reg) : Statement (.rstat g d a) := of_word rfl rfl fun w _ hw => by
  obtain ⟨hc, hg, hd, ha, hb, hm⟩ := fields9 (w := w) (c := 121) (g := g.val) (d := d.val) (a := a.val)
    (b := 0) (m := 2) (by omega) (by decide) (by omega) (by omega) (by omega) (by omega) (by omega)
  clear hw
  rw [major79 hc, decodeMajor79, hm, if_neg (by decide), if_neg (by decide), if_pos rfl, fin_of (x := g) hg, fin_of (x := d) hd,
    fin_of (x := a) ha]

theorem trap (g : Guard) (n : BitVec 13) : Statement (.trap g n) := of_word rfl rfl fun w _ hw => by
  obtain ⟨hc, hg, hd, ha, hm⟩ := fields13 (w := w) (c := 122) (g := g.val) (d := 0) (a := 0)
    (m := n.toNat) (by omega) (by decide) (by omega) (by omega) (by omega) (by omega)
  clear hw
  rw [major7A hc, decodeMajor7A, fin_of (x := g) hg, bv_of (x := n) (by omega)]

theorem brk (g : Guard) (n : BitVec 13) : Statement (.brk g n) := of_word rfl rfl fun w _ hw => by
  obtain ⟨hc, hg, hd, ha, hm⟩ := fields13 (w := w) (c := 123) (g := g.val) (d := 0) (a := 0)
    (m := n.toNat) (by omega) (by decide) (by omega) (by omega) (by omega) (by omega)
  clear hw
  rw [major7B hc, decodeMajor7B, fin_of (x := g) hg, bv_of (x := n) (by omega)]

theorem mfsr (g : Guard) (d : Reg) (n : BitVec 13) : Statement (.mfsr g d n) := of_word rfl rfl fun w _ hw => by
  obtain ⟨hc, hg, hd, ha, hm⟩ := fields13 (w := w) (c := 124) (g := g.val) (d := d.val) (a := 0)
    (m := n.toNat) (by omega) (by decide) (by omega) (by omega) (by omega) (by omega)
  clear hw
  rw [major7C hc, decodeMajor7C, fin_of (x := g) hg, fin_of (x := d) hd, bv_of (x := n) (by omega)]

theorem mtsr (g : Guard) (a : Reg) (n : BitVec 13) : Statement (.mtsr g a n) := of_word rfl rfl fun w _ hw => by
  obtain ⟨hc, hg, hd, ha, hm⟩ := fields13 (w := w) (c := 125) (g := g.val) (d := 0) (a := a.val)
    (m := n.toNat) (by omega) (by decide) (by omega) (by omega) (by omega) (by omega)
  clear hw
  rw [major7D hc, decodeMajor7D, fin_of (x := g) hg, fin_of (x := a) ha, bv_of (x := n) (by omega)]

theorem eret (g : Guard) : Statement (.eret g) := of_word rfl rfl fun w _ hw => by
  obtain ⟨hc, hg, hd, ha, hb, hm⟩ := fields9 (w := w) (c := 126) (g := g.val) (d := 0) (a := 0)
    (b := 0) (m := 0) (by omega) (by decide) (by omega) (by omega) (by omega) (by omega) (by omega)
  clear hw
  rw [major7E hc, decodeMajor7E, if_pos (by omega), fin_of (x := g) hg]

theorem segld (g : Guard) (s : SReg) (a : Reg) : Statement (.segld g s a) := of_word rfl rfl fun w _ hw => by
  obtain ⟨hc, hg, hd, ha, hb, hm⟩ := fields9 (w := w) (c := 126) (g := g.val) (d := s.val) (a := a.val)
    (b := 0) (m := 1) (by omega) (by decide) (by omega) (by omega) (by omega) (by omega) (by omega)
  clear hw
  rw [major7E hc, decodeMajor7E, hm, if_neg (by decide), if_pos rfl, fin_of (x := g) hg, fin_of (x := s) (mod8 hd s.isLt),
    fin_of (x := a) ha]

theorem pginv (g : Guard) (a : Reg) : Statement (.pginv g a) := of_word rfl rfl fun w _ hw => by
  obtain ⟨hc, hg, hd, ha, hb, hm⟩ := fields9 (w := w) (c := 126) (g := g.val) (d := 0) (a := a.val)
    (b := 0) (m := 2) (by omega) (by decide) (by omega) (by omega) (by omega) (by omega) (by omega)
  clear hw
  rw [major7E hc, decodeMajor7E, hm, if_neg (by decide), if_neg (by decide), if_pos rfl, fin_of (x := g) hg, fin_of (x := a) ha]

theorem idle (g : Guard) : Statement (.idle g) := of_word rfl rfl fun w _ hw => by
  obtain ⟨hc, hg, hd, ha, hb, hm⟩ := fields9 (w := w) (c := 126) (g := g.val) (d := 0) (a := 0)
    (b := 0) (m := 3) (by omega) (by decide) (by omega) (by omega) (by omega) (by omega) (by omega)
  clear hw
  rw [major7E hc, decodeMajor7E, hm]
  iterate 3 rw [if_neg (by decide)]
  rw [if_pos rfl, fin_of (x := g) hg]

theorem circ (g : Guard) (p : Pred) (a : Reg) : Statement (.circ g p a) := of_word rfl rfl fun w _ hw => by
  obtain ⟨hc, hg, hd, ha, hb, hm⟩ := fields9 (w := w) (c := 126) (g := g.val) (d := p.val) (a := a.val)
    (b := 0) (m := 4) (by omega) (by decide) (by omega) (by omega) (by omega) (by omega) (by omega)
  clear hw
  rw [major7E hc, decodeMajor7E, hm]
  iterate 4 rw [if_neg (by decide)]
  rw [if_pos rfl,
    fin_of (x := g) hg, fin_of (x := p) (mod8 hd p.isLt), fin_of (x := a) ha]

theorem slotsv (g : Guard) (d : Reg) (a : Reg) : Statement (.slotsv g d a) := of_word rfl rfl fun w _ hw => by
  obtain ⟨hc, hg, hd, ha, hb, hm⟩ := fields9 (w := w) (c := 126) (g := g.val) (d := d.val) (a := a.val)
    (b := 0) (m := 5) (by omega) (by decide) (by omega) (by omega) (by omega) (by omega) (by omega)
  clear hw
  rw [major7E hc, decodeMajor7E, hm]
  iterate 5 rw [if_neg (by decide)]
  rw [if_pos rfl, fin_of (x := g) hg, fin_of (x := d) hd, fin_of (x := a) ha]

theorem slotld (g : Guard) (d : Reg) (a : Reg) : Statement (.slotld g d a) := of_word rfl rfl fun w _ hw => by
  obtain ⟨hc, hg, hd, ha, hb, hm⟩ := fields9 (w := w) (c := 126) (g := g.val) (d := d.val) (a := a.val)
    (b := 0) (m := 6) (by omega) (by decide) (by omega) (by omega) (by omega) (by omega) (by omega)
  clear hw
  rw [major7E hc, decodeMajor7E, hm]
  iterate 6 rw [if_neg (by decide)]
  rw [if_pos rfl, fin_of (x := g) hg, fin_of (x := d) hd, fin_of (x := a) ha]

theorem stopat (g : Guard) (p : Pred) (a : Reg) : Statement (.stopat g p a) := of_word rfl rfl fun w _ hw => by
  obtain ⟨hc, hg, hd, ha, hb, hm⟩ := fields9 (w := w) (c := 127) (g := g.val) (d := p.val) (a := a.val)
    (b := 0) (m := 0) (by omega) (by decide) (by omega) (by omega) (by omega) (by omega) (by omega)
  clear hw
  rw [major7F hc, decodeMajor7F, if_pos (by omega), fin_of (x := g) hg, fin_of (x := p) (mod8 hd p.isLt), fin_of (x := a) ha]

theorem freqat (g : Guard) (p : Pred) (a : Reg) (b : Reg) : Statement (.freqat g p a b) := of_word rfl rfl fun w _ hw => by
  obtain ⟨hc, hg, hd, ha, hb, hm⟩ := fields9 (w := w) (c := 127) (g := g.val) (d := p.val) (a := a.val)
    (b := b.val) (m := 1) (by omega) (by decide) (by omega) (by omega) (by omega) (by omega) (by omega)
  clear hw
  rw [major7F hc, decodeMajor7F, hm, if_neg (by decide), if_pos rfl, fin_of (x := g) hg, fin_of (x := p) (mod8 hd p.isLt),
    fin_of (x := a) ha, fin_of (x := b) hb]

/-! ## Tile commands -/

theorem field_eq (w lo len : Nat) : field w lo len = w / 2 ^ lo % 2 ^ len := rfl

theorem mldb (h : BitVec 32) (mac : Bool) (n : Ext) (k : Ext) (fmt : Elem) (tag : Bool) (scb : BitVec 48) (rdi : InstField) : Statement (.mldb h mac n k fmt tag scb rdi) := of_tile rfl rfl fun w hf hw => by
  simp only [tileWord] at hw
  have := mac.toNat_lt
  have := ext_lt n
  have := ext_lt k
  have := elem_lt fmt
  have := tag.toNat_lt
  have := instfield_lt rdi
  have h0 : field w 248 8 = 1 := by simp only [field_eq]; omega
  simp only [decodeTileRaw, h0]
  have h1 : field w 136 4 = n.code := by simp only [field_eq]; omega
  have h2 : field w 132 4 = k.code := by simp only [field_eq]; omega
  have h3 : field w 128 4 = fmt.code := by simp only [field_eq]; omega
  have h4 : field w 16 16 = rdi.code := by simp only [field_eq]; omega
  rw [h1, ext_code, Option.bind_some, h2, ext_code, Option.bind_some, h3, elem_code, Option.bind_some, h4, instfield_code,
    Option.bind_some, bv_of (x := h) (by simp only [field_eq]; omega), bool_of (b := mac) (by simp only [field_eq]; omega),
    bool_of (b := tag) (by simp only [field_eq]; omega), bv_of (x := scb) (by simp only [field_eq]; omega)]

theorem mlda (h : BitVec 32) (m : Ext) (k : Ext) (fmt : Elem) (tag : Bool) (sca : BitVec 48) (rdi : InstField) : Statement (.mlda h m k fmt tag sca rdi) := of_tile rfl rfl fun w hf hw => by
  simp only [tileWord] at hw
  have := ext_lt m
  have := ext_lt k
  have := elem_lt fmt
  have := tag.toNat_lt
  have := instfield_lt rdi
  have h0 : field w 248 8 = 2 := by simp only [field_eq]; omega
  simp only [decodeTileRaw, h0]
  have h1 : field w 140 4 = m.code := by simp only [field_eq]; omega
  have h2 : field w 132 4 = k.code := by simp only [field_eq]; omega
  have h3 : field w 128 4 = fmt.code := by simp only [field_eq]; omega
  have h4 : field w 16 16 = rdi.code := by simp only [field_eq]; omega
  rw [h1, ext_code, Option.bind_some, h2, ext_code, Option.bind_some, h3, elem_code, Option.bind_some, h4, instfield_code,
    Option.bind_some, bv_of (x := h) (by simp only [field_eq]; omega), bool_of (b := tag) (by simp only [field_eq]; omega),
    bv_of (x := sca) (by simp only [field_eq]; omega)]

theorem mma (m : Ext) (n : Ext) (macs : BitVec 2) : Statement (.mma m n macs) := of_tile rfl rfl fun w hf hw => by
  simp only [tileWord] at hw
  have := ext_lt m
  have := ext_lt n
  have h0 : field w 248 8 = 3 := by simp only [field_eq]; omega
  simp only [decodeTileRaw, h0]
  have h1 : field w 140 4 = m.code := by simp only [field_eq]; omega
  have h2 : field w 136 4 = n.code := by simp only [field_eq]; omega
  rw [h1, ext_code, Option.bind_some, h2, ext_code, Option.bind_some, bv_of (x := macs) (by simp only [field_eq]; omega)]

theorem mzero (m : Ext) (n : Ext) : Statement (.mzero m n) := of_tile rfl rfl fun w hf hw => by
  simp only [tileWord] at hw
  have := ext_lt m
  have := ext_lt n
  have h0 : field w 248 8 = 4 := by simp only [field_eq]; omega
  simp only [decodeTileRaw, h0]
  have h1 : field w 140 4 = m.code := by simp only [field_eq]; omega
  have h2 : field w 136 4 = n.code := by simp only [field_eq]; omega
  rw [h1, ext_code, Option.bind_some, h2, ext_code, Option.bind_some]

theorem mst (h : BitVec 32) (m : Ext) (n : Ext) (fmt : Elem) (clr : Bool) (sc : BitVec 48) (vsi : InstField) : Statement (.mst h m n fmt clr sc vsi) := of_tile rfl rfl fun w hf hw => by
  simp only [tileWord] at hw
  have := ext_lt m
  have := ext_lt n
  have := elem_lt fmt
  have := clr.toNat_lt
  have := instfield_lt vsi
  have h0 : field w 248 8 = 5 := by simp only [field_eq]; omega
  simp only [decodeTileRaw, h0]
  have h1 : field w 140 4 = m.code := by simp only [field_eq]; omega
  have h2 : field w 136 4 = n.code := by simp only [field_eq]; omega
  have h3 : field w 128 4 = fmt.code := by simp only [field_eq]; omega
  have h4 : field w 0 16 = vsi.code := by simp only [field_eq]; omega
  rw [h1, ext_code, Option.bind_some, h2, ext_code, Option.bind_some, h3, elem_code, Option.bind_some, h4, instfield_code,
    Option.bind_some, bv_of (x := h) (by simp only [field_eq]; omega), bool_of (b := clr) (by simp only [field_eq]; omega),
    bv_of (x := sc) (by simp only [field_eq]; omega)]

theorem mscl (m : Ext) (n : Ext) (sr : BitVec 48) (sc : BitVec 48) : Statement (.mscl m n sr sc) := of_tile rfl rfl fun w hf hw => by
  simp only [tileWord] at hw
  have := ext_lt m
  have := ext_lt n
  have h0 : field w 248 8 = 6 := by simp only [field_eq]; omega
  simp only [decodeTileRaw, h0]
  have h1 : field w 140 4 = m.code := by simp only [field_eq]; omega
  have h2 : field w 136 4 = n.code := by simp only [field_eq]; omega
  rw [h1, ext_code, Option.bind_some, h2, ext_code, Option.bind_some, bv_of (x := sr) (by simp only [field_eq]; omega),
    bv_of (x := sc) (by simp only [field_eq]; omega)]

theorem rnd_fmt {r : Option Rnd} (h : r ≠ some .dyn) : mfmtOfCode (mfmtCode r) = some r := by
  cases r with
  | none => rfl
  | some r => cases r <;> first | rfl | exact absurd rfl h

theorem mfmt_lt (r : Option Rnd) : mfmtCode r < 16 := by
  cases r with
  | none => decide
  | some r => cases r <;> decide

theorem sat_code (b : Option Bool) : satOfCode (satCode b) = some b := by rcases b with _ | _ | _ <;> rfl

theorem sat_lt (b : Option Bool) : satCode b < 4 := by rcases b with _ | _ | _ <;> decide

theorem mfmt (rnd : Option Rnd) (wide : Bool) (sat : Option Bool) : Statement (.mfmt rnd wide sat) := of_tile rfl rfl fun w hf hw => by
  simp only [tileWord] at hw
  have := wide.toNat_lt
  have := mfmt_lt rnd
  have := sat_lt sat
  have h0 : field w 248 8 = 7 := by simp only [field_eq]; omega
  simp only [decodeTileRaw, h0]
  have h1 : field w 128 4 = mfmtCode rnd := by simp only [field_eq]; omega
  have h2 : field w 240 4 / 2 % 4 = satCode sat := by simp only [field_eq]; omega
  rw [h1, h2, rnd_fmt (by rintro rfl; cases hf), Option.bind_some, sat_code, Option.bind_some,
    bool_of (b := wide) (by simp only [field_eq]; omega)]

theorem mrep (c : Ext) (len : BitVec 32) : Statement (.mrep c len) := of_tile rfl rfl fun w hf hw => by
  simp only [tileWord] at hw
  have := ext_lt c
  have h0 : field w 248 8 = 8 := by simp only [field_eq]; omega
  simp only [decodeTileRaw, h0]
  have h1 : field w 140 4 = c.code := by simp only [field_eq]; omega
  rw [h1, ext_code, Option.bind_some, bv_of (x := len) (by simp only [field_eq]; omega)]

theorem mend : Statement (.mend) := of_tile rfl rfl fun w hf hw => by
  simp only [tileWord] at hw
  have h0 : field w 248 8 = 9 := by simp only [field_eq]; omega
  simp only [decodeTileRaw, h0]

/-! ## Events -/

theorem dividerDone (core : Nat) : Statement (.dividerDone core) := of_event rfl rfl

theorem drainToken (k : Nat) : Statement (.drainToken k) := of_event rfl rfl

theorem invalidation (k : Nat) : Statement (.invalidation k) := of_event rfl rfl

theorem rsvResend (slot : Nat) : Statement (.rsvResend slot) := of_event rfl rfl

theorem abandonPacket (k : Nat) : Statement (.abandonPacket k) := of_event rfl rfl

theorem monitorNotice (k : Nat) : Statement (.monitorNotice k) := of_event rfl rfl

theorem mwaitTimeout (slot : Nat) : Statement (.mwaitTimeout slot) := of_event rfl rfl

theorem barrierRegistration (k : Nat) : Statement (.barrierRegistration k) := of_event rfl rfl

theorem barrierArrival (k : Nat) : Statement (.barrierArrival k) := of_event rfl rfl

theorem barrierCompletion (k : Nat) : Statement (.barrierCompletion k) := of_event rfl rfl

theorem sleepExpiry (slot : Nat) : Statement (.sleepExpiry slot) := of_event rfl rfl

theorem yieldExpiry (slot : Nat) : Statement (.yieldExpiry slot) := of_event rfl rfl

theorem messageDelivery (k : Nat) : Statement (.messageDelivery k) := of_event rfl rfl

theorem messageRetry (core : Nat) : Statement (.messageRetry core) := of_event rfl rfl

theorem handlerStart (core : Nat) (part : Fin 8) : Statement (.handlerStart core part) := of_event rfl rfl

theorem migrationArrival (k : Nat) : Statement (.migrationArrival k) := of_event rfl rfl

theorem remoteRequest (k : Nat) : Statement (.remoteRequest k) := of_event rfl rfl

theorem replyArrival (k : Nat) : Statement (.replyArrival k) := of_event rfl rfl

theorem wakeMessage (k : Nat) : Statement (.wakeMessage k) := of_event rfl rfl

theorem pageFaultReissue (slot : Nat) : Statement (.pageFaultReissue slot) := of_event rfl rfl

theorem pageFaultResolve (cluster : Nat) (k : Nat) : Statement (.pageFaultResolve cluster k) := of_event rfl rfl

theorem launchTake (part : Fin 8) : Statement (.launchTake part) := of_event rfl rfl

theorem crewStart (part : Fin 8) (launch : Nat) (crew : Nat) : Statement (.crewStart part launch crew) := of_event rfl rfl

theorem idleSpill (core : Nat) : Statement (.idleSpill core) := of_event rfl rfl

theorem garnetTokenHop (die : Nat) (tok : Nat) : Statement (.garnetTokenHop die tok) := of_event rfl rfl

theorem cpyExecute (cluster : Nat) : Statement (.cpyExecute cluster) := of_event rfl rfl

theorem cpyrExecute (cluster : Nat) : Statement (.cpyrExecute cluster) := of_event rfl rfl

theorem fillExecute (cluster : Nat) : Statement (.fillExecute cluster) := of_event rfl rfl

theorem collExecute (die : Nat) : Statement (.collExecute die) := of_event rfl rfl

theorem maskWalk (cluster : Nat) : Statement (.maskWalk cluster) := of_event rfl rfl

theorem killMessage (k : Nat) : Statement (.killMessage k) := of_event rfl rfl

theorem thiefRelease (k : Nat) : Statement (.thiefRelease k) := of_event rfl rfl

theorem ecntUpdate (k : Nat) : Statement (.ecntUpdate k) := of_event rfl rfl

theorem rcopyExecute (k : Nat) : Statement (.rcopyExecute k) := of_event rfl rfl

theorem rmergeExecute (k : Nat) : Statement (.rmergeExecute k) := of_event rfl rfl

theorem stopatRequest (k : Nat) : Statement (.stopatRequest k) := of_event rfl rfl

theorem quartzStep (part : Fin 8) : Statement (.quartzStep part) := of_event rfl rfl

theorem elasticStep (part : Fin 8) : Statement (.elasticStep part) := of_event rfl rfl

theorem storeArrival (k : Nat) : Statement (.storeArrival k) := of_event rfl rfl

theorem partitionStop (part : Fin 8) : Statement (.partitionStop part) := of_event rfl rfl

theorem partitionResume (part : Fin 8) : Statement (.partitionResume part) := of_event rfl rfl

theorem frequencySwitch : Statement (.frequencySwitch) := of_event rfl rfl

theorem powerPoolRefill : Statement (.powerPoolRefill) := of_event rfl rfl

theorem flitTransmit (port : Fin 64) (peer : Nat) : Statement (.flitTransmit port peer) := of_event rfl rfl

theorem portTune (port : Fin 64) : Statement (.portTune port) := of_event rfl rfl

theorem portPark (port : Fin 64) : Statement (.portPark port) := of_event rfl rfl

theorem portWake (port : Fin 64) : Statement (.portWake port) := of_event rfl rfl

theorem laneTuneDone (port : Fin 64) (lane : Fin 8) : Statement (.laneTuneDone port lane) := of_event rfl rfl

theorem laneWakeDone (port : Fin 64) (lane : Fin 8) : Statement (.laneWakeDone port lane) := of_event rfl rfl

theorem laneAutoPark (port : Fin 64) : Statement (.laneAutoPark port) := of_event rfl rfl

theorem laneAutoWake (port : Fin 64) : Statement (.laneAutoWake port) := of_event rfl rfl

theorem heaterService (port : Fin 64) : Statement (.heaterService port) := of_event rfl rfl

theorem keyLoadDone : Statement (.keyLoadDone) := of_event rfl rfl

theorem attestReportReady : Statement (.attestReportReady) := of_event rfl rfl

theorem flushToken (k : Nat) : Statement (.flushToken k) := of_event rfl rfl

theorem dieUnreachable (die : Fin 8) : Statement (.dieUnreachable die) := of_event rfl rfl

theorem clockStretch (region : Nat) : Statement (.clockStretch region) := of_event rfl rfl

theorem coldReset (recordOk : Bool) (firmwareOk : Bool) (trained : Bool) : Statement (.coldReset recordOk firmwareOk trained) := of_event rfl rfl

theorem referenceLockLoss : Statement (.referenceLockLoss) := of_event rfl rfl

theorem linkFailure (port : Option (Fin 64)) (lane : Fin 8) (dieA : Fin 8) (chan : BitVec 8) : Statement (.linkFailure port lane dieA chan) := of_event rfl rfl

theorem flitReceive (port : Fin 64) (lane : Fin 8) (peer : Nat) (part : Fin 8) (seq : Nat) (tagOk : Bool) (k : Nat) : Statement (.flitReceive port lane peer part seq tagOk k) := of_event rfl rfl

theorem hostMemRead (part : Fin 8) (off : BitVec 64) : Statement (.hostMemRead part off) := of_event rfl rfl

theorem hostMemWrite (part : Fin 8) (off : BitVec 64) (be : BitVec 64) (data : Vec) : Statement (.hostMemWrite part off be data) := of_event rfl rfl

theorem hostAtomic (off : BitVec 64) (op : HostAOp) (z : DSize) (y : Word) (cmp : Word) : Statement (.hostAtomic off op z y cmp) := of_event rfl rfl

theorem kick (part : Fin 8) (tail : BitVec 32) : Statement (.kick part tail) := of_event rfl rfl

theorem cqrWrite (part : Fin 8) (v : BitVec 32) : Statement (.cqrWrite part v) := of_event rfl rfl

theorem pginvh (v : Word) : Statement (.pginvh v) := of_event rfl rfl

theorem faultRecordRemove (cluster : Nat) (v : Word) : Statement (.faultRecordRemove cluster v) := of_event rfl rfl

theorem monarchRecordRemove (part : Fin 8) (v : Word) : Statement (.monarchRecordRemove part v) := of_event rfl rfl

theorem fabricFaultRetry : Statement (.fabricFaultRetry) := of_event rfl rfl

theorem fabricFaultAbandon : Statement (.fabricFaultAbandon) := of_event rfl rfl

theorem keyLoad (v : Word) : Statement (.keyLoad v) := of_event rfl rfl

theorem attestRequest (v : Word) : Statement (.attestRequest v) := of_event rfl rfl

theorem connectionCommit (v : Word) : Statement (.connectionCommit v) := of_event rfl rfl

theorem resumeRequest (part : Fin 8) (v : Word) : Statement (.resumeRequest part v) := of_event rfl rfl

theorem fpcntAdd (part : Fin 8) (v : Word) : Statement (.fpcntAdd part v) := of_event rfl rfl

theorem partitionCreate (n : Fin 8) (v : Word) : Statement (.partitionCreate n v) := of_event rfl rfl

theorem partitionDissolve (n : Fin 8) (v : Word) : Statement (.partitionDissolve n v) := of_event rfl rfl

theorem registerWrite (off : BitVec 32) (v : Word) (be : BitVec 8) : Statement (.registerWrite off v be) := of_event rfl rfl

theorem replayRequest (port : Fin 64) (lane : Fin 8) (flit : Nat) : Statement (.replayRequest port lane flit) := of_event rfl rfl

end Sys2Proof.Laws.Encoding
end

