-- ==== Sys2Proof/Tests/Slice0.lean ====
section
/-! SUPPORT. The model's own tests: words written out from the spec's encodings, terms that are ill formed, and for each statement states
that meet its hypotheses, most with what the spec says happens there. Every expected value is the spec's or worked out from it. -/

namespace Sys2Proof.Tests

open Sys2Proof.Machine

set_option synthInstance.maxSize 1000
set_option Elab.async false

/-! ## Decoding: words put together from the fields of spec/opcode_table.json and the codes of R60 to R68 and R168 -/

/-- add to mulhu. -/
theorem test_words_1 : ∀ e ∈ ([
    (0x4026AC00, .add 4 3 5 6),
    (0x4026AC01, .sub 4 3 5 6),
    (0x4026AC02, .and 4 3 5 6),
    (0x4026AC03, .or 4 3 5 6),
    (0x4026AC04, .xor 4 3 5 6),
    (0x4026AC05, .andn 4 3 5 6),
    (0x4026AC06, .min 4 3 5 6),
    (0x4026AC07, .max 4 3 5 6),
    (0x4026AC08, .minu 4 3 5 6),
    (0x4026AC09, .maxu 4 3 5 6),
    (0x4026AC0A, .adds 4 3 5 6),
    (0x4026AC0B, .subs 4 3 5 6),
    (0x4026AC42, .lea 4 3 5 6 0x2),
    (0x4046AC00, .mul 4 3 5 6),
    (0x4046AC01, .mulhi 4 3 5 6),
    (0x4046AC02, .mulhu 4 3 5 6)] : List (Nat × Instr)),
    decode e.1 = some e.2 := by decide

/-- div to pand. -/
theorem test_words_2 : ∀ e ∈ ([
    (0x4046AC03, .div 4 3 5 6),
    (0x4046AC04, .divu 4 3 5 6),
    (0x4046AC05, .rem 4 3 5 6),
    (0x4046AC06, .remu 4 3 5 6),
    (0x4066AC00, .shl 4 3 5 6),
    (0x4066AC01, .shr 4 3 5 6),
    (0x4066AC02, .sra 4 3 5 6),
    (0x4066AC03, .rol 4 3 5 6),
    (0x4066A004, .clz 4 3 5),
    (0x4066A005, .ctz 4 3 5),
    (0x4066A006, .popc 4 3 5),
    (0x4066A011, .sext 4 3 5 .h),
    (0x4066A019, .zext 4 3 5 .h),
    (0x4084AC19, .cmp 4 2 5 6 .geu),
    (0x4086AC26, .sel 4 3 5 6 6),
    (0x40846A30, .pand 4 2 3 5)] : List (Nat × Instr)),
    decode e.1 = some e.2 := by decide

/-- por to call. -/
theorem test_words_3 : ∀ e ∈ ([
    (0x40846A31, .por 4 2 3 5),
    (0x40846A32, .pxor 4 2 3 5),
    (0x40846033, .pmov 4 2 3),
    (0x40A6B005, .addi 4 3 5 0x1005),
    (0x40C6B005, .andi 4 3 5 0x1005),
    (0x40E6B005, .ori 4 3 5 0x1005),
    (0x4106B005, .xori 4 3 5 0x1005),
    (0x4126A025, .shli 4 3 5 0x25),
    (0x4146A025, .shri 4 3 5 0x25),
    (0x4166A025, .srai 4 3 5 0x25),
    (0x41861005, .movi 4 3 0x1005),
    (0x41A6B005, .movhi 4 3 5 0x1005),
    (0x41C61005, .addpc 4 3 0x1005),
    (0x4244B005, .cmpi 4 .lt 2 5 0x1005),
    (0x46100005, .br 4 0x100005),
    (0x46300005, .call 4 0x100005)] : List (Nat × Instr)),
    decode e.1 = some e.2 := by decide

/-- jr to scancel. -/
theorem test_words_4 : ∀ e ∈ ([
    (0x4640A000, .jr 4 5),
    (0x4640A001, .callr 4 5),
    (0x46400002, .ret 4),
    (0x4660AD05, .jtab 4 5 6 0x105),
    (0x4680B005, .jmp 4 5 0x1005),
    (0x46B20105, .loop 4 9 0x105),
    (0x46D00B05, .loopi 4 0x805 0x105),
    (0x46E00000, .nop 4),
    (0x46E00001, .lexit 4),
    (0x4706AD05, .ld 4 3 5 .h true 0x105),
    (0x4726B905, .st 4 3 5 .d 0x105),
    (0x4746ACFE, .lda 4 3 5 .h true (.now 0x7E)),
    (0x4766A8FE, .stv 4 3 5 .h (.now 0x7E)),
    (0x4786AD05, .ldn 4 3 5 .h true 0x105),
    (0x47A6B905, .stn 4 3 5 .d 0x105),
    (0x47C0B105, .scancel 4 5 .w 0x105)] : List (Nat × Instr)),
    decode e.1 = some e.2 := by decide

/-- lkup to moff. -/
theorem test_words_5 : ∀ e ∈ ([
    (0x47E6A000, .lkup 4 3 5),
    (0x47E0AC01, .tagin 4 5 6),
    (0x47E6A002, .tagout 4 3 5),
    (0x4806BB05, .ldaq 4 3 5 .dev .w true 0x105),
    (0x4826B105, .strl 4 3 5 .die .w 0x105),
    (0x48400080, .fenceFull 4 .clu),
    (0x48400001, .fenceAcq 4 .core),
    (0x48400182, .fenceRel 4 .dev),
    (0x48600100, .stsync 4 .die),
    (0x4886B905, .rsv 4 3 5 .d 0x105),
    (0x48A6B105, .rls 4 3 5 .w 0x105),
    (0x48C0B905, .rlsn 4 5 .d 0x105),
    (0x48E6ADC0, .lamo 4 3 5 6 .cas .w),
    (0x4900A000, .mon 4 5),
    (0x4906A001, .mwait 4 3 5),
    (0x4900A002, .moff 4 5)] : List (Nat × Instr)),
    decode e.1 = some e.2 := by decide

/-- bari to inbox. -/
theorem test_words_6 : ∀ e ∈ ([
    (0x4920AC00, .bari 4 5 6),
    (0x4926A001, .bara 4 3 5),
    (0x4926A002, .bard 4 3 5),
    (0x4920AC03, .barw 4 5 6),
    (0x49800000, .exit 4),
    (0x49800001, .yield 4),
    (0x49800002, .anchor 4),
    (0x49800003, .roam 4),
    (0x4980A004, .migr 4 5),
    (0x49860005, .who 4 3),
    (0x4980A006, .sleep 4 5),
    (0x4986AC07, .spawn 4 3 5 6),
    (0x49800008, .tnext 4),
    (0x4986AC09, .twait 4 3 5 6),
    (0x49A4AD00, .send 4 2 5 6 true),
    (0x49A6A001, .inbox 4 3 5)] : List (Nat × Instr)),
    decode e.1 = some e.2 := by decide

/-- ipeek to vsra. -/
theorem test_words_7 : ∀ e ∈ ([
    (0x49A60002, .ipeek 4 3),
    (0x49C4A001, .launch 4 2 5 true),
    (0x4A86AC2C, .vadd 4 3 5 6 .bf16 .rup),
    (0x4AA6AC10, .vsub 4 3 5 6 .f32 .srk),
    (0x4AC6AC24, .vmul 4 3 5 6 .bf16 .rtz),
    (0x4AE6AC08, .vfma 4 3 5 6 .f32 .rdn),
    (0x4B06AC2C, .vmin 4 3 5 6 .bf16 .rup),
    (0x4B26AC10, .vmax 4 3 5 6 .f32 .srk),
    (0x4B46A020, .vabs 4 3 5 .bf16),
    (0x4B46A001, .vneg 4 3 5 .f32),
    (0x4B66AC20, .vand 4 3 5 6 .bf16),
    (0x4B66AC01, .vor 4 3 5 6 .f32),
    (0x4B66AC22, .vxor 4 3 5 6 .bf16),
    (0x4B86ACC0, .vshl 4 3 5 6 .i16),
    (0x4B86ACE1, .vshr 4 3 5 6 .i32),
    (0x4B86AD02, .vsra 4 3 5 6 .i64)] : List (Nat × Instr)),
    decode e.1 = some e.2 := by decide

/-- vcmp to vld. -/
theorem test_words_8 : ∀ e ∈ ([
    (0x4BA6AC34, .vcmp 4 3 5 6 .bf16 .ge),
    (0x4BC6AC00, .vsel 4 3 5 6 .f32),
    (0x4BE6A204, .vcvt 4 3 5 .bf16 .f32 .rtz),
    (0x4C06AC28, .vscl 4 3 5 6 .bf16 .rdn),
    (0x4C26A00C, .vreds 4 3 5 .f32 .rup),
    (0x4C26A0E1, .vredm 4 3 5 .i32),
    (0x4C46A010, .vexp2 4 3 5 .f32 .srk),
    (0x4C46A025, .vlog2 4 3 5 .bf16 .rtz),
    (0x4C46A00A, .vrcp 4 3 5 .f32 .rdn),
    (0x4C46A02F, .vrsq 4 3 5 .bf16 .rup),
    (0x4C66AC30, .vdot 4 3 5 6 .bf16 .srk),
    (0x4C86A020, .vbc 4 3 5 .bf16),
    (0x4C86AC01, .vext 4 3 5 6 .f32),
    (0x4C86AC22, .vins 4 3 5 6 .bf16),
    (0x4C86AC03, .vperm 4 3 5 6 .f32),
    (0x4CA6A020, .vld 4 3 5 .bf16)] : List (Nat × Instr)),
    decode e.1 = some e.2 := by decide

/-- vst to collAllreduce. -/
theorem test_words_9 : ∀ e ∈ ([
    (0x4CC6A000, .vst 4 3 5 .f32),
    (0x4CE6AC20, .vldx 4 3 5 6 .bf16),
    (0x4D06AC00, .vstx 4 3 5 6 .f32),
    (0x4D26A020, .vlen 4 3 5 .bf16),
    (0x4D26A001, .vmov 4 3 5 .f32),
    (0x4D2600A2, .viota 4 3 .i8),
    (0x4D8EA000, .kset 4 7 5),
    (0x4DA0A000, .trun 4 5),
    (0x4DA60001, .tstat 4 3),
    (0x4DC6AC00, .hnew 4 3 5 6),
    (0x4DC0A001, .hdel 4 5),
    (0x4E04A000, .cpy 4 2 5),
    (0x4E24A000, .cpyr 4 2 5),
    (0x4E44A000, .fill 4 2 5),
    (0x4E64A002, .collReduce 4 2 5 .f32 .min),
    (0x4E64A045, .collAllreduce 4 2 5 .bf16 .max)] : List (Nat × Instr)),
    decode e.1 = some e.2 := by decide

/-- collRscatter to rret. -/
theorem test_words_10 : ∀ e ∈ ([
    (0x4E64A082, .collRscatter 4 2 5 .f32 .min),
    (0x4E64A0C4, .collAllgather 4 2 5 .bf16),
    (0x4E84A000, .mask 4 2 5),
    (0x4E86AC01, .padv 4 3 5 6),
    (0x4EA6A400, .sample 4 3 5 2),
    (0x4EA6A401, .argmx 4 3 5 2),
    (0x4EC6AC00, .tryPoint 4 3 5 6),
    (0x4EC00001, .fail 4),
    (0x4EC0A002, .cut 4 5),
    (0x4EC60003, .cpd 4 3),
    (0x4EE4A000, .steal 4 2 5),
    (0x4EE00001, .commit 4),
    (0x4F00AC00, .ecnt 4 5 6),
    (0x4F06AC01, .rlook 4 3 5 6),
    (0x4F00AC02, .rpub 4 5 6),
    (0x4F00AC03, .rret 4 5 6)] : List (Nat × Instr)),
    decode e.1 = some e.2 := by decide

/-- rcopy to freqat. -/
theorem test_words_11 : ∀ e ∈ ([
    (0x4F24A000, .rcopy 4 2 5),
    (0x4F24A001, .rmerge 4 2 5),
    (0x4F26A002, .rstat 4 3 5),
    (0x4F401005, .trap 4 0x1005),
    (0x4F601005, .brk 4 0x1005),
    (0x4F861005, .mfsr 4 3 0x1005),
    (0x4FA0B005, .mtsr 4 5 0x1005),
    (0x4FC00000, .eret 4),
    (0x4FCCA001, .segld 4 6 5),
    (0x4FC0A002, .pginv 4 5),
    (0x4FC00003, .idle 4),
    (0x4FC4A004, .circ 4 2 5),
    (0x4FC6A005, .slotsv 4 3 5),
    (0x4FC6A006, .slotld 4 3 5),
    (0x4FE4A000, .stopat 4 2 5),
    (0x4FE4AC01, .freqat 4 2 5 6)] : List (Nat × Instr)),
    decode e.1 = some e.2 := by decide

/-- The tile commands (R70, R274); MMA 1, k3, 1 and MEND are the spec's own. -/
theorem test_words_tile : ∀ e ∈ ([
    (0x01030020000100000000000000008283000000000000123456789ABC7FFE0000, .mldb 0x00200001 true (.k 2) .one .e5m2 true 0x123456789ABC (.rel 0x3FFE)),
    (0x0202FFFFFFF90000000000000000384500000001000000000000000000000000, .mlda 0xFFFFFFF9 (.k 3) (.k 4) .i8 true 0x10000 .dflt),
    (0x0301000000000000000000000000838000000000000000000000000000000000, .mma .one (.k 3) 1),
    (0x0400000000000000000000000000788000000000000000000000000000000000, .mzero (.k 7) .one),
    (0x0501003000020000000000000000128700000002000000000000000000008005, .mst 0x00300002 (.k 1) (.k 2) .i32 true 0x20000 (.now 5)),
    (0x0600000000000000000000000000188000000000004000000000008000000000, .mscl (.k 1) .one 0x40 0x80),
    (0x0707000000000000000000000000888400000000000000000000000000000000, .mfmt (some .srk) true (some true)),
    (0x0700000000000000000000000000888F00000000000000000000000000000000, .mfmt none false none),
    (0x080000000FFF0000000000000000588000000000000000000000000000000000, .mrep (.k 5) 4095),
    (0x0900000000000000000000000000000000000000000000000000000000000000, .mend)] : List (Nat × Instr)),
    decodeTile e.1 = some e.2 := by decide

/-- Words that the spec says are no instructions, with guard 0001 among them. -/
theorem test_no_words_1 : ∀ w ∈ [0x00000000, 0x01822020, 0x0A000000, 0x07000200, 0x07079C00, 0x012A6040, 0x07763181, 0x0776314C, 0x07C25001, 0x07A25400, 0x082ACE00, 0x08079E00, 0x08400003, 0x08400004, 0x08420000, 0x08600001, 0x08868404, 0x08869402],
    decode w = none := by decide

/-- Words that the spec says are no instructions, with guard 0001 among them. -/
theorem test_no_words_2 : ∀ w ∈ [0x08C69002, 0x08E68B41, 0x0A824614, 0x0A824720, 0x0A8246E0, 0x0B824600, 0x0CA262E0, 0x0C266005, 0x0D90C000, 0x0D80C001, 0x0DA28000, 0x0DA62001, 0x0DC68A02, 0x0DE00000, 0x0F842002, 0x0FA2A001, 0x0F420005, 0x11820020],
    decode w = none := by decide

/-- Tile words that R274 refuses: an extent in an unused field, macs = 0, MFMT with sat and not sat given, a k-reference with other bits. -/
theorem test_no_words_tile : ∀ w ∈ [0x0400000000000000000000000000787000000000000000000000000000000000, 0x0300000000000000000000000000838000000000000000000000000000000000,
    0x0702000000000000000000000000888F00000000000000000000000000000000, 0x0100FFF000000000000000000000828100000000000000000000000000000000], decodeTile w = none := by decide

/-- An ill-formed term for each check of `Instr.wf` (R55, R57, R60, R126, R244, R249, R252 to R258, R269, R274, R292). -/
theorem test_ill_formed : ∀ i ∈ ([
    .add 1 3 4 5, .sext 0 3 4 .d, .zext 0 3 4 .d, 
    .loop 0 3 0, .loopi 0 4 0, .ld 0 3 4 .d true 0, 
    .lda 0 3 4 .d true (.rel 0), .ldn 0 3 4 .d true 0, .ldaq 0 3 4 .core .d true 0, 
    .vadd 0 1 2 3 .e4m3 .rne, .vsub 0 1 2 3 .i32 .rne, .vmul 0 1 2 3 .i4 .dyn, 
    .vfma 0 1 2 3 .e5m2 .dyn, .vmin 0 1 2 3 .i4 .rne, .vmax 0 1 2 3 .e4m3 .rne, 
    .vabs 0 1 2 .i4, .vneg 0 1 2 .e5m2, .vshl 0 1 2 3 .f32, 
    .vshr 0 1 2 3 .bf16, .vsra 0 1 2 3 .i4, .vcmp 0 1 2 3 .i4 .eq, 
    .vscl 0 1 2 3 .i32 .rne, .vreds 0 1 2 .i32 .rne, .vredm 0 1 2 .i64, 
    .vexp2 0 1 2 .i32 .rne, .vlog2 0 1 2 .e4m3 .rne, .vrcp 0 1 2 .i8 .rne, 
    .vrsq 0 1 2 .i16 .rne, .vdot 0 1 2 3 .f32 .rne, .vldx 0 1 2 3 .i4, 
    .vstx 0 1 2 3 .i4, .viota 0 1 .f32, .mldb 0xFFF00000 true .one .one .bf16 false 0 .dflt, 
    .mldb 1 true .one .one .f32 false 0 .dflt, .mldb 1 true .one .one .bf16 true 0 .dflt, .mlda 1 .one .one .i4 false 0 .dflt, 
    .mma .one .one 0, .mst 1 .one .one .i4 false 0 .dflt, .mfmt (some .dyn) false none, 
    .mrep .one 0, .mrep .one 4096, .collReduce 0 1 4 .e4m3 .sum, 
    .collAllreduce 0 1 4 .i8 .max, .collRscatter 0 1 4 .i16 .min] : List Instr), i.wf = false := by decide

/-! ## Small states -/

/-- What a step answers holds of its next state. -/
def after (o : Host.Outcome State Fault Refusal) (f : State → Bool) : Bool :=
  match o with
  | .next t => f t
  | _ => false

/-- What is read or found is this, with no error. -/
def okIs {ε α : Type} [DecidableEq α] (x : Except ε α) (a : α) : Bool :=
  match x with
  | .ok b => decide (b = a)
  | .error _ => false

/-- General registers, 0 but for those listed. -/
def regs (l : List (Nat × Word)) : Vector Word 16 := Vector.ofFn fun k => ((l.find? fun e => e.1 == k.val).map (·.2)).getD 0

/-- The first byte of the executing core's store in W0, of the core's store in W1, of W2 and of W3, on device 0x1FFF. -/
def w0 : Word := 0x1FFF000000000000
def w1 : Word := 0x1FFF000100000000
def w2 : Word := 0x1FFF000200000000
def w3 : Word := 0x1FFF010000000000

/-- Segments: s0 the first half of the core's store with X, R, W and N; s1 the first 2 MiB of W2 with R, W and I; s2 the same of W3 with
R, W and N; s3 4 KiB of the store's second half with R, W, N and T; s4 the stores of W1 with R, W and N. -/
def segs : Vector Seg 8 := Vector.ofFn fun k => match k.val with
  | 0 => ⟨w0, 0x40000, 0x17⟩
  | 1 => ⟨w2, 0x200000, 0x0B⟩
  | 2 => ⟨w3, 0x200000, 0x13⟩
  | 3 => ⟨w0 + 0x40000, 0x1000, 0x53⟩
  | 4 => ⟨w1, 0x40000000, 0x13⟩
  | _ => {}

/-- A runnable anchored thread at 0x100 of its core's store. -/
def thread (l : List (Nat × Word)) : Slot :=
  { run := .runnable, ctx := { pc := w0 + 0x100, g := regs l, mode := 4, wsp := w0 + 0x3000 }, seg := segs }

/-- The first 2 MiB of W2 lie in die 0's SRAM and those of W3 in its DRAM from 2 MiB on (R140). -/
def pages : Mem := Mem.write (Mem.write [] (2 ^ 41 + 0x30000) 8 (2 ^ 63 + 2 ^ 62 + 2 ^ 52)) (2 ^ 41 + 0x40000) 8 (2 ^ 63 + 2 ^ 62 + 0x200000)

/-- The device with partition 0 made of every die, bank and slot; slots of core 0 and others hold threads. -/
def many (l : Table Slot) : State :=
  { State.reset with
    slots := l, mem := pages
    parts := State.reset.parts.set 0 { regs := { tvec := w0 + 0x800, ptw2 := 0x8000000000030000, ptw3 := 0x8000000000040000 } }
    dev := { State.reset.dev with pdef := State.reset.dev.pdef.set 0 placedPdef } }

def alone (x : Slot) : State := many [(0, x)]

def plain : State := alone (thread [(4, 40), (5, 50), (6, 6)])

/-- The thread with a choice point open in its window. -/
def choosing (x : Slot) : Slot := 
  { x with points := [{ tab := w0, thf := 0, next := 1, naltm := 2, dreg := 0, prov := 0, wf := x.wf, loops := x.ctx.loops, trl := 0 }] }

/-! ## Scalar and control instructions -/

theorem test_scalar_results : scalarResult plain (.add 0 3 4 5) = some (0, 3, 90) ∧ plain.Performs 0 0 false ∧ plain.TrailRoom ∧
    after (exec (.add 0 3 4 5) plain) (fun t => t.g 3 == 90 && t.ctx.pc == w0 + 0x104) = true := by decide +kernel

/-- The source is the destination, and the sum wraps. -/
theorem test_add_wraps : after (exec (.addi 0 4 4 0x1FFF) (alone (thread []))) (fun t => t.g 4 == .allOnes 64) = true := by decide +kernel

/-- MUL, MULHI and MULHU of R106's table: 0x1_0000_0001 squared, and −1 by 2. -/
theorem test_products : let s := alone (thread [(4, 0x100000001), (5, 0xFFFFFFFFFFFFFFFF), (6, 2)])
    after (exec (.mul 0 3 4 4) s) (fun t => t.g 3 == 0x0000000200000001) = true ∧
    after (exec (.mulhi 0 3 5 6) s) (fun t => t.g 3 == .allOnes 64) = true ∧
    after (exec (.mulhu 0 3 5 6) s) (fun t => t.g 3 == 1) = true := by decide +kernel

/-- A shift amount is taken modulo 64; SRA keeps the sign. -/
theorem test_shifts : let s := alone (thread [(4, 0x8000000000000001), (5, 65)])
    after (exec (.shl 0 3 4 5) s) (fun t => t.g 3 == 2) = true ∧ after (exec (.rol 0 3 4 5) s) (fun t => t.g 3 == 3) = true ∧
    after (exec (.sra 0 3 4 5) s) (fun t => t.g 3 == 0xC000000000000000) = true := by decide +kernel

theorem test_predicate_results : predResult plain (.cmp 0 1 4 5 .ltu) = some (0, 1, true) ∧ plain.Performs 0 0 false ∧ plain.TrailRoom ∧
    after (exec (.cmp 0 1 4 5 .ltu) plain) (fun t => t.p 1) = true ∧
    after (exec (.cmpi 0 .ltu 1 4 0x1FFF) plain) (fun t => t.p 1) = true ∧
    after (exec (.pxor 0 0 0 0) plain) (fun t => t.p 0) = true := by decide +kernel

/-- R108: CLZ, CTZ of 0 and of 1; R106: division by 0, the signed overflow, and −7 by 2. -/
theorem test_values : leadingZeros 0 64 = 64 ∧ trailingZeros 0 0 64 = 64 ∧ leadingZeros 1 64 = 63 ∧ trailingZeros 1 0 64 = 0 ∧
    divide .div 5 0 = .allOnes 64 ∧ divide .remu 5 0 = 5 ∧ divide .div (.intMin 64) (.allOnes 64) = .intMin 64 ∧
    divide .rem (.intMin 64) (.allOnes 64) = 0 ∧ divide .div (-7) 2 = -3 ∧ divide .rem (-7) 2 = -1 := by decide +kernel

/-- The divider is free, and then it is not. -/
theorem test_division_starts : let s := alone (thread [(4, 7), (5, 2)])
    let u := s.setCoreAt 0 { s.coreAt 0 with divider := [⟨1, .div, 0, 1, 1, 40⟩] }
    divisionOf (.div 0 3 4 5) = some (0, .div, 3, 4, 5) ∧ s.Performs 0 0 false ∧ u.Performs 0 0 false ∧
    (s.coreAt s.coreIdx).divider = [] ∧ (u.coreAt u.coreIdx).divider.getLast? = some ⟨1, .div, 0, 1, 1, 40⟩ ∧
    after (exec (.div 0 3 4 5) s) (fun t => (t.coreAt 0).divider == [⟨0, .div, 3, 7, 2, 16⟩] && t.slot.run == .waiting .divider) = true ∧
    after (exec (.remu 0 3 4 5) u) (fun t => (t.coreAt 0).divider.getLast? == some ⟨0, .remu, 3, 7, 2, 56⟩) = true := by decide +kernel

/-- The 16 cycles have passed, and one is still to come. -/
theorem test_divider_done : let s := alone { thread [] with run := .waiting .divider }
    let w := s.setCoreAt 0 { s.coreAt 0 with divider := [⟨0, .rem, 3, 7, 2, 16⟩] }
    let u : State := { w with cyc := 16 }
    (u.coreAt 0).divider = [⟨0, .rem, 3, 7, 2, 16⟩] ∧ u.slot.run = .waiting .divider ∧ u.TrailRoom ∧ 16 ≤ u.cycles 0 ∧
    w.cycles 0 < 16 ∧ after (exec (.dividerDone 0) w) (fun t => t == w) = true ∧
    after (exec (.dividerDone 0) u) (fun t => t.g 3 == 1 && t.slot.run == .runnable && t.slot.ready == 20) = true := by decide +kernel

/-- In the point's window, and in a deeper one. -/
theorem test_scalar_trail : let s := alone (choosing (thread [(9, 9)]))
    let u := alone { choosing (thread [(9, 9)]) with windows := [.replicate 8 0] }
    scalarResult s (.movi 0 9 5) = some (0, 9, 5) ∧ s.Performs 0 0 false ∧ s.slot.trail.length < 256 ∧ s.slot.inh = false ∧
    u.Performs 0 0 false ∧ (∃ q ∈ u.slot.points, u.slot.wf ≠ q.wf) ∧ (∃ q ∈ s.slot.points, s.slot.wf = q.wf) ∧
    after (exec (.movi 0 9 5) s) (fun t => t.slot.trail == [⟨.greg 9, 9, some s.slot.wf⟩]) = true ∧
    after (exec (.movi 0 9 5) u) (fun t => t.slot.trail == []) = true := by decide +kernel

/-- BR of −3 words under p2's guard (06_control). -/
theorem test_transfers : let s := alone { thread [(5, w0 + 0x40)] with ctx := { (thread [(5, w0 + 0x40)]).ctx with p := 4 } }
    transferOf s (.br 4 0x1FFFFD) = some (4, w0 + 0xF4) ∧ s.Performs 4 0 false ∧
    after (exec (.br 4 0x1FFFFD) s) (fun t => t.ctx.pc == w0 + 0xF4) = true ∧
    after (exec (.jr 0 5) s) (fun t => t.ctx.pc == w0 + 0x40) = true ∧
    after (exec (.jmp 0 5 0x1FFF) s) (fun t => t.ctx.pc == w0 + 0x3C) = true ∧
    after (exec (.br 5 0x1FFFFD) s) (fun t => t.ctx.pc == w0 + 0x104) = true := by decide +kernel

theorem test_calls : let s := alone (thread [(1, 11), (9, 99), (14, 14)])
    callOf s (.call 0 16) = some (0, w0 + 0x140) ∧ s.Performs 0 0 false ∧ s.slot.windows.length < 4 ∧
    after (exec (.call 0 16) s) (fun t => t.ctx.pc == w0 + 0x140 && t.g 15 == w0 + 0x104 && t.g 9 == 0 && t.g 14 == 14 && t.g 1 == 11) =
      true := by decide +kernel

theorem test_returns : let s := alone { thread [(15, w0 + 0x104)] with windows := [.replicate 8 7] }
    s.Performs 0 0 false ∧ s.slot.points = [] ∧ s.g 15 ≠ 0 ∧ s.slot.windows ≠ [] ∧
    after (exec (.ret 0) s) (fun t => t.ctx.pc == w0 + 0x104 && t.g 9 == 7 && t.slot.windows == []) = true := by decide +kernel

theorem test_return_escapes : let s := alone (choosing (thread [(15, w0 + 0x104)]))
    s.Performs 0 0 false ∧ s.slot.inh = false ∧ (∃ q, s.slot.points = [q] ∧ q.wf = s.slot.wf) ∧
    after (exec (.ret 0) s) (fun t => t.slot.cause == 0x12 && t.slot.tval == w0 + 0x104 && t.ctx.pc == w0 + 0x800) = true := by
  refine ⟨by decide, by decide, ⟨_, rfl, rfl⟩, by decide⟩

/-- Index 2 of a table of two falls through; index 1 jumps by −2 words. -/
theorem test_jump_table : let s := alone (thread [(7, 2), (13, w0 + 0x2000)])
    let u : State := { alone (thread [(7, 1), (13, w0 + 0x2000)]) with mem := Mem.write pages 0x2004 4 0xFFFFFFFE }
    s.Performs 0 0 false ∧ (2 : BitVec 9).toNat ≤ (s.g 7).toNat ∧ u.Performs 0 0 false ∧ (u.g 7).toNat < (2 : BitVec 9).toNat ∧
    okIs (u.access (u.g 13 + 4 * u.g 7) 4 { r := true, n := true }) (.here ⟨0x2004, 0, false⟩) = true ∧ u.coreIdx = 0 ∧
    okIs (u.readAt (u.g 13 + 4 * u.g 7) ⟨0x2004, 0, false⟩ 4) 0xFFFFFFFE = true ∧
    after (exec (.jtab 0 7 13 2) s) (fun t => t.ctx.pc == w0 + 0x104) = true ∧
    after (exec (.jtab 0 7 13 2) u) (fun t => t.ctx.pc == w0 + 0xF8) = true := by decide +kernel

/-- A count above 4,095, one of 0, a fifth loop, and one of 3 whose end is its next word. -/
theorem test_loops : let s := alone (thread [(8, 4096), (9, 3)])
    let u := alone { thread [] with ctx := { (thread []).ctx with loops := .replicate 4 0x00100801 } }
    loopOf s (.loop 0 8 1) = some (0, 4096, 1) ∧ loopOf s (.loop 0 7 1) = some (0, 0, 1) ∧ loopOf s (.loop 0 9 1) = some (0, 3, 1) ∧
    s.Performs 0 0 false ∧ u.Performs 0 0 false ∧ loopOf u (.loopi 0 3 1) = some (0, 3, 1) ∧ 4 ≤ (loopsUsed u.ctx.loops).length ∧
    (loopsUsed s.ctx.loops).length < 4 ∧
    after (exec (.loop 0 8 1) s) (fun t => t.slot.cause == 0x0B && t.slot.tval == 4096) = true ∧
    after (exec (.loop 0 7 1) s) (fun t => t.ctx.pc == w0 + 0x108) = true ∧
    after (exec (.loopi 0 3 1) u) (fun t => t.slot.cause == 0x0B && t.slot.tval == 0) = true ∧
    after (exec (.loop 0 9 1) s) (fun t => t.ctx.pc == w0 + 0x104 && (loopsUsed t.ctx.loops).length == 1) = true := by decide +kernel

/-- Each clause of the end check: another address, the last trip, and a trip that is left. -/
theorem test_end_check : let e := loopEntry 2 1 0x41
    loopL e ≠ 0 ∧ (0x100 : Word).toNat / 4 % 2 ^ 11 ≠ loopE e ∧ (0x104 : Word).toNat / 4 % 2 ^ 11 = loopE e ∧ 0 < loopC e ∧
    loopL (loopEntry 0 1 0x41) ≠ 0 ∧ loopC (loopEntry 0 1 0x41) = 0 ∧ loopE (loopEntry 0 1 0x41) = 0x41 ∧
    endCheckFrom 0x104 [e] = ([loopEntry 1 1 0x41], some 0x104) := by decide +kernel

theorem test_loop_exit : let s := alone { thread [] with ctx := { (thread []).ctx with loops := loopsOf [loopEntry 2 4 0x50] } }
    s.Performs 0 0 false ∧ after (exec (.lexit 0) s) (fun t => t.ctx.loops == .replicate 4 0 && t.ctx.pc == w0 + 0x104) = true ∧
    after (exec (.nop 0) s) (fun t => t.ctx == { s.ctx with pc := w0 + 0x104 }) = true := by decide +kernel

/-- No window is cached: a reload from W1, from W0 and from a line that fails its check; and a return with lk 0. -/
theorem test_returns_reload : let x : Slot := { thread [(15, w0 + 0x104)] with ctx := { (thread [(15, w0 + 0x104)]).ctx with wsp := w1 + 0x2000 } }
    let s : State := { alone x with mem := Mem.write pages 0x2000 8 7 }
    let b : State := { s with bad := [0x2000 / 64] }
    let w := alone (thread [(15, w0 + 0x104)])
    s.Performs 0 0 false ∧ s.slot.points = [] ∧ s.g 15 ≠ 0 ∧ s.slot.windows = [] ∧ winOf (localAddr s.ctx.wsp) = some .w1 ∧
    okIs (s.access s.ctx.wsp 64 { r := true, n := true }) (.here ⟨0x2000, 0, false⟩) = true ∧ s.coreIdx = 0 ∧ s.badAt 0x2000 = false ∧
    b.badAt 0x2000 = true ∧ winOf (localAddr w.ctx.wsp) = some .w0 ∧ plain.g 15 = 0 ∧ plain.MayEnd ∧
    after (exec (.ret 0) s) (fun t => t.ctx.pc == w0 + 0x104 && t.g 8 == 7 && t.g 15 == 0 && t.ctx.wsp == w1 + 0x2040 && t.slot.windows == []) = true ∧
    after (exec (.ret 0) b) (fun t => t.slot.cause == 0x17 && t.slot.tval == w1 + 0x2000) = true ∧
    after (exec (.ret 0) w) (fun t => t.slot.cause == 0x03 && t.slot.tval == w0 + 0x3000) = true ∧
    after (exec (.ret 0) plain) (fun t => t.slot.run == .free) = true := by decide +kernel

/-- A body of the words 0x40 and 0x41: a return to 0x104 keeps it, one to 0x108 pops it. -/
theorem test_loops_popped : let e := loopEntry 3 2 0x41
    loopL e = 2 ∧ loopE e = 0x41 ∧ popFor (w0 + 0x104) [e] = [e] ∧ popFor (w0 + 0x108) [e] = [] ∧ popFor (w0 + 0xFC) [e] = [] := by decide +kernel
/-! ## Memory instructions -/

/-- The place of an address in the first 4 KiB of W2, or of W3, which are homed at core 0. -/
def at2 (k : Nat) : Place := ⟨2 ^ 40 + k, 0, false⟩
def at3 (k : Nat) : Place := ⟨2 ^ 41 + 0x200000 + k, 0, false⟩

/-- The partition's counter at an instant. -/
def nowAt (s : State) (v : Instant) : State := s.setPartAt 0 { s.partAt 0 with now := v }

/-- The bytes at an address hold a value. -/
def holding (s : State) (a n x : Nat) : State := { s with mem := s.mem.write a n x }

/-- LD.hs at its home core, at the instant itself and above the floor. -/
theorem test_instant_loads : let s := holding (nowAt (alone (thread [(4, w2 + 0x46)])) 5) (2 ^ 40 + 0x40) 2 0x8001
    (Instr.ld 0 3 4 .h true 0x1FD).wf = true ∧ instLoad s (.ld 0 3 4 .h true 0x1FD) = some (0, 3, .h, true, w2 + 0x40, 0) ∧
    instLoad s (.lda 0 3 4 .h true (.now 0)) = some (0, 3, .h, true, w2 + 0x46, 5) ∧ s.Performs 0 0 false ∧ s.TrailRoom ∧
    s.slot.prog.inst = none ∧ okIs (s.access (w2 + 0x40) 2 { r := true, i := true }) (.here (at2 0x40)) = true ∧ (at2 0).home = s.coreIdx ∧
    s.badAt (at2 0x40).phys = false ∧ s.floor 0 0 ((2 ^ 40 + 0x40) / 64) ≤ 0 ∧
    after (exec (.ld 0 3 4 .h true 0x1FD) s) (fun t => t.g 3 == 0xFFFFFFFFFFFF8001 && t.ctx.pc == w0 + 0x104) = true := by decide +kernel

/-- now+1 waits; REL = 0 lies below a floor of 2. -/
theorem test_instant_load_waits : let s := nowAt (alone (thread [(4, w2 + 0x40)])) 5
    let u := s.setPortAt 0 { s.portAt 0 with floors := [(0, (2 ^ 40 + 0x40) / 64, 2)] }
    instLoad s (.lda 0 3 4 .w false (.now 1)) = some (0, 3, .w, false, w2 + 0x40, 6) ∧ s.Performs 0 0 false ∧ s.slot.prog.inst = none ∧
    okIs (s.access (w2 + 0x40) 4 { r := true, i := true }) (.here (at2 0x40)) = true ∧ s.part.now.toNat < 6 ∧
    instLoad u (.ld 0 3 4 .w false 0) = some (0, 3, .w, false, w2 + 0x40, 0) ∧ u.Performs 0 0 false ∧ u.badAt (at2 0x40).phys = false ∧
    0 < u.floor 0 0 ((2 ^ 40 + 0x40) / 64) ∧ okIs (u.access (w2 + 0x40) 4 { r := true, i := true }) (.here (at2 0x40)) = true ∧
    after (exec (.lda 0 3 4 .w false (.now 1)) s) (fun t => t.slot.run == .waiting (.instant 6)) = true ∧
    after (exec (.ld 0 3 4 .w false 0) u) (fun t => t.slot.cause == 0x09 && t.slot.tval == w2 + 0x40) = true := by decide +kernel

/-- Of versions superseded at 3 and 7, an instant of 2 takes the first, one of 3 the second, one of 7 the memory's value. -/
theorem test_version_chosen : let s := alone (thread [])
    let u := s.setPortAt 0 { s.portAt 0 with history := [⟨0, 9, 7, 70⟩, ⟨0, 9, 3, 30⟩] }
    u.lineAt 0 0 9 2 = 30 ∧ u.lineAt 0 0 9 3 = 70 ∧ u.lineAt 0 0 9 7 = 0 := by decide +kernel

/-- The buffer's last free entry. -/
theorem test_provisional_stores : let s := alone (choosing (thread [(4, w2 + 0x40), (7, 77)]))
    let e : ProvEnt := ⟨1, 0, { va := 0, pl := at2 0, n := 1, x := 0, mask := 0, v := 0, ord := 0, slip := false }, false⟩
    let u := s.setCoreAt 0 { s.coreAt 0 with prov := .replicate 63 e }
    instStore u (.st 0 7 4 .w 0) = some (0, 7, .w, w2 + 0x40, 0) ∧ u.Performs 0 0 true ∧ u.slot.open_ = true ∧ u.slot.prog.inst = none ∧
    u.ctx.seqNo ≠ 0xFFFF ∧ okIs (u.access (w2 + 0x40) 4 { w := true, i := true }) (.here (at2 0x40)) = true ∧ (u.coreAt 0).prov.length < 64 ∧
    after (exec (.st 0 7 4 .w 0) u) (fun t => (t.coreAt 0).prov.length == 64 && t.ctx.ord == 1) = true := by decide +kernel

theorem test_stores_sent : let s := alone (thread [(4, w2 + 0x40), (7, 77)])
    instStore s (.stv 0 7 4 .w (.rel 1)) = some (0, 7, .w, w2 + 0x40, 1) ∧ s.Performs 0 0 true ∧ s.slot.open_ = false ∧
    s.slot.prog.inst = none ∧ s.ctx.seqNo ≠ 0xFFFF ∧ okIs (s.access (w2 + 0x40) 4 { w := true, i := true }) (.here (at2 0x40)) = true ∧
    (at2 0).home = s.coreIdx ∧
    after (exec (.stv 0 7 4 .w (.rel 1)) s) (fun t => t.net.length == 1 && t.slot.run == .waiting .reply && t.mem == s.mem) = true := by
  decide +kernel

theorem test_store_sequence_ends : let s := alone { thread [(4, w2)] with ctx := { (thread [(4, w2)]).ctx with ord := 0xFFFF } }
    instStore s (.st 0 7 4 .w 0) = some (0, 7, .w, w2, 0) ∧ s.Performs 0 0 true ∧ s.ctx.seqNo = 0xFFFF ∧
    after (exec (.st 0 7 4 .w 0) s) (fun t => t.slot.cause == 0x08 && t.slot.tval == w2) = true := by decide +kernel

/-- LDN.bs reads the byte at the lower address first (R6). -/
theorem test_now_loads : let s := holding (alone (thread [(4, w0 + 0x2000)])) 0x2000 2 0x7F80
    (Instr.ldn 0 3 4 .b true 0).wf = true ∧ s.Performs 0 0 false ∧ s.TrailRoom ∧
    okIs (s.access (s.g 4 + .ofInt 64 ((0 : BitVec 9).toInt * sizeBytes .b)) 1 { r := true, n := true }) (.here ⟨0x2000, 0, false⟩) = true ∧
    s.badAt 0x2000 = false ∧ after (exec (.ldn 0 3 4 .b true 0) s) (fun t => t.g 3 == 0xFFFFFFFFFFFFFF80) = true ∧
    after (exec (.ldn 0 3 4 .h false 0) s) (fun t => t.g 3 == 0x7F80) = true := by decide +kernel

/-- STN.h writes two bytes at −2, the low one at the lower address, and leaves its neighbours. -/
theorem test_now_stores : let s := holding (alone (thread [(4, w0 + 0x2002), (7, 0x12345)])) 0x2002 1 9
    s.Performs 0 0 false ∧ s.slot.open_ = false ∧
    okIs (s.access (s.g 4 + .ofInt 64 ((0x1FF : BitVec 9).toInt * sizeBytes .h)) 2 { w := true, n := true }) (.here ⟨0x2000, 0, false⟩) =
      true ∧
    after (exec (.stn 0 7 4 .h 0x1FF) s) (fun t => t.mem.byte 0x2000 == 0x45 && t.mem.byte 0x2001 == 0x23 && t.mem.byte 0x2002 == 9) =
      true := by decide +kernel

theorem test_now_store_escapes : let s := alone (choosing (thread [(4, w0 + 0x2000)]))
    s.Performs 0 0 false ∧ s.slot.open_ = true ∧
    okIs (s.access (s.g 4 + .ofInt 64 ((0 : BitVec 9).toInt * sizeBytes .w)) 4 { w := true, n := true }) (.here ⟨0x2000, 0, false⟩) = true ∧
    s.slot.inArena (s.g 4 + .ofInt 64 ((0 : BitVec 9).toInt * sizeBytes .w)) 4 = false ∧
    after (exec (.stn 0 7 4 .w 0) s) (fun t => t.slot.cause == 0x12 && t.slot.tval == w0 + 0x2000) = true := by decide +kernel

/-- Two of the task's bytes wait; SCANCEL.b withdraws the one at its address. -/
theorem test_cancels_withdraw : let s := alone (thread [(4, w2 + 0x41)])
    let e : Pending := ⟨0, (2 ^ 40 + 0x40) / 64, 3, 0, false, [(0, 0, 1), (1, 0, 2)]⟩
    let u := s.setPortAt 0 { s.portAt 0 with pending := [e] }
    u.Performs 0 0 false ∧ u.slot.open_ = false ∧
    okIs (u.access (u.g 4 + .ofInt 64 ((0 : BitVec 9).toInt * sizeBytes .b)) 1 { w := true, i := true }) (.here (at2 0x41)) = true ∧
    after (exec (.scancel 0 4 .b 0) u) (fun t => (t.portAt 0).pending == [{ e with bytes := [(0, 0, 1)] }]) = true := by decide +kernel

/-- A table of four tags of 64-byte lines. -/
theorem test_tags : let s := alone (thread [(4, w0 + 0x2040), (5, 3), (6, 4)])
    let u := s.setPartAt 0 { s.partAt 0 with regs := { (s.partAt 0).regs with tagcfg := 4 } }
    u.Performs 0 0 false ∧ u.TrailRoom ∧ u.slot.open_ = false ∧ (u.g 5).toNat < tagSize u.part.regs.tagcfg ∧
    tagSize u.part.regs.tagcfg ≤ (u.g 6).toNat ∧ u.slot.dataSeg (u.g 4) = some ⟨w0, 0x40000, 0x17⟩ ∧ (⟨w0, 0x40000, 0x17⟩ : Seg).n = true ∧
    after (exec (.lkup 0 3 4) u) (fun t => t.g 3 == 0xFFFF) = true ∧
    after (exec (.tagin 0 4 5) u) (fun t => after (exec (.lkup 0 3 4) t) fun r => r.g 3 == 3) = true ∧
    after (exec (.tagin 0 4 5) u) (fun t => after (exec (.tagout 0 3 5) t) fun r => (r.coreAt 0).tags == []) = true ∧
    after (exec (.tagin 0 4 6) u) (fun t => t.slot.cause == 0x03 && t.slot.tval == 4) = true := by decide +kernel

/-- The line of 0x2000 of core 0's store fails its check. -/
def failing (s : State) : State := { s with bad := [0x2000 / 64] }

theorem test_now_store_of_a_failing_line : let s := failing (alone (thread [(4, w0 + 0x2000)]))
    s.Performs 0 0 false ∧ s.slot.open_ = false ∧ s.badAt 0x2000 = true ∧
    okIs (s.access (s.g 4 + .ofInt 64 ((0 : BitVec 9).toInt * sizeBytes .w)) 4 { w := true, n := true }) (.here ⟨0x2000, 0, false⟩) = true ∧
    after (exec (.stn 0 7 4 .w 0) s) (fun t => t.slot.cause == 0x17 && t.slot.tval == w0 + 0x2000) = true := by decide +kernel

/-- A choice point is open; the address lies in no segment; its segment lacks N. -/
theorem test_tag_traps : let s := alone (thread [(3, w2), (5, 3), (6, 4)])
    let u := s.setPartAt 0 { s.partAt 0 with regs := { (s.partAt 0).regs with tagcfg := 4 } }
    let c := u.setSlot (choosing u.slot)
    c.Performs 0 0 false ∧ c.slot.open_ = true ∧ u.Performs 0 0 false ∧ u.slot.open_ = false ∧
    (u.g 5).toNat < tagSize u.part.regs.tagcfg ∧ tagSize u.part.regs.tagcfg ≤ (u.g 6).toNat ∧ u.slot.dataSeg (u.g 4) = none ∧
    (u.slot.dataSeg (u.g 3)).any (fun e => !e.n) = true ∧
    after (exec (.tagin 0 3 5) c) (fun t => t.slot.cause == 0x12 && t.slot.tval == w2) = true ∧
    after (exec (.tagout 0 7 6) u) (fun t => t.slot.cause == 0x03 && t.slot.tval == 4) = true ∧
    after (exec (.tagin 0 4 5) u) (fun t => t.slot.cause == 0x03 && t.slot.tval == 0) = true ∧
    after (exec (.tagin 0 3 5) u) (fun t => t.slot.cause == 0x04 && t.slot.tval == w2) = true := by decide +kernel

/-! ## Requests, stores and replies on their way, and ordering -/

/-- One packet of partition 0 is in flight. -/
def flying (s : State) (b : Body) : State := { s with net := [⟨0, b⟩] }

/-- The slot of the thread waits, with what it does with the answer. -/
def waits (x : Slot) (f : Finish) : Slot := { x with run := .waiting .reply, prog := { fin := some f } }

theorem test_requests_served :
    let s := flying (holding plain 0x2000 2 0x7F80) (.request 0 (.read (w0 + 0x2000) ⟨0x2000, 0, false⟩ 2 .plain))
    let u := flying plain (.request 0 (.write (w0 + 0x2000) ⟨0x2000, 0, false⟩ 2 0x1234))
    s.net[0]? = some ⟨0, .request 0 (.read (w0 + 0x2000) ⟨0x2000, 0, false⟩ 2 .plain)⟩ ∧ s.badAt 0x2000 = false ∧
    u.net[0]? = some ⟨0, .request 0 (.write (w0 + 0x2000) ⟨0x2000, 0, false⟩ 2 0x1234)⟩ ∧
    after (exec (.remoteRequest 0) s) (fun t => t.net == [⟨0, .reply 0 (.ok 0x7F80) (.plain 0x80)⟩]) = true ∧
    after (exec (.remoteRequest 0) u) (fun t => t.mem.byte 0x2000 == 0x34 && t.mem.byte 0x2001 == 0x12) = true := by decide +kernel

/-- A store of 2 bytes at 0x40 of W2 for instant 6, before and at that instant. -/
def storing : Store :=
  { va := w2 + 0x40, pl := at2 0x40, n := 2, x := 0x1234, mask := .allOnes 64, v := 6, ord := 3, slip := false }

theorem test_store_arrivals : let s := flying (nowAt plain 5) (.store (.slot 0) storing)
    let u := flying (nowAt plain 6) (.store (.slot 0) storing)
    let w := flying (nowAt plain 6) (.store (.slot 0) { storing with slip := true })
    s.net[0]? = some ⟨0, .store (.slot 0) storing⟩ ∧ (s.partAt 0).now.toNat < storing.v.toNat ∧
    ((s.portAt ((at2 0x40).home / 16)).take 0 storing storing.v false).isSome = true ∧
    u.net[0]? = some ⟨0, .store (.slot 0) storing⟩ ∧ storing.v.toNat ≤ (u.partAt 0).now.toNat ∧ storing.slip = false ∧
    w.net[0]? = some ⟨0, .store (.slot 0) { storing with slip := true }⟩ ∧
    ((w.portAt 0).take 0 { storing with slip := true } ((w.partAt 0).now + 1) false).isSome = true ∧
    after (exec (.storeArrival 0) s) (fun t => t.net == [⟨0, .reply 0 (.ok 0) (.plain (2 ^ 34 + 1))⟩] && t.mem == s.mem &&
      (t.portAt 0).pending == [⟨0, (2 ^ 40 + 0x40) / 64, 6, 0, false, [(0, 3, 0x34), (1, 3, 0x12)]⟩]) = true ∧
    after (exec (.storeArrival 0) u) (fun t => t.net == [⟨0, .reply 0 (.fail 0x08 (w2 + 0x40)) (.plain (2 ^ 34 + 1))⟩]) = true ∧
    after (exec (.storeArrival 0) w) (fun t => (t.portAt 0).pending.map (·.v) == [7] && (t.partAt 0).regs.slips == 1) = true := by
  decide +kernel

/-- An equal sequence replaces the byte, a lower one does not. -/
theorem test_pending_bytes : let bs : List (Nat × BitVec 16 × Byte) := [(0, 3, 1), (1, 3, 2)]
    (∀ x ∈ bs, ∀ y ∈ bs, x.1 = y.1 → x = y) ∧ ((1, 3, 2) : Nat × BitVec 16 × Byte) ∈ bs ∧
    mergeCell bs (1, 3, 9) = [(0, 3, 1), (1, 3, 9)] ∧ mergeCell bs (1, 2, 9) = bs := by decide +kernel

theorem test_notes_inert : LineNote.Inert .none := fun _ _ _ => rfl

theorem test_replies_taken :
    let s := alone (waits (thread [(3, 7)]) (.load 3 .b true))
    let u := alone (waits (thread [(3, 7)]) .accepted)
    (s.partAt 0).kept = [] ∧ s.slot.run = .waiting .reply ∧ s.slot.prog.fin = some (.load 3 .b true) ∧ s.TrailRoom ∧
    u.slot.run = .waiting .reply ∧ u.slot.prog.fin = some .accepted ∧ s.slot.inh = false ∧ s.part.regs.tvec ≠ 0 ∧
    after (exec (.replyArrival 0) (flying s (.reply 0 (.ok 0x80) .none))) (fun t => t.g 3 == 0xFFFFFFFFFFFFFF80 &&
      t.slot.run == .runnable && t.ctx.pc == w0 + 0x104 && t.net == []) = true ∧
    after (exec (.replyArrival 0) (flying u (.reply 0 (.ok 0) .none))) (fun t => t.ctx.ord == 1 && t.slot.run == .runnable) = true ∧
    after (exec (.replyArrival 0) (flying s (.reply 0 (.fail 0x09 w2) .none))) (fun t => t.slot.cause == 0x09 && t.slot.tval == w2 &&
      t.slot.epc == w0 + 0x100 && t.ctx.pc == w0 + 0x800 && t.g 3 == 7) = true := by decide +kernel

theorem test_acquire_loads : let s := holding (alone (thread [(4, w0 + 0x2000)])) 0x2000 4 0x80000001
    (Instr.ldaq 0 3 4 .dev .w true 0).wf = true ∧ s.Performs 0 0 false ∧ s.TrailRoom ∧
    okIs (s.access (s.g 4 + .ofInt 64 ((0 : BitVec 9).toInt * dsizeBytes .w)) 4 { r := true, n := true }) (.here ⟨0x2000, 0, false⟩) =
      true ∧ s.badAt 0x2000 = false ∧
    after (exec (.ldaq 0 3 4 .dev .w true 0) s) (fun t => t.g 3 == 0xFFFFFFFF80000001) = true := by decide +kernel

theorem test_release_stores : let s := alone (thread [(4, w0 + 0x2000), (7, 0x1122334455667788)])
    s.Performs 0 0 false ∧ s.slot.open_ = false ∧ s.Drained .die ∧ s.slot.prog.drained = false ∧
    okIs (s.access (s.g 4 + .ofInt 64 ((0 : BitVec 9).toInt * dsizeBytes .d)) 8 { w := true, n := true }) (.here ⟨0x2000, 0, false⟩) =
      true ∧
    after (exec (.strl 0 7 4 .die .d 0) s) (fun t => t.mem.byte 0x2000 == 0x88 && t.mem.byte 0x2007 == 0x11) = true := by
  decide +kernel

theorem test_fences : let s := alone { thread [] with ahead := [(w0 + 0x140, 0)] }
    s.Performs 0 0 false ∧ s.slot.prog.drained = false ∧ s.Drained .clu ∧
    after (exec (.fenceAcq 0 .clu) s) (fun t => t.slot.ahead == [] && t.ctx.pc == w0 + 0x104) = true ∧
    after (exec (.fenceFull 0 .clu) s) (fun t => t.slot.ahead == [] && t.ctx.pc == w0 + 0x104) = true := by decide +kernel

/-- An invalidation is on its way to the thread's router. -/
theorem test_fence_waits : let s := alone { thread [] with unacked := 1 }
    let u := flying plain (.inval 5 0 none)
    s.Performs 0 0 false ∧ s.slot.prog.drained = false ∧ s.slot.unacked ≠ 0 ∧ u.slot.unacked = 0 ∧
    (u.scopeRouters u.cluster .clu).filter u.owes ≠ [] ∧
    after (exec (.fenceFull 0 .clu) s) (fun t => t.slot.run == .waiting .settle && t.ctx == s.ctx) = true ∧
    after (exec (.fenceRel 0 .clu) u) (fun t => t.slot.run == .waiting (.drain 1) &&
      t.net == [⟨0, .inval 5 0 none⟩, ⟨0, .token 0 0⟩]) = true := by decide +kernel

theorem test_drain_packets :
    let s := flying (alone { thread [] with unacked := 2 }) (.inval 5 0 (some 0))
    let r := s.setPortAt 0 { s.portAt 0 with remote := [⟨0, w2, 5, 0⟩, ⟨0, w2 + 64, 6, 0⟩] }
    let u := flying (alone { thread [] with run := .waiting (.drain 2) }) (.token 0 0)
    let v := flying (alone { thread [] with run := .waiting (.drain 1) }) (.token 0 0)
    r.net[0]? = some ⟨0, .inval 5 0 (some 0)⟩ ∧ u.net[0]? = some ⟨0, .token 0 0⟩ ∧ (u.slotAt 0).run = .waiting (.drain 2) ∧
    after (exec (.invalidation 0) r) (fun t => (t.portAt 0).remote == [⟨0, w2 + 64, 6, 0⟩] && t.slot.unacked == 1) = true ∧
    after (exec (.drainToken 0) u) (fun t => t.slot.run == .waiting (.drain 1)) = true ∧
    after (exec (.drainToken 0) v) (fun t => t.slot.run == .runnable && t.slot.prog.drained) = true := by decide +kernel

/-- A request, a write and a store whose lines fail their check. -/
theorem test_failing_lines :
    let s := flying (failing plain) (.request 0 (.read (w0 + 0x2000) ⟨0x2000, 0, false⟩ 2 .plain))
    let u := flying (failing plain) (.request 0 (.write (w0 + 0x2000) ⟨0x2000, 0, false⟩ 2 0x1234))
    let w := flying { nowAt plain 5 with bad := [(2 ^ 40 + 0x40) / 64] } (.store (.slot 0) storing)
    s.badAt 0x2000 = true ∧ w.badAt storing.pl.phys = true ∧
    after (exec (.remoteRequest 0) s) (fun t => t.net == [⟨0, .reply 0 (.fail 0x17 (w0 + 0x2000)) (.plain 0x80)⟩]) = true ∧
    after (exec (.remoteRequest 0) u) (fun t => t.net == [⟨0, .reply 0 (.fail 0x17 (w0 + 0x2000)) (.plain 0x80)⟩] && t.mem == u.mem) = true ∧
    after (exec (.storeArrival 0) w) (fun t => t.net == [⟨0, .reply 0 (.fail 0x17 (w2 + 0x40)) (.plain (2 ^ 34 + 1))⟩] && t.ports == w.ports) = true := by
  decide +kernel

/-! ## Synchronisation -/

/-- A reservation of task 0 in slot 0 on the double at 0x2000 of core 0's store. -/
def holder : Reservation := ⟨0, w0 + 0x2000, ⟨0x2000, 0, false⟩, .d, 0, 0⟩

/-- The context with a count of reservations. -/
def reserving (x : Slot) (n : Nat) : Slot := { x with ctx := x.ctx.setRsvn n }

theorem test_reserves : let s := holding (alone { thread [(4, w0 + 0x2000)] with ahead := [(w0 + 0x140, 0)] }) 0x2000 8 0xFFFFFFFFFFFFFFFF
    s.Performs 0 0 true ∧ s.TrailRoom ∧ s.slot.open_ = false ∧ s.onDevice (s.g 4 + .ofInt 64 ((0 : BitVec 9).toInt * dsizeBytes .w)) = true ∧
    okIs (s.access (s.g 4 + .ofInt 64 ((0 : BitVec 9).toInt * dsizeBytes .w)) 4 { r := true, w := true, n := true })
      (.here ⟨0x2000, 0, false⟩) = true ∧ s.badAt 0x2000 = false ∧ s.ctx.rsvn < 4 ∧ s.queueAt 0x2000 = [] ∧
    (s.reservations.filter fun e => homeId e.pl == homeId ⟨0x2000, 0, false⟩).length < 64 ∧
    after (exec (.rsv 0 3 4 .w 0) s) (fun t => t.g 3 == 0xFFFFFFFF && t.ctx.rsvn == 1 && t.slot.ahead == [] &&
      t.reservations == [{ holder with z := .w }]) = true := by decide +kernel

theorem test_reserve_traps : let s := alone (reserving (thread [(4, w0 + 0x2000)]) 4)
    let u := alone (choosing (thread [(4, w0 + 0x2000)]))
    s.Performs 0 0 true ∧ u.Performs 0 0 true ∧ u.slot.open_ = true ∧ s.slot.open_ = false ∧ s.ctx.rsvn = 4 ∧
    s.onDevice (s.g 4 + .ofInt 64 ((0 : BitVec 9).toInt * dsizeBytes .w)) = true ∧
    okIs (s.checks5 (s.g 4 + .ofInt 64 ((0 : BitVec 9).toInt * dsizeBytes .w)) 4 { r := true, w := true, n := true }) .w0 = true ∧
    after (exec (.rsv 0 3 4 .w 0) s) (fun t => t.slot.cause == 0x0D) = true ∧
    after (exec (.rsv 0 3 4 .w 0) u) (fun t => t.slot.cause == 0x12) = true := by decide +kernel

theorem test_releases : let s := { alone (reserving (thread [(4, w0 + 0x2000), (7, 77)]) 1) with reservations := [holder] }
    releaseOf s (.rls 0 7 4 .d 0) = some (0, w0 + 0x2000, .d, some 77) ∧ releaseOf s (.rlsn 0 4 .d 0) = some (0, w0 + 0x2000, .d, none) ∧
    releaseOf s (.rls 0 7 4 .w 0) = some (0, w0 + 0x2000, .w, some 77) ∧
    s.Performs 0 0 false ∧ s.slot.open_ = false ∧ s.Drained .dev ∧ s.slot.prog.drained = false ∧
    okIs (s.access (w0 + 0x2000) 8 { w := true, n := true }) (.here ⟨0x2000, 0, false⟩) = true ∧ s.queueAt 0x2000 = [holder] ∧
    holder.part = s.slot.part ∧ holder.key = s.ctx.taskIdx ∧ 0 < s.ctx.rsvn ∧
    okIs (s.access (w0 + 0x2000) 4 { w := true, n := true }) (.here ⟨0x2000, 0, false⟩) = true ∧
    (∀ e ∈ (s.queueAt 0x2000).head?, ¬ (e.part = s.slot.part ∧ e.key = s.ctx.taskIdx ∧ e.z = .w)) ∧
    after (exec (.rls 0 7 4 .d 0) s) (fun t => t.reservations == [] && t.ctx.rsvn == 0 && t.mem.byte 0x2000 == 77) = true ∧
    after (exec (.rlsn 0 4 .d 0) s) (fun t => t.reservations == [] && t.ctx.rsvn == 0 && t.mem.byte 0x2000 == 0) = true ∧
    after (exec (.rls 0 7 4 .w 0) s) (fun t => t.slot.cause == 0x0D && t.reservations == [holder]) = true := by decide +kernel

theorem test_reservation_events : let s := alone { thread [] with run := .waiting (.resend 0) }
    let u := flying { alone (reserving (thread []) 1) with reservations := [holder, { holder with key := 1, slot := 1 }] } (.abandon 0 0)
    (s.slotAt 0).run = .waiting (.resend 0) ∧ 0 ≤ s.refcnt ∧ u.net[0]? = some ⟨0, .abandon 0 0⟩ ∧
    after (exec (.rsvResend 0) s) (fun t => t.slot.run == .runnable) = true ∧
    after (exec (.abandonPacket 0) u) (fun t => t.reservations == [{ holder with key := 1, slot := 1 }] && t.ctx.rsvn == 0) = true := by
  decide +kernel

/-- min.w and cas.d on the word at 0x2000. -/
theorem test_local_atomics : let s := holding (alone (thread [(3, 9), (4, w0 + 0x2000), (5, 0x1FFFFFFFF)])) 0x2000 8 9
    s.Performs 0 0 false ∧ s.slot.open_ = false ∧
    okIs (s.access (s.g 4) 4 { r := true, w := true, n := true }) (.here ⟨0x2000, 0, false⟩) = true ∧ s.badAt 0x2000 = false ∧
    after (exec (.lamo 0 3 4 5 .min .w) s) (fun t => t.g 3 == 9 && t.mem.read 0x2000 8 == 0xFFFFFFFF) = true ∧
    after (exec (.lamo 0 3 4 5 .cas .d) s) (fun t => t.g 3 == 9 && t.mem.read 0x2000 8 == 0x1FFFFFFFF) = true := by decide +kernel

theorem test_atomic_values : (5 : Nat) < 2 ^ (8 * 1) ∧ (0xFF : Nat) < 2 ^ (8 * 1) ∧ atomicNew .add 1 5 0xFF 0 = 4 ∧
    atomicNew .min 1 5 0xFF 0 = 0xFF ∧ atomicNew .max 1 5 0xFF 0 = 5 ∧ atomicNew .cas 1 5 0xFF 4 = 5 := by decide +kernel

theorem test_monitors : let s := alone (thread [(4, w0 + 0x2041)])
    let u := alone { thread [(4, w0 + 0x2041)] with monitors := (Vector.replicate 4 none).set 2 (some ⟨w0 + 0x2040, 0x81, true⟩) }
    s.Performs 0 0 false ∧ okIs (s.checks5 (s.g 4) 1 { r := true, n := true }) .w0 = true ∧ s.onDevice (s.g 4) = true ∧
    s.slot.monitorOf (vline (s.g 4)) = none ∧ s.slot.monitors.toList.all (·.isSome) = false ∧
    okIs (s.access (s.g 4) 1 { r := true, n := true }) (.here ⟨0x2041, 0, false⟩) = true ∧
    u.slot.monitorOf (vline (u.g 4)) = some 2 ∧
    after (exec (.mon 0 4) s) (fun t => t.slot.monitors.toList == [some ⟨w0 + 0x2040, 0x81, false⟩, none, none, none]) = true ∧
    after (exec (.moff 0 4) u) (fun t => t.slot.monitors.toList == [none, none, none, none]) = true := by decide +kernel

theorem test_monitor_waits : let s := alone (thread [(4, 0x300000005)])
    let u := alone { thread [] with monitors := (Vector.replicate 4 none).set 2 (some ⟨w0, 0, true⟩) }
    s.Performs 0 0 true ∧ s.slot.prog.int = false ∧ s.slot.fired = 0 ∧ u.slot.fired ≠ 0 ∧ u.TrailRoom ∧ u.Performs 0 0 true ∧
    after (exec (.mwait 0 3 4) s) (fun t => t.slot.run == .waiting (.monitor (some 5))) = true ∧
    after (exec (.mwait 0 3 5) s) (fun t => t.slot.run == .waiting (.monitor none)) = true ∧
    after (exec (.mwait 0 3 4) u) (fun t => t.g 3 == 4 && t.slot.fired == 0) = true := by decide +kernel

theorem test_monitor_events :
    let s := flying (alone { thread [] with run := .waiting (.monitor none), monitors := .replicate 4 (some ⟨w0, 9, false⟩) }) (.notice 9 0)
    let u := alone { thread [] with run := .waiting (.monitor (some 0)) }
    s.net[0]? = some ⟨0, .notice 9 0⟩ ∧ (s.slotAt 0).monitors.toList.any (fun m => m.any (·.home == 9)) = true ∧
    (u.slotAt 0).run = .waiting (.monitor (some 0)) ∧
    after (exec (.monitorNotice 0) s) (fun t => t.slot.fired == 15 && t.slot.run == .runnable) = true ∧
    after (exec (.mwaitTimeout 0) u) (fun t => t.slot.run == .runnable) = true := by decide +kernel

/-- Context 5 of cluster 0's router, of the cluster's scope, open at phase 6 with one participant in core 0. -/
def barrier : Barrier := ⟨0x10001, none, [⟨0, 1, 0, 0⟩], 1, 6, true, false⟩

def barred5 (s : State) (b : Barrier) : State := s.setPortAt 0 { s.portAt 0 with barriers := [(5, b)] }

theorem test_barrier_registers : let s := alone (thread [(4, 5), (5, 0x10002), (6, 64)])
    s.Performs 0 0 true ∧ s.slot.open_ = false ∧ (s.g 4).toNat < s.share64 ∧ (s.g 5).toNat < 2 ^ 18 ∧ 1 ≤ barN (s.g 5) ∧
    barN (s.g 5) ≤ (s.ordinary s.slot.part).length * s.scopeCores s.slot.part (barScope (s.g 5)) ∧ barScope (s.g 5) = .clu ∧
    s.share64 ≤ (s.g 6).toNat ∧
    after (exec (.bari 0 4 5) s) (fun t => t.slot.run == .waiting (.opening 5) && t.net == [⟨0, .barReg 0 0 5 0x10002⟩]) = true ∧
    after (exec (.bari 0 6 5) s) (fun t => t.slot.cause == 0x1D && t.slot.tval == 64) = true ∧
    after (exec (.barw 0 6 5) s) (fun t => t.slot.cause == 0x1D && t.slot.tval == 64) = true := by decide +kernel

theorem test_barrier_arrives : let s := barred5 (alone (thread [(4, 5)])) barrier
    s.Performs 0 0 true ∧ s.TrailRoom ∧ s.slot.open_ = false ∧ s.slot.prog.drained = false ∧ s.barHere (s.g 4) = some barrier ∧
    s.Drained (barScope barrier.config) ∧
    after (exec (.bara 0 3 4) s) (fun t => t.g 3 == 7 && t.net == [⟨0, .barArr 0 5 0 1 0⟩]) = true ∧
    after (exec (.bard 0 3 4) s) (fun t => t.g 3 == 7 && t.net == [⟨0, .barArr 0 5 0 1 1⟩]) = true := by decide +kernel

/-- The open phase, the last completed one, and one more than half the numbers back. -/
theorem test_barrier_waits : let s := barred5 (alone (thread [(4, 5), (5, 6), (6, 7), (7, 0x8006)])) barrier
    s.Performs 0 0 true ∧ s.slot.open_ = false ∧ s.barHere (s.g 4) = some barrier ∧
    (barrier.phase.toNat + 2 ^ 16 - (s.g 5).toNat % 2 ^ 16) % 2 ^ 16 < 2 ^ 15 ∧
    2 ^ 15 ≤ (barrier.phase.toNat + 2 ^ 16 - (s.g 6).toNat % 2 ^ 16) % 2 ^ 16 ∧
    after (exec (.barw 0 4 5) s) (fun t => t.ctx.pc == w0 + 0x104) = true ∧
    after (exec (.barw 0 4 6) s) (fun t => t.slot.run == .waiting (.phase 5 7)) = true ∧
    after (exec (.barw 0 4 7) s) (fun t => t.slot.run == .waiting (.phase 5 0x8006)) = true := by decide +kernel

theorem test_barrier_packets :
    let b : Barrier := { barrier with opened := false, ports := [⟨1, 1, 0, 0⟩], phase := 0xFFFF, config := 0x10002 }
    let s := flying (barred5 plain b) (.barReg 0 0 5 0x10002)
    let u := flying (barred5 plain barrier) (.barArr 0 5 0 1 1)
    let die : Barrier := { barrier with config := 0x20002, ports := [⟨4, 2, 2, 1⟩], reported := true }
    let v := flying (plain.setPortAt 1 { plain.portAt 1 with barriers := [(5, die)] }) (.barDone 1 5 7 false)
    s.net[0]? = some ⟨0, .barReg 0 0 5 0x10002⟩ ∧ 0 = s.barRoot 0 (barScope 0x10002) ∧ s.barAt 0 5 = some b ∧ b.registered + 1 = barN 0x10002 ∧
    u.net[0]? = some ⟨0, .barArr 0 5 0 1 1⟩ ∧ 0 = u.barRoot 0 (barScope barrier.config) ∧ u.barAt 0 5 = some barrier ∧
    v.net[0]? = some ⟨0, .barDone 1 5 7 false⟩ ∧ v.barAt 1 5 = some die ∧ 1 ≠ v.barRoot 1 (barScope die.config) ∧
    die.turn 7 = { die with ports := [⟨4, 1, 0, 0⟩], phase := 7, reported := false } ∧
    after (exec (.barrierRegistration 0) s) (fun t => t.net == [⟨0, .barDone 0 5 0xFFFF true⟩] &&
      t.barAt 0 5 == some { b with opened := true, registered := 2, ports := [⟨1, 1, 0, 0⟩, ⟨0, 1, 0, 0⟩] }) = true ∧
    after (exec (.barrierRegistration 0) (flying (barred5 plain b) (.barReg 0 (savedKey 17) 5 0x10002))) (fun t =>
      t.barAt 0 5 == some { b with opened := true, registered := 2, ports := [⟨1, 2, 0, 0⟩] }) = true ∧
    after (exec (.barrierArrival 0) u) (fun t => t.net == [⟨0, .barDone 0 5 7 false⟩] &&
      t.barAt 0 5 == some { barrier with ports := [], phase := 7 }) = true ∧
    after (exec (.barrierCompletion 0) v) (fun t => t.barAt 1 5 == some (die.turn 7)) = true := by
  decide +kernel

/-- The held word's line fails its check: RLS raises that, RLSN needs no memory. -/
theorem test_releases_of_a_failing_line :
    let s := failing { alone (reserving (thread [(4, w0 + 0x2000), (7, 77)]) 1) with reservations := [holder] }
    s.Performs 0 0 false ∧ s.badAt 0x2000 = true ∧ s.queueAt 0x2000 = [holder] ∧
    after (exec (.rls 0 7 4 .d 0) s) (fun t => t.slot.cause == 0x17 && t.slot.tval == w0 + 0x2000) = true ∧
    after (exec (.rlsn 0 4 .d 0) s) (fun t => t.reservations == [] && t.ctx.rsvn == 0) = true := by decide +kernel

/-- A second registration with another configuration; an arrival where a second port is still short; the whole of a context below its
root; and a root that all leave. -/
theorem test_barrier_trees :
    let two : Barrier := { barrier with ports := [⟨0, 1, 0, 0⟩, ⟨1, 1, 0, 0⟩] }
    let die : Barrier := { barrier with config := 0x20002, ports := [⟨4, 2, 1, 0⟩] }
    let late : Barrier := { die with ports := [⟨4, 3, 2, 0⟩], reported := true }
    let w := flying ((plain.setPortAt 1 { plain.portAt 1 with barriers := [(5, late)] })) (.barArr 1 5 4 1 1)
    let r := flying (barred5 plain barrier) (.barReg 0 0 5 0x10002)
    let s := flying (barred5 plain two) (.barArr 0 5 0 1 0)
    let u := flying ((plain.setPortAt 1 { plain.portAt 1 with barriers := [(5, die)] })) (.barArr 1 5 4 1 1)
    let v := flying (barred5 (alone { thread [] with run := .waiting (.phase 5 7) }) { barrier with ports := [], phase := 7 })
      (.barDone 0 5 7 false)
    (r.barAt 0 5).any (fun b => b.config != 0x10002) = true ∧ s.barAt 0 5 = some two ∧ u.barAt 1 5 = some die ∧
    1 ≠ u.barRoot 1 (barScope die.config) ∧ (two.came 0 1 0).ports = [⟨0, 1, 1, 0⟩, ⟨1, 1, 0, 0⟩] ∧
    (die.came 4 1 1).ports = [⟨4, 2, 2, 1⟩] ∧ v.barAt 0 5 = some { barrier with ports := [], phase := 7 } ∧
    (v.slotAt 0).run = .waiting (.phase 5 7) ∧ 0 = v.barRoot 0 (barScope barrier.config) ∧
    after (exec (.barrierRegistration 0) r) (fun t => t.net == [⟨0, .reply 0 (.fail 0x1D 5) .none⟩] && t.ports == r.ports) = true ∧
    after (exec (.barrierArrival 0) s) (fun t => t.net == []) = true ∧
    (∃ q ∈ (two.came 0 1 0).ports, q.arrived < q.members) ∧ (two.came 0 1 0).reported = false ∧ two.came 7 1 0 = two ∧
    (∀ q ∈ (die.came 4 1 1).ports, q.members ≤ q.arrived) ∧ (late.came 4 1 1).reported = true ∧ w.barAt 1 5 = some late ∧
    after (exec (.barrierArrival 0) u) (fun t => t.net == [⟨0, .barArr 0 5 2049 2 1⟩] && t.barAt 1 5 == some { die.came 4 1 1 with reported := true }) =
      true ∧
    after (exec (.barrierArrival 0) w) (fun t => t.net == [⟨0, .barArr 0 5 2049 1 1⟩] && t.barAt 1 5 == some (late.came 4 1 1)) = true ∧
    after (exec (.barrierCompletion 0) v) (fun t => t.barAt 0 5 == none && t.slot.run == .runnable) = true := by decide +kernel

/-- One task of die 0, core 0; its record at the fifth line of W3 names its entry. -/
def task1 : Vec := vecOf [w3 + 0x100, 77, 2 ^ 32, 0, 2 ^ 32 + 1, 0, 0, 0]

def launch1 : Launch :=
  { id := 5, desc := task1, host := true, core := 0, entry := w0 + 0x500, anch := true, heavy := false, waits := [], started := [], live := []
    retired := 0, failed := false, slip := false, abandon := 0, lost := 0, slips := 0 }

/-- The context's launch has lost a task. -/
theorem test_broken_barrier : let s := barred5 (alone (thread [(4, 5), (6, 7)])) { barrier with launch := some 5 }
    let u := s.setPartAt 0 { s.partAt 0 with launches := [{ launch1 with lost := 1 }] }
    u.Performs 0 0 true ∧ u.broken 0 (some 5) = true ∧ u.barHere (u.g 4) = some { barrier with launch := some 5 } ∧
    after (exec (.barw 0 4 6) u) (fun t => t.slot.cause == 0x1D && t.slot.tval == 5) = true := by decide +kernel

/-! ## Threads, tasks and messages -/

/-- The word in progress of a thread whose block has been read. -/
def resumed (x : Slot) (m : Vec) : Slot := { x with prog := { word := some 0, got := [m] } }

theorem test_thread_ends : plain.MayEnd ∧ (∀ t ∈ (plain.coreAt plain.coreIdx).arrivals, t.part ≠ plain.slot.part) ∧ plain.Performs 0 0 false ∧
    plain.Performs 0 0 true ∧ after (exec (.exit 0) plain) (fun t => t.slot.run == .free) = true ∧
    after (exec (.tnext 0) plain) (fun t => t.slot.run == .free) = true := by decide +kernel

theorem test_timed_waits : let s := alone (thread [(4, 0x500000003)])
    s.Performs 0 0 true ∧ (s.g 4).toNat % 2 ^ 32 ≠ 0 ∧ (s.g 5).toNat % 2 ^ 32 = 0 ∧
    after (exec (.yield 0) s) (fun t => t.slot.run == .waiting (.yield 16)) = true ∧
    after (exec (.sleep 0 4) s) (fun t => t.slot.run == .waiting (.sleep 3)) = true ∧
    after (exec (.sleep 0 5) s) (fun t => t.slot.run == .runnable && t.ctx.pc == w0 + 0x104) = true := by decide +kernel

theorem test_timed_waits_end : let s := alone { thread [] with run := .waiting (.yield 0) }
    let u := { alone { thread [] with run := .waiting (.sleep 3) } with refcnt := 3 }
    (s.slotAt 0).run = .waiting (.yield 0) ∧ 0 ≤ s.cycles (0 / 256) ∧ (u.slotAt 0).run = .waiting (.sleep 3) ∧ 3 ≤ u.refcnt ∧
    after (exec (.yieldExpiry 0) s) (fun t => t.slot.run == .runnable && t.ctx.pc == w0 + 0x104) = true ∧
    after (exec (.sleepExpiry 0) u) (fun t => t.slot.run == .runnable && t.ctx.pc == w0 + 0x104) = true := by decide +kernel

theorem test_anchor_and_roam : plain.Performs 0 0 false ∧
    after (exec (.roam 0) plain) (fun t => t.ctx.anch == false && t.ctx.mode == 0) = true ∧
    after (exec (.anchor 0) plain) (fun t => t.ctx.anch == true && t.ctx.mode == 4) = true := by decide +kernel

/-- Device 0, partition 0, core 2, slot 3, anchored. -/
theorem test_who : let s := { many [(0x23, thread [])] with cur := 0x23 }
    s.Performs 0 0 false ∧ s.TrailRoom ∧ s.ownIdx < 2 ^ 13 ∧ s.cur < 2 ^ 15 ∧
    after (exec (.who 0 3) s) (fun t => t.g 3 == 0x100031) = true := by decide +kernel

/-- To the home of a page whose CLU is 0 at 0x1000 of W2: core 1; and to the thread's own core. -/
theorem test_migrates : let s := alone (thread [(4, w2 + 0x1000), (5, w2)])
    s.Performs 0 0 false ∧ s.slot.open_ = false ∧ (s.slot.dataSeg (s.g 4)).isSome = true ∧ (s.slot.dataSeg (s.g 5)).isSome = true ∧
    okIs (s.locate s.coreIdx s.slot.part (s.g 4) 1 0) (.here ⟨2 ^ 40 + 0x1000, 1, false⟩) = true ∧
    okIs (s.locate s.coreIdx s.slot.part (s.g 5) 1 0) (.here (at2 0)) = true ∧
    s.slot.inh = false ∧ s.slot.windows = [] ∧ s.slot.unacked = 0 ∧ s.slot.handler = false ∧
    (∀ t ∈ (s.coreAt s.coreIdx).arrivals, t.part ≠ s.slot.part) ∧
    after (exec (.migr 0 5) s) (fun t => t.ctx.pc == w0 + 0x104 && t.net == []) = true ∧
    after (exec (.migr 0 4) s) (fun t => t.slot.run == .free && t.net.length == 1) = true := by decide +kernel

/-- A free slot of core 0, and none. -/
theorem test_spawns : let s := alone (thread [(1, 11), (4, w0 + 0x400), (5, 6), (9, 9)])
    let u := many ((List.range 16).map fun n => (n, thread []))
    s.Performs 0 0 true ∧ s.slot.open_ = false ∧ s.TrailRoom ∧ s.freeSlot s.coreIdx s.slot.part = some 1 ∧ 1 ≠ s.cur ∧
    u.Performs 0 0 true ∧ u.freeSlot u.coreIdx u.slot.part = none ∧ u.TrailRoom ∧ u.slot.open_ = false ∧
    after (exec (.spawn 0 3 4 5) s) (fun t => t.g 3 == 1 && (t.slotAt 1).ctx.pc == w0 + 0x400 && (t.slotAt 1).ctx.g == regs [(1, 11), (4, w0 + 0x400), (5, 6), (14, s.stackMid 0 1)] &&
      (t.slotAt 1).ctx.ord == 0x60000) = true ∧
    after (exec (.spawn 0 3 4 5) u) (fun t => t.g 3 == .allOnes 64) = true := by decide +kernel

theorem test_sends : let s := alone (resumed (thread [(4, w2)]) 0x77)
    s.Resumes [0x77] ∧ s.slot.open_ = false ∧ s.ctx.seqNo ≠ 0xFFFF ∧
    okIs (s.locate s.coreIdx s.slot.part (s.g 4) 1 1) (.here (at2 0)) = true ∧ s.Drained (scopeOf s.coreIdx (at2 0).home) ∧
    s.slot.prog.drained = false ∧ s.slot.prog.fin = none ∧
    after (exec (.send 0 1 4 5 false) s) (fun t => t.slot.run == .waiting .reply && t.net ==
      [⟨0, .message w2 0 false 0x77 (.slot 0)⟩]) = true := by decide +kernel

theorem test_headers : (1 : Nat) < 4 ∧ (5 : Nat) < 2 ^ 13 ∧ header true 1 5 7 9 = 0xA005000000070009 := by decide +kernel

/-- The high inbox's message goes first. -/
theorem test_messages_taken : let a : Message := { part := 0, m := vecOf [0, 0x11, 3] }
    let b : Message := { part := 0, m := vecOf [0, 0x22, 4] }
    let e := alone (thread [(4, w0 + 0x2000), (5, 0x1FFF000000000011)])
    let s := e.setCoreAt 0 { e.coreAt 0 with low := [a], high := [b] }
    takeOf s (.inbox 0 3 4) = some (0, 3, w0 + 0x2000, none) ∧ takeOf s (.twait 0 3 5 4) = some (0, 3, w0 + 0x2000, some 0x11) ∧
    s.Performs 0 0 true ∧ s.slot.open_ = false ∧ ((s.coreAt 0).takeMessage 0 none).isSome = true ∧
    ((s.coreAt 0).takeMessage 0 (some 0x11)).isSome = true ∧
    okIs (s.access (w0 + 0x2000) 64 { w := true, n := true }) (.here ⟨0x2000, 0, false⟩) = true ∧ (e.coreAt 0).takeMessage 0 none = none ∧
    after (exec (.inbox 0 3 4) s) (fun t => t.g 3 == 0x22 && t.mem.byte 0x2010 == 4 && (t.coreAt 0).low == [a] && (t.coreAt 0).high == []) =
      true ∧
    after (exec (.twait 0 3 5 4) s) (fun t => t.g 3 == 0x11 && t.mem.byte 0x2010 == 3 && (t.coreAt 0).high == [b]) = true ∧
    after (exec (.inbox 0 3 4) e) (fun t => t.slot.run == .waiting .inbox) = true ∧
    after (exec (.ipeek 0 3) s) (fun t => t.g 3 == 0x22 && t.cores == s.cores) = true ∧
    after (exec (.ipeek 0 3) e) (fun t => t.g 3 == .allOnes 64) = true ∧ s.Performs 0 0 false ∧ s.TrailRoom := by decide +kernel

theorem test_launches : let s := alone (resumed (thread []) 0x77)
    let u := s.setPartAt 0 { s.partAt 0 with queue := .replicate 64 (0x5, 3) }
    s.Resumes [0x77] ∧ s.slot.prog.fin = none ∧ s.slot.open_ = false ∧ s.Drained .dev ∧ s.slot.prog.drained = false ∧
    s.part.queue.length < 64 ∧ u.Resumes [0x77] ∧ 64 ≤ u.part.queue.length ∧ u.Drained .dev ∧
    after (exec (.launch 0 1 4 false) s) (fun t => t.p 1 && (t.partAt 0).queue == [(0x77, 0)]) = true ∧
    after (exec (.launch 0 1 4 false) u) (fun t => !t.p 1 && (t.partAt 0).queue.length == 64) = true := by decide +kernel

theorem test_messages_delivered : let m := vecOf [0, 0x11]
    let e := flying plain (.message w0 0 true m (.slot 0))
    let u := e.setCoreAt 0 { e.coreAt 0 with high := .replicate 64 { part := 0, m := m } }
    e.net[0]? = some ⟨0, .message w0 0 true m (.slot 0)⟩ ∧ e.running 0 = true ∧ holdsOf 0 (e.coreAt 0).high < e.share64 ∧
    u.share64 ≤ holdsOf 0 (u.coreAt 0).high ∧
    after (exec (.messageDelivery 0) e) (fun t => (t.coreAt 0).high == [{ part := 0, m := m }] && t.net == [⟨0, .reply 0 (.ok 1) (.core 0)⟩]) =
      true ∧
    after (exec (.messageDelivery 0) u) (fun t => t.net == [⟨0, .reply 0 (.ok 0) (.core 0)⟩]) = true := by decide +kernel

theorem test_handler_starts : let m : Message := { part := 0, m := vecOf [w0 + 0x500, 0x11, 3] }
    let e := nowAt plain 5
    let s := e.setCoreAt 2 { e.coreAt 2 with high := [m] }
    s.messageSlot 0 = some 15 ∧ (s.slotAt 47).run = .free ∧ s.running 0 = true ∧ nextHandler 0 (s.coreAt 2).high = some 0 ∧
    (s.coreAt 2).high[0]? = some m ∧
    after (exec (.handlerStart 2 0) s) (fun t => (t.slotAt 47).ctx.pc == w0 + 0x500 && (t.slotAt 47).ctx.g[2] == 3 &&
      (t.slotAt 47).ctx.vis == 6 && (t.slotAt 47).handler && (t.coreAt 2).high == [{ m with running := true }]) = true := by decide +kernel

def traveller : Thread :=
  { ctx := (thread [(4, 44)]).ctx, part := 0, task := none, spawned := false, word := some 0x90, inst := none, drained := false, vec := none }

theorem test_arrivals : let s := flying plain (.migration 0 traveller)
    let full := flying (many ((List.range 16).map fun n => (n, thread []))) (.migration 0 traveller)
    let beyond := full.setCoreAt 0 { full.coreAt 0 with arrivals := .replicate 16 traveller }
    s.net[0]? = some ⟨0, .migration 0 traveller⟩ ∧ s.running 0 = true ∧ traveller.vec = none ∧ s.freeSlot 0 0 = some 1 ∧
    full.freeSlot 0 0 = none ∧ full.arrivalRoom 0 0 = true ∧ beyond.freeSlot 0 0 = none ∧ beyond.arrivalRoom 0 0 = false ∧ full.running 0 = true ∧
    after (exec (.migrationArrival 0) s) (fun t => (t.slotAt 1).ctx == traveller.ctx && (t.slotAt 1).prog.word == some 0x90) = true ∧
    after (exec (.migrationArrival 0) full) (fun t => (t.coreAt 0).arrivals == [traveller] && t.net == []) = true ∧
    after (exec (.migrationArrival 0) beyond) (fun t => t == beyond) = true := by decide +kernel

theorem test_wakes_and_retries : let s := flying (alone { thread [] with run := .dropped (some 0) }) (.wake 0)
    let m : Message := { part := 0, m := 0 }
    let u := plain.setCoreAt 0 { plain.coreAt 0 with retry := [(false, m, 0)] }
    s.net[0]? = some ⟨0, .wake 0⟩ ∧ (s.slotAt 0).run = .dropped (some 0) ∧ 0 ≤ s.refcnt ∧ (u.coreAt 0).retry = [(false, m, 0)] ∧
    u.running m.part = true ∧ holdsOf m.part (u.coreAt 0).low < u.share64 ∧
    after (exec (.wakeMessage 0) s) (fun t => t.slot.run == .runnable && t.net == []) = true ∧
    after (exec (.pageFaultReissue 0) s) (fun t => t.slot.run == .runnable) = true ∧
    after (exec (.messageRetry 0) u) (fun t => (t.coreAt 0).low == [m] && (t.coreAt 0).retry == []) = true := by decide +kernel

/-- To a register of W4, and to the store of a core of device 9, which is asked. -/
theorem test_migrates_elsewhere : let x := thread [(4, 0x1FFF020000000000), (5, 0x0009000100000000)]
    let e := alone { x with seg := (x.seg.set 5 ⟨0x1FFF020000000000, 64, 0x13⟩).set 6 ⟨0x0009000100000000, 0x40000, 0x13⟩ }
    let s := { e with dev := { e.dev with jobV := true, reach := [(9, 0x80050021)] } }
    s.Performs 0 0 false ∧ s.slot.open_ = false ∧ (s.slot.dataSeg (s.g 4)).isSome = true ∧ (s.slot.dataSeg (s.g 5)).isSome = true ∧
    okIs (s.locate s.coreIdx s.slot.part (s.g 5) 1 0) (.away 9) = true ∧ winOf (localAddr (s.g 5)) ≠ some .w4 ∧ s.slot.prog.route = none ∧
    after (exec (.migr 0 4) s) (fun t => t.slot.cause == 3 && t.slot.tval == 0x1FFF020000000000) = true ∧
    after (exec (.migr 0 5) s) (fun t => t.slot.run == .waiting .reply && t.slot.prog.fin == some .route) = true := by decide +kernel

/-- The buffer's line fails its check, and it lies at another core. -/
theorem test_messages_kept : let a : Message := { part := 0, m := vecOf [0, 0x11, 3] }
    let e := alone (thread [(4, w0 + 0x2000), (5, w1 + 0x80000)])
    let s := e.setCoreAt 0 { e.coreAt 0 with low := [a] }
    (failing s).badAt 0x2000 = true ∧ s.Performs 0 0 true ∧ okIs (s.access (w1 + 0x80000) 64 { w := true, n := true }) (.here ⟨0x80000, 1, false⟩) = true ∧
    after (exec (.inbox 0 3 4) (failing s)) (fun t => t.slot.cause == 0x17 && t.slot.tval == w0 + 0x2000 && (t.coreAt 0).low == [a]) = true ∧
    after (exec (.inbox 0 3 5) s) (fun t => t.slot.run == .waiting .reply && t.slot.prog.fin == some (.took 3 a.m) &&
      (t.coreAt 0).low.length == 1) = true := by decide +kernel

/-- A full queue, with save areas. -/
theorem test_launch_parks : let e := alone (resumed (thread []) 0x77)
    let s := e.setPartAt 0 { e.partAt 0 with
      queue := .replicate 64 (0x5, 3), regs := { (e.partAt 0).regs with ctxb := w3 + 0x100000 } }
    s.Resumes [0x77] ∧ 64 ≤ s.part.queue.length ∧ s.part.regs.ctxb ≠ 0 ∧ s.slot.inh = false ∧ s.slot.windows = [] ∧ s.slot.unacked = 0 ∧
    (match s.areaAt s.slot.part s.cur with | .ok _ => true | .error _ => false) = true ∧
    after (exec (.launch 0 1 4 true) s) (fun t => t.slot.run == .free && (t.partAt 0).parked.map (·.1) == [0] && (t.partAt 0).queue.length == 64) =
      true := by decide +kernel

/-- IDLE ends with any message for its core and partition, MWAIT with one of the high inbox. -/
theorem test_deliveries_wake : let m := vecOf [0, 0x11]
    let e := flying (many [(0, { thread [] with run := .waiting .idle }), (1, { thread [] with run := .waiting (.monitor none) })])
      (.message w0 0 true m (.slot 16))
    (e.slotAt 0).run = .waiting .idle ∧ (e.slotAt 1).run = .waiting (.monitor none) ∧ e.running 0 = true ∧
    after (exec (.messageDelivery 0) e) (fun t => (t.slotAt 0).run == .runnable && (t.slotAt 1).run == .runnable && (t.slotAt 1).prog.int &&
      !(t.slotAt 0).prog.int) = true := by decide +kernel

theorem test_unit_woken : let s := flying (alone { thread [] with run := .waiting .unit }) (.wake 0)
    (s.slotAt 0).run = .waiting .unit ∧ after (exec (.wakeMessage 0) s) (fun t => t.slot.run == .runnable) = true := by decide +kernel

/-! ## Vectors -/

/-- The thread with these vector registers and active length. -/
def vectored (x : Slot) (l : List (Nat × Vec)) (vl : Byte := 128) : Slot :=
  { x with vl := vl, v := Vector.ofFn fun k => ((l.find? fun e => e.1 == k.val).map (·.2)).getD 0 }

/-- A value of a vector register after a step. -/
def givesV (o : Host.Outcome State Fault Refusal) (r : Reg) (v : Vec) : Bool := after o fun t => t.slot.v[r] == v && t.ctx.anch

/-- Two active lanes of f32: 1.5 and −2 with 2 and 0.5 (R246, R247, R249, R251, R254, R255). -/
theorem test_float_lanes : let s := alone (vectored (thread [(5, 0x3F000000)]) [(1, 0xC00000003FC00000), (2, 0x3F00000040000000), (3, 0x777777777777777777777777)] 16)
    (Instr.vadd 0 3 1 2 .f32 .rne).wf = true ∧ (laneResult s (.vadd 0 3 1 2 .f32 .rne)).isSome = true ∧ s.Performs 0 0 false ∧
    givesV (exec (.vadd 0 3 1 2 .f32 .rne) s) 3 0x77777777BFC0000040600000 = true ∧
    givesV (exec (.vsub 0 3 1 2 .f32 .rne) s) 3 0x77777777C0200000BF000000 = true ∧
    givesV (exec (.vmul 0 3 1 2 .f32 .rne) s) 3 0x77777777BF80000040400000 = true ∧
    givesV (exec (.vmin 0 3 1 2 .f32 .rne) s) 3 0x77777777C00000003FC00000 = true ∧
    givesV (exec (.vmax 0 3 1 2 .f32 .rne) s) 3 0x777777773F00000040000000 = true ∧
    givesV (exec (.vabs 0 3 1 .f32) s) 3 0x77777777400000003FC00000 = true ∧
    givesV (exec (.vneg 0 3 1 .f32) s) 3 0x7777777740000000BFC00000 = true ∧
    givesV (exec (.vcmp 0 3 1 2 .f32 .lt) s) 3 0x77777777FFFFFFFFFFFFFFFF = true ∧
    givesV (exec (.vscl 0 3 1 5 .f32 .rne) s) 3 0x77777777BF8000003F400000 = true ∧
    givesV (exec (.vmov 0 3 1 .f32) s) 3 0x77777777C00000003FC00000 = true := by decide +kernel

/-- exp2 of 1 and 2, log2, the reciprocal and the reciprocal root of 4 (R254). -/
theorem test_functions : let s := alone (vectored (thread []) [(1, 0x400000003F800000), (2, 0x4080000040800000)] 16)
    givesV (exec (.vexp2 0 3 1 .f32 .rne) s) 3 0x4080000040000000 = true ∧
    givesV (exec (.vlog2 0 3 2 .f32 .rne) s) 3 0x4000000040000000 = true ∧
    givesV (exec (.vrcp 0 3 2 .f32 .rne) s) 3 0x3E8000003E800000 = true ∧
    givesV (exec (.vrsq 0 3 2 .f32 .rne) s) 3 0x3F0000003F000000 = true := by decide +kernel

/-- Four active lanes of i8: −1, 2, 0x80, 5 and 1, 9, 3, 0x81. -/
theorem test_integer_lanes : let s := alone (vectored (thread [(5, 0x1AB)]) [(1, 0x058002FF), (2, 0x81030901), (3, 0x80FF)] 8)
    (laneResult s (.vfma 0 3 1 2 .i8 .dyn)).isSome = true ∧
    givesV (exec (.vadd 0 3 1 2 .i8 .dyn) s) 3 0x86830B00 = true ∧
    givesV (exec (.vfma 0 3 1 2 .i8 .dyn) s) 3 0x858092FE = true ∧
    givesV (exec (.vmin 0 3 1 2 .i8 .dyn) s) 3 0x818002FF = true ∧
    givesV (exec (.vabs 0 3 1 .i8) s) 3 0x05800201 = true ∧
    givesV (exec (.vand 0 3 1 2 .i8) s) 3 0x01000001 = true ∧ givesV (exec (.vor 0 3 1 2 .i8) s) 3 0x85830BFF = true ∧
    givesV (exec (.vxor 0 3 1 2 .i8) s) 3 0x84830BFE = true ∧ givesV (exec (.vshl 0 3 1 2 .i8) s) 3 0x0A0004FE = true ∧
    givesV (exec (.vshr 0 3 1 2 .i8) s) 3 0x0210017F = true ∧ givesV (exec (.vsra 0 3 1 2 .i8) s) 3 0x02F001FF = true ∧
    givesV (exec (.vsel 0 3 1 2 .i8) s) 3 0x810302FF = true ∧ givesV (exec (.vbc 0 3 5 .i8) s) 3 0xABABABAB = true ∧
    givesV (exec (.vperm 0 3 1 2 .i8) s) 3 0x00050002 = true ∧ givesV (exec (.viota 0 3 .i8) s) 3 0x03020100 = true := by decide +kernel

/-- bf16 to f32, f32 to i8 rounded toward zero and saturated by R90's range, and a NaN of the same format. -/
theorem test_conversions : let s := alone (vectored (thread []) [(1, 0xC0003FC0), (2, 0xC0200000401FFFFF), (4, 0xFFC00001)] 16)
    s.Performs 0 0 false ∧ givesV (exec (.vcvt 0 3 1 .bf16 .f32 .rne) s) 3 0xC00000003FC00000 = true ∧
    givesV (exec (.vcvt 0 3 2 .f32 .i8 .rtz) s) 3 0xFE02 = true ∧
    givesV (exec (.vcvt 0 3 4 .f32 .f32 .rne) s) 3 0x7FC00000 = true := by decide +kernel

/-- i8: −1 × 1 + 2 × 9 − 128 × 3 + 5 × −127 added to 7; bf16: 1.5 × 2 − 2 × 0.5 added to 1. -/
theorem test_dot_products : let s := alone (vectored (thread []) [(1, 0x058002FF), (2, 0x81030901), (3, 7)] 8)
    let u := alone (vectored (thread []) [(1, 0xC0003FC0), (2, 0x3F004000), (3, 0x3F800000)] 8)
    (Instr.vdot 0 3 1 2 .i8 .dyn).wf = true ∧ (Instr.vdot 0 3 1 2 .bf16 .rne).wf = true ∧ s.Performs 0 0 false ∧
    givesV (exec (.vdot 0 3 1 2 .i8 .dyn) s) 3 0xFFFFFC1D = true ∧
    givesV (exec (.vdot 0 3 1 2 .bf16 .rne) u) 3 0x40400000 = true := by decide +kernel

/-- Three lanes; none; floats; and every clause of the maximum. -/
theorem test_reductions : let s := alone (vectored (thread []) [(1, 0x8000000000000002FFFFFFFF), (3, 0x777777777777)] 24)
    let u := alone (vectored (thread []) [(1, 0xC00000003FC00000)] 16)
    let e := alone (vectored (thread []) [(1, 5)] 0)
    s.Performs 0 0 false ∧ elemFloat .i32 = false ∧ 0 < s.slot.active .i32 ∧ s.slot.active .i32 ≤ lanes .i32 ∧ elemFloat .f32 = true ∧
    0 < u.slot.active .f32 ∧ e.slot.active .i32 = 0 ∧
    givesV (exec (.vreds 0 3 1 .i32 .dyn) s) 3 0x777780000001 = true ∧ givesV (exec (.vredm 0 3 1 .i32) s) 3 0x777700000002 = true ∧
    givesV (exec (.vreds 0 3 1 .f32 .rne) u) 3 0xBF000000 = true ∧ givesV (exec (.vredm 0 3 1 .f32) u) 3 0x3FC00000 = true ∧
    givesV (exec (.vredm 0 3 1 .i32) e) 3 0x80000000 = true ∧ givesV (exec (.vreds 0 3 1 .i32 .dyn) e) 3 0 = true := by decide +kernel

/-- The last lane and the one beyond it, an odd length of i4, and a k register. -/
theorem test_lane_moves : let s := alone (vectored (thread [(4, 0x1FF), (5, 63), (6, 64), (7, 5)]) [(1, 0x80 * 2 ^ 504)])
    s.Performs 0 0 false ∧ s.TrailRoom ∧
    after (exec (.vext 0 3 1 5 .i8) s) (fun t => t.g 3 == 0xFFFFFFFFFFFFFF80) = true ∧
    after (exec (.vext 0 3 1 6 .i8) s) (fun t => t.g 3 == 0) = true ∧
    givesV (exec (.vins 0 1 4 5 .i8) s) 1 (0xFF * 2 ^ 504) = true ∧ givesV (exec (.vins 0 1 4 6 .i8) s) 1 (0x80 * 2 ^ 504) = true ∧
    after (exec (.vlen 0 3 7 .i4) s) (fun t => t.g 3 == 4 && t.slot.vl == 4) = true ∧
    after (exec (.vlen 0 3 4 .f32) s) (fun t => t.g 3 == 16 && t.slot.vl == 128) = true ∧
    after (exec (.kset 0 2 4) s) (fun t => t.slot.k[2] == 0x1FF) = true := by decide +kernel

/-- 8 active bytes: a line of the core's store, and one of W2 as of REL. -/
theorem test_vector_loads : let s := holding (holding (alone (vectored (thread [(4, w0 + 0x2000), (5, w2)]) [(3, .allOnes 512)] 16)) 0x2000 8 0x11) (2 ^ 40) 8 0x22
    s.Performs 0 0 false ∧ 0 < s.slot.activeBytes .f32 ∧ (s.g 4).toNat % 64 = 0 ∧ (s.g 5).toNat % 64 = 0 ∧ s.badAt 0x2000 = false ∧
    s.slot.dataSeg (s.g 4) = some ⟨w0, 0x40000, 0x17⟩ ∧ (⟨w0, 0x40000, 0x17⟩ : Seg).i = false ∧
    s.slot.dataSeg (s.g 5) = some ⟨w2, 0x200000, 0x0B⟩ ∧ (⟨w2, 0x200000, 0x0B⟩ : Seg).i = true ∧
    okIs (s.access (s.g 4) (s.slot.activeBytes .f32) { r := true, n := true }) (.here ⟨0x2000, 0, false⟩) = true ∧
    okIs (s.access (s.g 5) (s.slot.activeBytes .f32) { r := true, i := true }) (.here (at2 0)) = true ∧
    s.ctx.rel.toNat ≤ s.part.now.toNat ∧ s.floor s.slot.part 0 (2 ^ 40 / 64) ≤ s.ctx.rel.toNat ∧
    givesV (exec (.vld 0 3 4 .f32) s) 3 ((.allOnes 512 : Vec) <<< 64 + 0x11) = true ∧
    givesV (exec (.vld 0 3 5 .f32) s) 3 ((.allOnes 512 : Vec) <<< 64 + 0x22) = true := by decide +kernel

theorem test_vector_stores : let s := alone (vectored (thread [(4, w0 + 0x2000), (5, w2), (6, w0 + 0x2020)]) [(3, .allOnes 512)] 16)
    let e := alone (vectored (thread [(4, w0 + 0x2000)]) [(3, 1)] 0)
    s.Performs 0 0 false ∧ 0 < s.slot.activeBytes .f32 ∧ e.slot.activeBytes .f32 = 0 ∧ (s.g 6).toNat % 64 ≠ 0 ∧ s.slot.open_ = false ∧
    okIs (s.access (s.g 4) (s.slot.activeBytes .f32) { w := true, n := true }) (.here ⟨0x2000, 0, false⟩) = true ∧
    okIs (s.access (s.g 5) (s.slot.activeBytes .f32) { w := true, i := true }) (.here (at2 0)) = true ∧ s.ctx.seqNo ≠ 0xFFFF ∧
    after (exec (.vst 0 3 4 .f32) s) (fun t => t.mem.read 0x2000 16 == 2 ^ 64 - 1) = true ∧
    after (exec (.vst 0 3 5 .f32) s) (fun t => t.slot.run == .waiting .reply && t.net.length == 1) = true ∧
    after (exec (.vst 0 3 6 .f32) s) (fun t => t.slot.cause == 0x05 && t.slot.tval == w0 + 0x2020) = true ∧
    after (exec (.vst 0 3 4 .f32) e) (fun t => t.mem == e.mem && t.ctx.pc == w0 + 0x104) = true := by decide +kernel

/-- Two lanes with a stride of −8: the first, the second, and the end. -/
theorem test_strided_lanes : let x := vectored (thread [(4, w0 + 0x2008), (5, -8)]) [(3, 0x2200000011)] 16
    let s := holding (alone x) 0x2008 4 0x33
    let e := alone { x with prog := { word := some 0, lanes := 2, read := 0x4400000033 } }
    s.slot.prog.lanes = 0 ∧ 0 < s.slot.active .f32 ∧ s.Performs 0 0 false ∧
    okIs (s.checkLanes (s.g 4) (s.g 5) (elemBits .f32 / 8) false (s.slot.active .f32) 0) () = true ∧
    okIs (s.checkLanes (s.g 4) (s.g 5) (elemBits .f32 / 8) true (s.slot.active .f32) 0) () = true ∧ s.badAt 0x2008 = false ∧
    s.slot.dataSeg (s.g 4 + .ofNat 64 0 * s.g 5) = some ⟨w0, 0x40000, 0x17⟩ ∧ s.slot.open_ = false ∧
    okIs (s.access (s.g 4 + .ofNat 64 0 * s.g 5) (elemBits .f32 / 8) { r := true, n := true }) (.here ⟨0x2008, 0, false⟩) = true ∧
    okIs (s.access (s.g 4 + .ofNat 64 0 * s.g 5) (elemBits .f32 / 8) { w := true, n := true }) (.here ⟨0x2008, 0, false⟩) = true ∧
    e.slot.active .f32 ≤ e.slot.prog.lanes ∧ e.slot.prog.word.isSome = true ∧
    after (exec (.vldx 0 3 4 5 .f32) s) (fun t => t.slot.prog.lanes == 1 && t.slot.prog.read == 0x33) = true ∧
    after (exec (.vstx 0 3 4 5 .f32) s) (fun t => t.slot.prog.lanes == 1 && t.mem.byte 0x2008 == 0x11) = true ∧
    givesV (exec (.vldx 0 3 4 5 .f32) e) 3 0x4400000033 = true := by
  decide +kernel

theorem test_vector_store_of_a_failing_line : let s := failing (alone (vectored (thread [(4, w0 + 0x2000)]) [(3, .allOnes 512)] 16))
    s.Performs 0 0 false ∧ 0 < s.slot.activeBytes .f32 ∧ s.badAt 0x2000 = true ∧
    okIs (s.access (s.g 4) (s.slot.activeBytes .f32) { w := true, n := true }) (.here ⟨0x2000, 0, false⟩) = true ∧
    after (exec (.vst 0 3 4 .f32) s) (fun t => t.slot.cause == 0x17 && t.slot.tval == w0 + 0x2000 && t.mem == s.mem) = true := by
  decide +kernel

/-- Codes of R79 to R82, and a value between two of them: 1 + 2^-8 in bf16, in each mode and sign; 465 in e4m3, beyond the middle of its
largest magnitude and the next; 2.5 and 300 in integers. -/
theorem test_roundings : elemFloat .bf16 = true ∧ 0x7F < 2 ^ (elemBits .e4m3 - 1) ∧ floatVal .bf16 0xBFC0 = .fin true 0xC0 (-7) ∧
    floatVal .bf16 0x7F80 = .inf false ∧ floatVal .e4m3 0x7F = .nan ∧ maxCode .e4m3 < 0x7F ∧
    unitsOf .bf16 0x3F80 * 2 ^ (unitExp .bf16 - -8).toNat ≤ 257 * 2 ^ (-8 - unitExp .bf16).toNat ∧
    257 * 2 ^ (-8 - unitExp .bf16).toNat < unitsOf .bf16 0x3F81 * 2 ^ (unitExp .bf16 - -8).toNat ∧
    toFloat .bf16 .rne 0 false (.fin false 257 (-8)) = 0x3F80 ∧ toFloat .bf16 .rup 0 false (.fin false 257 (-8)) = 0x3F81 ∧
    toFloat .bf16 .rdn 0 false (.fin true 257 (-8)) = 0xBF81 ∧ toFloat .bf16 .srk 0x7FFFFFFF false (.fin false 257 (-8)) = 0x3F80 ∧
    toFloat .bf16 .srk 0x80000000 false (.fin false 257 (-8)) = 0x3F81 ∧
    unitsOf .e4m3 0x7E * 2 ^ (unitExp .e4m3 - 0).toNat ≤ 465 * 2 ^ (0 - unitExp .e4m3).toNat ∧
    465 * 2 ^ (0 - unitExp .e4m3).toNat < unitsOf .e4m3 0x7F * 2 ^ (unitExp .e4m3 - 0).toNat ∧
    toFloat .e4m3 .rne 0 false (.fin false 465 0) = 0x7F ∧ toFloat .e4m3 .rne 0 true (.fin false 465 0) = 0x7E ∧
    toFloat .e4m3 .rtz 0 false (.fin false 465 0) = 0x7E ∧
    2 * 2 ^ (-(-1) : Int).toNat ≤ 5 * 2 ^ (-1 : Int).toNat ∧ 5 * 2 ^ (-1 : Int).toNat < 3 * 2 ^ (-(-1) : Int).toNat ∧
    toInt 8 .rne 0 (.fin false 5 (-1)) = 2 ∧ toInt 8 .rup 0 (.fin false 5 (-1)) = 3 ∧ toInt 8 .rup 0 (.fin true 5 (-1)) = -2 ∧
    toInt 8 .rne 0 (.fin false 300 0) = 127 := by decide +kernel

/-! ## The matrix array -/

/-- A tensor of f32, or of another format, of 4 rows of 16 elements at 0x2000 of the core's store. -/
def tensor (t : Elem) : Shape := ⟨t, 16, 4, 1, 64, 256, w0 + 0x2000⟩

/-- Four doublewords, each in a block that has been read. -/
def resumedAll (x : Slot) (l : List Vec) : Slot := { x with prog := { word := some 0, got := l } }

theorem test_handles_asked : let l : List Vec := [15 * 2 ^ 32, 3, 64, 256]
    let s := alone (resumedAll (thread [(4, w0 + 0x40), (5, w0 + 0x2000)]) l)
    let u := alone (resumedAll (thread [(4, w0 + 0x40), (5, w0 + 0x2000)]) [15 * 2 ^ 32, 3, 63, 256])
    s.Resumes l ∧ s.slot.open_ = false ∧ (s.g 4).toNat % 32 = 0 ∧ shapeOf (15 * 2 ^ 32) 3 64 256 (w0 + 0x2000) = some (tensor .f32) ∧
    shapeOf (15 * 2 ^ 32) 3 63 256 (w0 + 0x2000) = none ∧
    after (exec (.hnew 0 3 4 5) s) (fun t => t.net == [⟨0, .request 0 (.handle (tensor .f32))⟩] && t.slot.run == .waiting .reply) = true ∧
    after (exec (.hnew 0 3 4 5) u) (fun t => t.slot.cause == 0x0C && t.slot.tval == w0 + 0x40) = true := by decide +kernel

/-- The lowest free slot, with its generation 1. -/
theorem test_handles_made : let s := flying plain (.request 0 (.handle (tensor .f32)))
    let u := s.setPartAt 0 { s.partAt 0 with handles := (List.range 3).map fun k => (k, ⟨1, some (tensor .f32)⟩) }
    s.net[0]? = some ⟨0, .request 0 (.handle (tensor .f32))⟩ ∧ (Table.get {} (s.partAt 0).handles 0).shape = none ∧
    (Table.get {} (s.partAt 0).handles 0).gen < 2 ^ 20 ∧
    after (exec (.remoteRequest 0) s) (fun t => t.net == [⟨0, .reply 0 (.ok 1) (.core 0)⟩] && (t.partAt 0).shape 1 == some (tensor .f32)) = true ∧
    after (exec (.remoteRequest 0) u) (fun t => t.net == [⟨0, .reply 0 (.ok 0x300001) (.core 0)⟩]) = true := by decide +kernel

/-- A table with every slot taken. -/
def taken : Table HandleSlot := (List.range' 0 4095).map fun k => (k, ⟨1, some (tensor .f32)⟩)

theorem get_range (d v : HandleSlot) (n u : Nat) : ∀ a, a ≤ u → u < a + n → Table.get d ((List.range' a n).map fun k => (k, v)) u = v := by
  induction n with
  | zero => intro a h₁ h₂; omega
  | succ n ih =>
    intro a h₁ h₂
    rw [List.range'_succ, List.map_cons, Table.get, if_neg (by omega)]
    split
    · rfl
    · exact ih (a + 1) (by omega) (by omega)

theorem test_handles_full : let e := flying plain (.request 0 (.handle (tensor .f32)))
    let s := e.setPartAt 0 { e.partAt 0 with handles := taken }
    s.net[0]? = some ⟨0, .request 0 (.handle (tensor .f32))⟩ ∧ ∀ u, u < 4095 → (Table.get {} (s.partAt 0).handles u).shape ≠ none := by
  refine ⟨by decide +kernel, fun u h => ?_⟩
  show (Table.get {} taken u).shape ≠ none
  rw [taken, get_range _ _ _ _ 0 (Nat.zero_le u) (by omega)]
  exact Option.some_ne_none _

/-- The last generation wraps to 1. -/
theorem test_handles_deleted : let e := alone (thread [(4, 0x7700000005FFFFF), (5, 0x500001)])
    let s := e.setPartAt 0 { e.partAt 0 with handles := [(5, ⟨0xFFFFF, some (tensor .f32)⟩)] }
    s.Performs 0 0 true ∧ s.slot.open_ = false ∧ s.part.shape ((s.g 4).toNat % 2 ^ 32) ≠ none ∧ s.part.shape ((s.g 5).toNat % 2 ^ 32) = none ∧
    after (exec (.hdel 0 4) s) (fun t => t.part.handles == [(5, ⟨1, none⟩)]) = true ∧
    after (exec (.hdel 0 5) s) (fun t => t.slot.cause == 0x0A && t.slot.tval == 0x500001) = true ∧
    after (exec (.tstat 0 3) (alone { thread [] with tstatus := 0x77 })) (fun t => t.g 3 == 0x77) = true := by decide +kernel

/-- A line of MZERO 1, 1 and MEND, whose words the tests of words give. -/
def listLine : Vec := .ofNat 512 ((encodeTile (.mzero .one .one)).getD 0 + 2 ^ 256 * (encodeTile .mend).getD 0)

theorem test_list_is : ListIs (w0 + 0x2000) [listLine] [.mzero .one .one, .mend] := by
  refine ⟨by decide, by decide, by decide, ?_⟩
  intro j c h
  rcases j with _ | _ | j <;> simp at h <;> subst h <;> decide +kernel

/-- A list that array 0 runs for slot 0: k0 is 2, k1 is 1, k2 is 0. -/
def listRun (cmds : List Instr) (shapes : List (Option Shape)) : ListRun :=
  { slot := 0, stamp := 1, cmds := cmds, shapes := shapes, idx := 0, rep := 0
    k := Vector.ofFn fun i => if i.val = 0 then 2 else if i.val = 1 then 1 else 0
    rel := 0, vis := 1, now := 0, sat := false, mode := 0, key := 0, wide := false, rnd := none, lines := [], written := [], hold := none
    ord := none, out := 0, awaits := none, miss := 0, lost := none, accs := [], drained := [], ready := 0 }

/-- Accumulators (0, 0), (0, 1) and (1, 0) hold 1, 2 and 3. -/
def accs : Table Half := [(0, 0x3F800000), (1, 0x40000000), (128, 0x40400000)]

def running (x : ListRun) (a : MatArray := {}) : State :=
  (alone { thread [] with run := .waiting .list }).setArrayAt 0 { a with owner := some 0, run := some x }

theorem test_lists_accepted : let s := alone (resumedAll (thread [(4, w0 + 0x2000)]) [listLine])
    let m : Vec := .ofNat 512 ((encodeTile (.mst 0x500001 .one .one .f32 false 0 .dflt)).getD 0 + 2 ^ 256 * (encodeTile .mend).getD 0)
    let u := alone (resumedAll (thread [(4, w0 + 0x2000)]) [m])
    let busy := s.setArrayAt 0 { run := some (listRun [] []) }
    s.Resumes [listLine] ∧ s.slot.open_ = false ∧ (s.g 4).toNat % 32 = 0 ∧ (s.arrayAt 0).run = none ∧ (s.arrayAt 0).queue = [] ∧
    okIs (resolveShapes s.part s.slot.k 0 [.mzero .one .one, .mend]) [none, none] = true ∧
    (match resolveShapes u.part u.slot.k 0 [.mst 0x500001 .one .one .f32 false 0 .dflt, .mend] with | .error n => n == 0 | _ => false) = true ∧
    (busy.arrayAt 0).run ≠ none ∧
    after (exec (.trun 0 4) s) (fun t => (t.arrayAt 0).run.any (fun x => x.cmds == [.mzero .one .one, .mend]) && t.slot.run == .waiting .list) =
      true ∧
    after (exec (.trun 0 4) u) (fun t => t.slot.cause == 0x0A && t.slot.tstatus == 0x0A02) = true ∧
    after (exec (.trun 0 4) busy) (fun t => t.slot.run == .waiting .array && (t.arrayAt 0).queue == [0]) = true := by decide +kernel

theorem test_tiles_zeroed : let x := listRun [.mzero (.k 0) .one, .mend] [none, none]
    let s := running x { acc := accs }
    s.Runs x ∧ x.ext (.k 0) = 2 ∧ x.ext .one = 1 ∧ x.ext (.k 2) = 0 ∧
    after (exec (.mzero (.k 0) .one) s) (fun t =>
      [0, 1, 128].map (Table.get 0 (t.arrayAt 0).acc) == [0, 0x40000000, 0]) = true ∧
    after (exec (.mzero (.k 2) .one) s) (fun t => t.slot.cause == 0x0C && (t.arrayAt 0).run == none) = true := by decide +kernel

theorem test_list_formats : let x := listRun [.mfmt (some .rtz) true none, .mend] [none, none]
    (running x).Runs x ∧ after (exec (.mfmt (some .rtz) true none) (running x)) (fun t => (t.arrayAt 0).run.any fun y =>
      y.idx == 1 && y.wide && y.rnd == some .rtz && !y.sat) = true := by decide +kernel

/-- A body that starts at command 0, run twice: it goes back once. -/
theorem test_bodies_repeat : let x := { listRun [.mzero .one .one, .mrep (.k 0) 1, .mend] [none, none, none] with idx := 1 }
    let y := { x with rep := 1 }
    (running x).Runs x ∧ (running y).Runs y ∧ x.ext (.k 2) = 0 ∧ x.rep + 1 < x.ext (.k 0) ∧ 0 < y.ext (.k 0) ∧ y.ext (.k 0) ≤ y.rep + 1 ∧
    after (exec (.mrep (.k 0) 1) (running x)) (fun t => (t.arrayAt 0).run.any fun z => z.idx == 0 && z.rep == 1) = true ∧
    after (exec (.mrep (.k 0) 1) (running y)) (fun t => (t.arrayAt 0).run.any fun z => z.idx == 2 && z.rep == 0) = true ∧
    after (exec (.mrep (.k 2) 1) (running x)) (fun t => t.slot.cause == 0x0C && t.slot.tval == 1) = true := by decide +kernel

theorem test_lists_end : let x := { listRun [.mfmt none false none, .mend] [none, none] with idx := 1 }
    let o := { x with out := 1 }
    let l := { x with miss := 3, lost := some w2 }
    let fetched := (running x).setSlotAt 0 { (running x).slotAt 0 with ahead := [(w0 + 0x100, 5)] }
    fetched.Runs x ∧ (running x).Runs x ∧ (running o).Runs o ∧ (running l).Runs l ∧ o.out ≠ 0 ∧ x.out = 0 ∧ (running x).owes 0 = false ∧ x.lost = none ∧
    l.lost = some w2 ∧
    after (exec .mend (fetched)) (fun t => t.slot.run == .runnable && t.slot.ahead == [] && t.slot.tstatus == 0x10001 && t.ctx.pc == w0 + 0x104) = true ∧
    after (exec .mend (running o)) (fun t => t == running o) = true ∧
    after (exec .mend (running l)) (fun t => t.slot.cause == 0x08 && t.slot.tval == w2 && t.slot.tstatus == 0x0003000000010803) = true := by
  decide +kernel

/-- Both factors of row 0 are 2, read; and none is named. -/
theorem test_tiles_scaled : let x := { listRun [.mscl .one (.k 0) 0x2000 0x2040, .mend] [none, none] with
      lines := [(w0 + 0x2000, 0x40000000), (w0 + 0x2040, 0x4000000040000000)] }
    let s := running x { acc := accs }
    s.Runs x ∧ (scaleLines 0x2000 ((List.range (x.ext .one)).map (4 * ·)) 4 ++ scaleLines 0x2040 ((List.range (x.ext (.k 0))).map (4 * ·)) 4).all
      (fun a => x.lines.any fun l => l.1 == a) = true ∧
    after (exec (.mscl .one (.k 0) 0x2000 0x2040) s) (fun t =>
      [0, 1, 128].map (Table.get 0 (t.arrayAt 0).acc) == [0x40800000, 0x41000000, 0x40400000]) = true ∧
    after (exec (.mscl .one (.k 0) 0 0) s) (fun t => (t.arrayAt 0).acc == accs) = true ∧ x.ext (.k 2) = 0 ∧
    after (exec (.mscl (.k 2) .one 0x2000 0x2040) s) (fun t => (t.arrayAt 0).acc == accs && (t.arrayAt 0).run.any fun y => y.idx == 1) = true := by decide +kernel

theorem test_slice_partials : groupResult { x := -1, q := [3, 2] } { x := 0, q := [2, -1] } = 0x40000000 ∧
    groupResult { special := true } {} = 0x7FC00000 := by decide +kernel

theorem no_clash {a : MatArray} {m : Nat} {macs : BitVec 2}
    (h : ∀ r, r < m → ∀ k : Fin 2, ¬ (macs.getLsbD k = true ∧ a.macros[k].cls ≠ .none ∧ (Table.get {} a.rows r).cls ≠ .none ∧
      a.macros[k].cls ≠ (Table.get {} a.rows r).cls)) : ¬ ClassClash a m macs := fun ⟨r, k, hr, hc⟩ => h r hr k hc

/-- A row and a macro of one element each: 3 × 2^−1 and 2. -/
def element : MatArray :=
  { acc := accs, macros := .replicate 2 { cls := .wide, groups := [(0, { q := [2] })], slices := .replicate 2 { tag := 0 } }
    rows := [(0, { cls := .wide, groups := [(0, { x := -1, q := [3] })], slices := .replicate 4 { tag := 0 } })] }

def multiply : ListRun := listRun [.mma .one .one 1, .mend] [none, none]

/-- Its row and column of one wide macro, with the energy of two transitions. -/
theorem test_multiplies : let e := running multiply element
    let s := e.setDieAt 0 { e.dieAt 0 with tokens := (List.replicate 4 {}).set 2 { credit := 5 } }
    ¬ ClassClash (s.arrayAt 0) 1 1 ∧
    s.Runs multiply ∧ (Table.get {} (s.arrayAt 0).rows 0).cls = .wide ∧ (∀ k : Fin 2, (s.arrayAt 0).macros[k].cls = .wide) ∧
    (s.dieAt 0).tokenFor 0 (burstUnits (s.arrayAt 0) 1 1 1) = some 2 ∧ s.surgeOk 0 s.slot.part = true ∧ burstUnits (s.arrayAt 0) 1 1 1 = 2 ∧
    after (exec (.mma .one .one 1) s) (fun t => [0, 1, 128].map (Table.get 0 (t.arrayAt 0).acc) == [0x40800000, 0x40000000, 0x40400000] &&
      ((t.dieAt 0).tokens[2]?).any (fun k => k.credit == 3 && k.kept == 1)) = true :=
  ⟨no_clash (by decide +kernel), by decide +kernel⟩

/-- Its tokens are in another cluster; another partition's burst was one cycle ago; and its row is narrow. -/
theorem test_bursts_wait : let e := running multiply element
    let s := e.setDieAt 0 { e.dieAt 0 with tokens := .replicate 4 { at_ := 1 } }
    let g := e.setDieAt 0 { e.dieAt 0 with tokens := .replicate 4 { credit := 5 } }
    let u := { g.setPortAt 0 { g.portAt 0 with bursts := [(1, 7)] } with cyc := 8 }
    let c := running multiply { element with rows := [(0, { cls := .narrow })] }
    ClassClash (c.arrayAt 0) 1 1 ∧ ¬ ClassClash (s.arrayAt 0) 1 1 ∧
    s.Runs multiply ∧ u.Runs multiply ∧ c.Runs multiply ∧ (∀ k ∈ (s.dieAt 0).tokens, k.at_ ≠ 0) ∧ u.surgeOk 0 u.slot.part = false ∧
    after (exec (.mma .one .one 1) s) (fun t => t == s) = true ∧ after (exec (.mma .one .one 1) u) (fun t => t == u) = true ∧
    after (exec (.mma .one .one 1) c) (fun t => t.slot.cause == 0x0C && (t.arrayAt 0).run == none) = true :=
  ⟨⟨0, 0, by decide +kernel⟩, no_clash (by decide +kernel), by decide +kernel⟩

/-- 1.5 at row 0, column 0 of a tensor of bf16. -/
theorem test_macros_loaded : let x := listRun [.mldb 0 true .one .one .bf16 false 0 .dflt, .mend] [some (tensor .bf16), none]
    let y := { x with lines := [(w0 + 0x2000, 0x3FC0)] }
    let s := holding (running x) 0x2000 2 0x3FC0
    let u := running y
    s.Runs x ∧ u.Runs y ∧ x.shapes[x.idx]? = some (some (tensor .bf16)) ∧ (tensor .bf16).covers (x.rep + 1) (x.ext .one) = true ∧
    ((((List.range 1).flatMap fun i => (tensor .bf16).rowLines (x.rep * 1 + i) 1).filter fun a => !x.lines.any fun l => l.1 == a)[(s.pick 1).1]?) =
      some (w0 + 0x2000) ∧
    okIs (s.unitRead s.slot 0 (w0 + 0x2000) (instField .dflt x.rel x.rel x.now)) (.got 0x3FC0) = true ∧
    (tensor .bf16).covers (y.rep * y.ext .one + y.ext .one) (y.ext .one) = true ∧ y.ext .one ≤ rowsOf (classOf .bf16) ∧
    after (exec (.mldb 0 true .one .one .bf16 false 0 .dflt) s) (fun t => (t.arrayAt 0).run == some y) = true ∧
    after (exec (.mldb 0 true .one .one .bf16 false 0 .dflt) u) (fun t => (t.arrayAt 0).macros[0].cls == .none &&
      Table.get {} (t.arrayAt 0).macros[1].groups 0 == { x := -14, q := 24576 :: .replicate 31 0 }) = true := by decide +kernel

theorem test_rows_loaded : let x := { listRun [.mlda 0 .one (.k 0) .i8 false 0 .dflt, .mend] [some (tensor .i8), none] with
      lines := [(w0 + 0x2000, 0x80FF)] }
    let s := running x
    s.Runs x ∧ x.shapes[x.idx]? = some (some (tensor .i8)) ∧ (tensor .i8).covers (x.rep * x.ext .one + x.ext .one) (x.ext (.k 0)) = true ∧
    x.ext (.k 0) ≤ 2 * rowsOf (classOf .i8) ∧
    (linesOf ((tensor .i8).at_ 0 0) (rowBytes .i8 (min 128 (x.ext (.k 0))))).all (fun a => x.lines.any fun l => l.1 == a) = true ∧
    after (exec (.mlda 0 .one (.k 0) .i8 false 0 .dflt) s) (fun t => (Table.get {} (t.arrayAt 0).rows 0).cls == .narrow &&
      Table.get {} (Table.get {} (t.arrayAt 0).rows 0).groups 0 == { x := 0, q := -1 :: -128 :: .replicate 30 0 }) = true := by decide +kernel

/-- Its one piece, then its end with a clear. -/
theorem test_tiles_stored : let x := { listRun [.mst 0 .one (.k 0) .f32 true 0 .dflt, .mend] [some (tensor .f32), none] with ord := some 0 }
    let y := { x with written := [0] }
    let o := { y with out := 1 }
    let s := running x { acc := accs }
    let u := running y { acc := accs }
    s.Runs x ∧ u.Runs y ∧ (running o).Runs o ∧ x.shapes[x.idx]? = some (some (tensor .f32)) ∧ (tensor .f32).at_ x.rep 0 = w0 + 0x2000 ∧
    (tensor .f32).covers (x.rep + 1) (x.ext (.k 0)) = true ∧ s.slot.dataSeg (w0 + 0x2000) = some ⟨w0, 0x40000, 0x17⟩ ∧
    okIs (checkSeg s.slot (w0 + 0x2000) 64 { w := true, n := true }) () = true ∧
    okIs (s.locate 0 s.slot.part (w0 + 0x2000) 64 6) (.here ⟨0x2000, 0, false⟩) = true ∧
    after (exec (.mst 0 .one (.k 0) .f32 true 0 .dflt) s) (fun t => t.mem.read 0x2000 8 == 0x400000003F800000 &&
      (t.arrayAt 0).run.any (fun z => z.written == [0])) = true ∧
    after (exec (.mst 0 .one (.k 0) .f32 true 0 .dflt) u) (fun t => [0, 1, 128].map (Table.get 0 (t.arrayAt 0).acc) == [0, 0, 0x40400000] &&
      (t.arrayAt 0).run.any (fun z => z.idx == 1)) = true := by decide +kernel

/-- A token on its way; at cluster 0 with an empty pool, with one of 100 units, and with one that fills it. -/
theorem test_token_hops : let s := { plain with cyc := 8 }
    let at_ := fun (t : Token) (pool : Nat) => s.setDieAt 0 { s.dieAt 0 with tokens := [t], pool := pool }
    let n := (s.dieAt 0).capUnits
    ((at_ { at_ := 15 } 0).dieAt 0).tokens[0]? = some { at_ := 15 } ∧ 0 + 8 ≤ s.cyc ∧ s.burstWaits 15 { at_ := 15 } n = false ∧
    100 < n ∧ s.burstWaits 0 {} n = false ∧ plain.cyc < 0 + 8 ∧
    after (exec (.garnetTokenHop 0 0) (at_ { at_ := 15 } 0)) (fun t => (t.dieAt 0).tokens == [{ at_ := 0, hop := 8 }]) = true ∧
    after (exec (.garnetTokenHop 0 0) (at_ {} 0)) (fun t => t == at_ {} 0) = true ∧
    after (exec (.garnetTokenHop 0 0) (at_ {} 100)) (fun t => (t.dieAt 0).tokens == [{ credit := 100 }] && (t.dieAt 0).pool == 0) = true ∧
    after (exec (.garnetTokenHop 0 0) (at_ {} n)) (fun t => (t.dieAt 0).tokens == [{ at_ := 1, hop := 8, credit := n }] &&
      (t.dieAt 0).pool == 0) = true := by decide +kernel
/-- Bytes of a tensor of e4m3 whose slice has tag 2: they are i8, −1 first; the second slice's tag is 3. -/
theorem test_tagged_loads : let l : List (Word × Vec) := [(w0 + 0x2000, 0x80FF), (w0 + 0x2040, vecOf [0x23F800000, 0x340000000])]
    let x := { listRun [.mldb 0 true .one .one .e4m3 true 0x2040 .dflt, .mend] [some (tensor .e4m3), none] with lines := l }
    let y := { listRun [.mlda 0 .one (.k 0) .e4m3 true 0x2040 .dflt, .mend] [some (tensor .e4m3), none] with lines := l }
    (running x).Runs x ∧ (running y).Runs y ∧ (sliceAt l 0x2040 0 .e4m3 true) = { scale := 0x3F800000, tag := 2 } ∧
    (sliceAt l 0x2040 8 .e4m3 true).tag = 3 ∧ scaleLines 0x2040 [0, 8, 16, 24] 8 = [w0 + 0x2040] ∧
    (tensor .e4m3).rowLines (x.rep * 1 + 0) 1 = [w0 + 0x2000] ∧ (tensor .e4m3).prologueLines 0 1 1 = [] ∧
    after (exec (.mldb 0 true .one .one .e4m3 true 0x2040 .dflt) (running x)) (fun t => let m := (t.arrayAt 0).macros[1]
      Table.get {} m.groups 0 == { x := 0, q := -1 :: .replicate 31 0 } && m.slices[0].scale == 0x3F800000 && m.slices[1].tag == 3) = true ∧
    after (exec (.mlda 0 .one (.k 0) .e4m3 true 0x2040 .dflt) (running y)) (fun t => let r := Table.get {} (t.arrayAt 0).rows 0
      Table.get {} r.groups 0 == { x := 0, q := -1 :: -128 :: .replicate 30 0 } && r.slices[0].tag == 2) = true := by decide +kernel

/-- Pieces of accumulators 1 and 2: in the core's own store, with a scale of 2, and in W2 as a store at VIS with the list's ordinal. -/
theorem test_pieces_stored : let w : Shape := { tensor .f32 with base := w2 }
    let x := { listRun [.mst 0 .one (.k 0) .f32 true 0x2040 .dflt, .mend] [some (tensor .f32), none] with
      ord := some 9, lines := [(w0 + 0x2040, 0x40000000)] }
    let y := { listRun [.mst 0 .one (.k 0) .f32 true 0 .dflt, .mend] [some w, none] with ord := some 9 }
    let s := running x { acc := accs }
    let u := running y { acc := accs }
    s.Runs x ∧ u.Runs y ∧ scaleLines 0x2040 [0] 4 = [w0 + 0x2040] ∧ w.covers (0 * 1 + 1) 2 = true ∧ w.at_ 0 0 = w2 ∧
    ((List.range 1).filter fun j => !x.written.contains j)[(s.pick 1).1]? = some 0 ∧ s.badAt 0x2000 = false ∧
    u.slot.dataSeg w2 = some ⟨w2, 0x200000, 0x0B⟩ ∧ okIs (checkSeg u.slot w2 64 { w := true, i := true }) () = true ∧
    okIs (u.locate 0 0 w2 64 6) (.here (at2 0)) = true ∧
    after (exec (.mst 0 .one (.k 0) .f32 true 0x2040 .dflt) s) (fun t => t.mem.read 0x2000 8 == 0x4080000040000000) = true ∧
    after (exec (.mst 0 .one (.k 0) .f32 true 0 .dflt) u) (fun t => (t.arrayAt 0).run.any (fun z => z.out == 1 && z.written == [0]) &&
      (t.net.any fun q => match q.body with
        | .store (.cmd 1) st => st.va == w2 && st.v == 1 && st.ord == 9 && st.n == 8 && st.x.toNat % 2 ^ 64 == 0x400000003F800000
        | _ => false)) = true := by decide +kernel

/-- An MST that begins: in a Now-domain segment, in an Instant-domain one, and there at the last ordinal. -/
theorem test_stores_begin : let x := listRun [.mst 0 .one .one .f32 false 0 .dflt, .mend] [some (tensor .f32), none]
    let y := listRun [.mst 0 .one .one .f32 false 0 .dflt, .mend] [some { tensor .f32 with base := w2 }, none]
    let u := running y
    let last := u.setSlotAt 0 { u.slotAt 0 with ctx := { (u.slotAt 0).ctx with ord := 0xFFFF } }
    (running x).Runs x ∧ u.Runs y ∧ last.Runs y ∧ (running x).slot.dataSeg (w0 + 0x2000) = some ⟨w0, 0x40000, 0x17⟩ ∧
    u.slot.dataSeg w2 = some ⟨w2, 0x200000, 0x0B⟩ ∧ u.ctx.seqNo ≠ 0xFFFF ∧ last.ctx.seqNo = 0xFFFF ∧
    after (exec (.mst 0 .one .one .f32 false 0 .dflt) (running x)) (fun t => (t.arrayAt 0).run.any (·.ord == some 0) && t.ctx.ord == 0) = true ∧
    after (exec (.mst 0 .one .one .f32 false 0 .dflt) u) (fun t => (t.arrayAt 0).run.any (·.ord == some 0) && t.ctx.ord == 1) = true ∧
    after (exec (.mst 0 .one .one .f32 false 0 .dflt) last) (fun t => t.slot.cause == 0x08 && t.slot.tval == w2) = true := by decide +kernel

/-! ## Engine commands -/

/-- Two tensors of bytes, at 0x2000 and 0x3000 of the core's store, have handles 0x100001 and 0x200001. -/
def handled (s : State) : State :=
  s.setPartAt 0 { s.partAt 0 with handles := [(1, ⟨1, some (tensor .i8)⟩), (2, ⟨1, some { tensor .i8 with base := w0 + 0x3000 }⟩)] }

def from_ : View := ⟨.i8, w0 + 0x2000, 64, 256⟩
def to_ : View := ⟨.i8, w0 + 0x3000, 64, 256⟩

/-- A tile whose last elements are the tensor's last. -/
theorem test_tile_elements : (tensor .i8).tile (14, 2, 0) (2, 2, 1) = some ⟨.i8, w0 + 0x208E, 64, 256⟩ ∧ (tensor .i8).tile (15, 2, 0) (2, 2, 1) = none := by
  decide +kernel

/-- The blocks of CPY, CPYR and FILL for one element, with a completion token and a tag. -/
def cpyBlock : Vec := vecOf [0x0010000100200001, 0, 0, 0, 0, 0x11, 0x22, 0]
def cpyrBlock : Vec := vecOf [0x0010000100000000, 0, 0x10000000040, 0, 0, 0x11, 0x22, w0 + 0x3000]
def fillBlock : Vec := vecOf [0x0000000000200001, 0, 0, 0, 0, 0x11, 0x22, 0x1AB]

def asked (b : Vec) : State := handled (alone (resumed (thread [(4, w0 + 0x40)]) b))

theorem test_copy_block : CopyBlock (asked cpyBlock) 0 cpyBlock (some from_) to_ (1, 1, 1) where
  ext := by decide +kernel
  tops := by decide +kernel
  two := by decide +kernel
  seven := by decide +kernel
  noDst := by decide
  noSrc := by decide
  src _ := ⟨tensor .i8, from_, by decide +kernel, by decide +kernel, rfl⟩
  dst _ := ⟨{ tensor .i8 with base := w0 + 0x3000 }, by decide +kernel, by decide +kernel⟩
  raw := by decide

theorem test_raw_block : CopyBlock (asked cpyrBlock) 1 cpyrBlock (some from_) to_ (1, 1, 1) where
  ext := by decide +kernel
  tops := by decide +kernel
  two := by decide
  seven := by decide
  noDst := by decide +kernel
  noSrc := by decide
  src _ := ⟨tensor .i8, from_, by decide +kernel, by decide +kernel, rfl⟩
  dst := by decide
  raw _ := ⟨from_, rfl, by decide +kernel, by decide +kernel, by decide +kernel⟩

theorem test_fill_block : CopyBlock (asked fillBlock) 2 fillBlock none to_ (1, 1, 1) where
  ext := by decide +kernel
  tops := by decide +kernel
  two := by decide +kernel
  seven := by decide
  noDst := by decide
  noSrc := by decide +kernel
  src h := absurd rfl h
  dst _ := ⟨{ tensor .i8 with base := w0 + 0x3000 }, by decide +kernel, by decide +kernel⟩
  raw := by decide

/-- A command of partition 0 from core 0, that sampled what a thread of these tests holds. -/
def command (w : Work) : Cmd :=
  { stamp := 7, unit := 0, eng := 0, part := 0, core := 0, task := none, seg := some segs, ord := 5, slip := false, rel := 0, rdi := 0, vsi := 1
    mode := 0, sat := false, key := 0, hnd := 0x11, tag := 0x22, cid := 0, work := w, inst := false }

def copies (l : List Cmd) (s : State) : State := { s with copiers := [(0, l)] }

theorem test_copies_accepted : let s := asked cpyBlock
    let full := copies (.replicate 64 (command (.rmerge 0 0))) s
    copyOf (.cpy 0 1 4) = some (0, 1, 4, 0) ∧ s.Resumes [cpyBlock] ∧ s.slot.open_ = false ∧ blockInsts (dw cpyBlock 4) = some (.dflt, .dflt) ∧
    okIs (s.checkSpans (from_.spans (1, 1, 1) false ++ to_.spans (1, 1, 1) true)) () = true ∧
    okIs ((asked fillBlock).checkSpans ([] ++ to_.spans (1, 1, 1) true)) () = true ∧ s.ctx.seqNo ≠ 0xFFFF ∧
    s.queueRoom (s.copierAt s.cluster) ∧ ¬ full.queueRoom (full.copierAt full.cluster) ∧
    after (exec (.cpy 0 1 4) s) (fun t => t.p 1 && t.ctx.ord == 1 && (t.copierAt 0).map (·.work) == [.copy (some from_) to_ 1 1 1 0]) = true ∧
    after (exec (.cpyr 0 1 4) (asked cpyrBlock)) (fun t => (t.copierAt 0).map (·.work) == [.copy (some from_) to_ 1 1 1 (w0 + 0x3000)]) = true ∧
    after (exec (.fill 0 1 4) (asked fillBlock)) (fun t => (t.copierAt 0).map (·.work) == [.copy none to_ 1 1 1 0x1AB]) = true ∧
    after (exec (.cpy 0 1 4) full) (fun t => !t.p 1 && t.ctx.ord == 0 && t.copiers == full.copiers) = true := by decide +kernel

theorem test_copies_refused : let s := alone (choosing (thread [(4, w0 + 0x40)]))
    let b := vecOf [0x0010000100200001, 2 ^ 60]
    let u := asked b
    let v := alone (resumed (thread []) cpyBlock)
    s.Performs 0 0 false ∧ s.slot.open_ = true ∧ u.Resumes [b] ∧ u.slot.open_ = false ∧ 2 ^ 60 ≤ (dw b 1).toNat ∧
    v.part.shape (v.handleOf ((dw cpyBlock 0).toNat / 2 ^ 32)) = none ∧ blockInsts (dw cpyBlock 4) = some (.dflt, .dflt) ∧ v.Resumes [cpyBlock] ∧
    (dw cpyBlock 1).toNat < 2 ^ 60 ∧ (dw cpyBlock 2).toNat < 2 ^ 60 ∧ (dw cpyBlock 3).toNat < 2 ^ 60 ∧ (dw cpyBlock 4).toNat < 2 ^ 32 ∧ dw cpyBlock 7 = 0 ∧
    after (exec (.cpy 0 1 4) s) (fun t => t.slot.cause == 0x12 && t.slot.tval == w0 + 0x40) = true ∧
    after (exec (.cpy 0 1 4) u) (fun t => t.slot.cause == 0x0C && t.slot.tval == w0 + 0x40) = true ∧
    after (exec (.cpy 0 1 4) v) (fun t => t.slot.cause == 0x0A && t.slot.tval == 0x100001) = true := by decide +kernel

/-- A communicator of die 0 of this device alone, at 0x1000, and the block of a sum of two bytes. -/
def record : List Vec := [2 ^ 43, 0, 0]
def collBlock : Vec := vecOf [w0 + 0x1000, w0 + 0x2000, w0 + 0x3000, 2, 0, 0x11, 0x22, 0]

def collects : State := alone { thread [(4, w0 + 0x40)] with prog := { word := some 0, got := collBlock :: record } }

theorem test_communicator : Communicator collects (record.map (dw · 0)) (2 ^ 43) [0] 1 0 where
  cid_ := by decide +kernel
  len_ := by decide +kernel
  ndev_ := by decide +kernel
  list_ m w h e := by
    have : m = 0 := by simpa using h
    subst this
    have : w = 0 := by simpa [record, dw] using e.symm
    subst this
    decide +kernel
  dies_ := by decide +kernel
  own_ := by decide +kernel
  one_ := by decide +kernel
  zero_ w e := by
    have : w = 0 := by simpa [record, dw] using e.symm
    subst this
    decide +kernel
  per_ := by decide +kernel
  rank_ := by decide +kernel

theorem test_collectives_accepted : let full := { collects with collectors := [(0, .replicate 64 (command (.rmerge 0 0)))] }
    collOf (.collAllreduce 0 1 4 .i8 .sum) = some (0, 1, 4, .allreduce, .i8, .sum) ∧ collects.Resumes (collBlock :: record) ∧
    (dw collBlock 3).toNat < 2 ^ 32 ∧ (dw collBlock 4).toNat < 2 ^ 32 ∧ (dw collBlock 7).toNat < 2 ^ 16 ∧
    blockInsts (dw collBlock 4) = some (.dflt, .dflt) ∧ 0 < (dw collBlock 3).toNat ∧ (dw collBlock 3).toNat ≤ 2 ^ 28 ∧
    (dw collBlock 7).toNat < [0].length * 1 ∧ (dw collBlock 1).toNat % 1 = 0 ∧ (dw collBlock 2).toNat % 1 = 0 ∧
    okIs (collects.checkSpans [(dw collBlock 0 + 8, 8, true), (dw collBlock 1, 2, false), (dw collBlock 2, 2, true)]) () = true ∧ collects.badAt 0x100C = false ∧
    okIs (collects.access (dw collBlock 0 + 8) 8 { w := true, n := true }) (.here ⟨0x1008, 0, false⟩) = true ∧ collects.ctx.seqNo ≠ 0xFFFF ∧
    collects.queueRoom (collects.collectorAt 0) ∧ ¬ full.queueRoom (full.collectorAt 0) ∧
    after (exec (.collAllreduce 0 1 4 .i8 .sum) collects) (fun t => t.p 1 && (t.collectorAt 0).length == 1 && t.mem.read 0x100C 4 == 1) = true ∧
    after (exec (.collReduce 0 1 4 .i8 .sum) collects) (fun t => t.p 1 && (t.collectorAt 0).length == 1) = true ∧
    after (exec (.collRscatter 0 1 4 .i8 .sum) collects) (fun t => t.p 1 && (t.collectorAt 0).length == 1) = true ∧
    after (exec (.collAllgather 0 1 4 .i8) collects) (fun t => t.p 1 && (t.collectorAt 0).length == 1) = true ∧
    after (exec (.collAllreduce 0 1 4 .i8 .sum) full) (fun t => !t.p 1 && t.mem == full.mem) = true := by decide +kernel

/-- Its pieces made; one of them on its way; and one discarded. -/
theorem test_commands_complete : let c := { command (.rmerge 0 0) with stage := .ended, bytes := 9 }
    let l := { c with lost := some w2, miss := 1 }
    engineHead (copies [c] plain) (.cpyExecute 0) = some c ∧ c.stage = .ended ∧ c.out = 0 ∧ c.flight = none ∧ (copies [c] plain).owes 0 = false ∧
    (copies [c] plain).running c.part = true ∧ ({ c with out := 1 } : Cmd).out ≠ 0 ∧
    after (exec (.cpyExecute 0) (copies [c] plain)) (fun t => t.commands == [] && t.net.map (·.body) ==
      [.message w1 0 false (vecOf [0x11, 0x2000000000000005, 0, 0x22, 0, 9, 0, 0]) (.completed 0 7)]) = true ∧
    after (exec (.cpyExecute 0) (copies [l] plain)) (fun t => t.net.map (·.body) ==
      [.message w1 0 false (vecOf [0x11, 0x2000000000000005, 0x0001000000000008, 0x22, w2, 9, 0, 0]) (.completed 0 7)]) = true ∧
    after (exec (.cpyExecute 0) (copies [{ c with out := 1 }] plain)) (fun t => t.net == []) = true := by decide +kernel

/-- A byte copied, one made from −2 as a bf16, and one filled. -/
theorem test_elements_copied : let c := command (.copy (some from_) to_ 1 1 1 0)
    let f := { command (.copy none to_ 1 1 1 0x1AB) with eng := 2 }
    let k := command (.copy (some { from_ with fmt := .bf16 }) to_ 1 1 1 0)
    let s := holding (copies [c] plain) 0x2000 2 0xC0AB
    copierHead s (.cpyExecute 0) = some c ∧ s.cmdReady c = true ∧ c.stage = .begin_ ∧ c.pos = 0 ∧ c.sub = 0 ∧ c.elem = none ∧ c.piece = none ∧
    c.got = none ∧ c.instAt to_.base = false ∧ c.instAt from_.base = false ∧ s.onDevice to_.base = true ∧
    okIs (s.cmdPlace c to_.base 1 true) (.here ⟨0x3000, 0, false⟩) = true ∧ okIs (s.cmdPlace c from_.base 1 false) (.here ⟨0x2000, 0, false⟩) = true ∧
    okIs (s.readAt from_.base ⟨0x2000, 0, false⟩ 1) 0xAB = true ∧
    after (exec (.cpyExecute 0) s) (fun t => t.mem.byte 0x3000 == 0xAB && (t.copierAt 0).map (·.stage) == [.ended]) = true ∧
    after (exec (.fillExecute 0) (copies [f] plain)) (fun t => t.mem.byte 0x3000 == 0xAB) = true ∧
    after (exec (.cpyExecute 0) (holding (copies [k] plain) 0x2000 2 0xC000)) (fun t => t.mem.byte 0x3000 == 0xFE) = true := by decide +kernel

/-- Ranks of dies 0 and 1 add 1 and 2, and then wait with one rank's contribution. -/
def collCmd : Cmd :=
  { command (.coll (w0 + 0x2000) 1 (w0 + 0x3000) { cid := 3 * 2 ^ 43, num := 0, rank := 0, desc := ⟨.allreduce, .i8, .sum, 1, 0⟩, data := 0, fail := none } 2 [0] 2)
    with eng := 3, size := 1 }

def contribution (r x : Nat) : CollPart := { cid := 3 * 2 ^ 43, num := 0, rank := r, desc := ⟨.allreduce, .i8, .sum, 1, 0⟩, data := x, fail := none }

theorem test_collective_steps : let s := { plain with collectors := [(0, [collCmd])] }
    let j := { collCmd with stage := .join }
    let g : CollGroup := ⟨0, 3 * 2 ^ 43, 0, [(0, contribution 0 1), (1, contribution 1 2)], 0⟩
    let u := { plain with collectors := [(0, [j])], groups := [g] }
    let h : CollGroup := ⟨0, 3 * 2 ^ 43, 0, [(0, contribution 0 1)], 0⟩
    let v := { u with groups := [h] }
    (s.collectorAt 0).head? = some collCmd ∧ s.cmdReady collCmd = true ∧ s.net = [] ∧ (u.collectorAt 0).head? = some j ∧ u.cmdReady j = true ∧
    u.groups = [g] ∧ g.parts.length = 2 ∧ (∀ e ∈ g.parts, e.2.fail = none ∧ e.2.desc = ⟨.allreduce, .i8, .sum, 1, 0⟩) ∧ h.parts.length < 2 ∧ v.ownIdx = 0 ∧
    after (exec (.collExecute 0) s) (fun t => (t.collectorAt 0).map (·.stage) == [.read]) = true ∧
    after (exec (.collExecute 0) u) (fun t => (t.collectorAt 0).map (fun c => (c.stage, c.data)) == [(.write, 3)]) = true ∧
    after (exec (.collExecute 0) v) (fun t => t.collectorAt 0 == [j]) = true := by decide +kernel

theorem test_collective_sums : collResult ⟨.allreduce, .i8, .sum, 2, 0⟩ [contribution 0 0x01FF, contribution 1 0x0203] 2 0 = 0x0302 ∧
    collResult ⟨.allgather, .i8, .sum, 1, 0⟩ [contribution 0 5, contribution 1 9] 2 0 = 0x0905 := by decide +kernel

theorem test_store_sync : let c := { command (.rmerge 0 0) with inst := true }
    let s := copies [c] (alone { thread [] with cmds := [7] })
    let u := copies [{ c with stage := .ended }] (alone { thread [] with cmds := [7] })
    s.Performs 0 0 false ∧ (∃ e ∈ s.commands, e.stamp ∈ s.slot.cmds ∧ e.instDone = false) ∧ u.Performs 0 0 false ∧
    (∀ e ∈ u.commands, e.stamp ∈ u.slot.cmds → e.instDone = true) ∧ u.Drained .clu ∧ u.slot.prog.drained = false ∧
    after (exec (.stsync 0 .clu) s) (fun t => t.slot.run == .waiting .stsync) = true ∧
    after (exec (.stsync 0 .clu) u) (fun t => t.ctx.pc == w0 + 0x104) = true := by decide +kernel

/-- The record is device 9's: the engine counts it later. -/
theorem test_collective_away : let r : Word := 0x0009010000001000
    let b := vecOf [r, dw collBlock 1, dw collBlock 2, dw collBlock 3, dw collBlock 4, dw collBlock 5, dw collBlock 6, dw collBlock 7]
    let x := resumedAll (thread [(4, w0 + 0x40)]) (b :: record)
    let e := alone { x with seg := x.seg.set 5 ⟨0x0009010000000000, 0x10000, 0x13⟩ }
    let s := { e with dev := { e.dev with jobV := true, reach := [(9, 0x80050021)] } }
    s.Resumes (b :: record) ∧ okIs (s.access (dw b 0 + 8) 8 { w := true, n := true }) (.away 9) = true ∧ s.queueRoom (s.collectorAt 0) ∧
    okIs (s.checkSpans [(dw b 0 + 8, 8, true), (dw b 1, 2, false), (dw b 2, 2, true)]) () = true ∧
    after (exec (.collAllreduce 0 1 4 .i8 .sum) s) (fun t => t.p 1 && (t.collectorAt 0).map (fun c => (c.entry, c.cid)) == [(r + 12, dw (record.getD 0 0) 0)] &&
      t.mem == s.mem) = true := by decide +kernel

/-! ## Grammar and sampling -/

/-- What is read or found stops with this. -/
def errIs {ε α : Type} [DecidableEq ε] (x : Except ε α) (e : ε) : Bool :=
  match x with
  | .ok _ => false
  | .error f => decide (f = e)

/-- An image of two states, a symbol, two places of stack and two tokens; and one whose second token is its end of text. -/
def header_ : Vec := vecOf [0x0000000200010001, w0 + 0x4000, w0 + 0x4100, w0 + 0x4200, w0 + 0x4300, 1, 0, 0]
def headerEot : Vec := vecOf [0x0000000200010001, w0 + 0x4000, w0 + 0x4100, w0 + 0x4200, w0 + 0x4300, 0x0010000100000001, 0, 0]

def image : Image :=
  { cap := 2, nsymm := 1, nstm := 1, states := w0 + 0x4000, trans := w0 + 0x4100, trie := w0 + 0x4200, toktab := w0 + 0x4300, hasEot := false
    eot := 0, ntokm := 1 }

/-- The block of MASK and PADV: the image, the stack at 0x5000, configuration 0 and the mask at 0x6000. -/
def maskBlock : Vec := vecOf [w0 + 0x40, w0 + 0x5000, 0, w0 + 0x6000, 0, 0x11, 0x22, 0]

def asks (l : List Vec) : State := alone (resumedAll (thread [(4, w0 + 0x80)]) l)

theorem test_masks_accepted : let s := asks [maskBlock, header_]
    let full := { s with sphinxes := [(0, { queue := .replicate 64 (command (.rmerge 0 0)) })] }
    s.Resumes [maskBlock, header_] ∧ s.slot.open_ = false ∧ imageOf header_ = some image ∧ blockInsts (dw maskBlock 4) = some (.dflt, .dflt) ∧
    (dw maskBlock 4).toNat < 2 ^ 32 ∧ dw maskBlock 7 = 0 ∧ (dw maskBlock 3).toNat % 64 = 0 ∧ image.accepts (dw maskBlock 2) = true ∧
    okIs (s.checkSpans [(dw maskBlock 1, (dw maskBlock 2).toNat / 2 ^ 16, false)]) () = true ∧
    okIs (s.checkSpans [(dw maskBlock 3, image.maskSize, true)]) () = true ∧
    s.ctx.seqNo ≠ 0xFFFF ∧ s.queueRoom (s.sphinxAt s.cluster).queue ∧ ¬ full.queueRoom (full.sphinxAt full.cluster).queue ∧
    after (exec (.mask 0 1 4) s) (fun t => t.p 1 && (t.sphinxAt 0).queue.map (·.work) == [.mask maskBlock header_]) = true ∧
    after (exec (.mask 0 1 4) full) (fun t => !t.p 1 && t.sphinxes == full.sphinxes) = true := by decide +kernel

/-- A depth of 3 in a stack of 2, and a header whose first doubleword has a reserved bit. -/
theorem test_masks_refused : let b := vecOf [w0 + 0x40, w0 + 0x5000, 0x30000, w0 + 0x6000, 0, 0x11, 0x22, 0]
    let h := vecOf [0x0001000200010001]
    (asks [maskBlock, h]).Resumes [maskBlock, h] ∧ imageOf h = none ∧ (asks [b, header_]).Resumes [b, header_] ∧ image.accepts (dw b 2) = false ∧
    after (exec (.mask 0 1 4) (asks [maskBlock, h])) (fun t => t.slot.cause == 0x0E && t.slot.tval == w0 + 0x80) = true ∧
    after (exec (.mask 0 1 4) (asks [b, header_])) (fun t => t.slot.cause == 0x0E && t.slot.tval == w0 + 0x80) = true := by decide +kernel

/-- A stack of depth 1 in no segment, above a mask in none; and such a mask alone. -/
theorem test_mask_lines_checked : let b := vecOf [w0 + 0x40, 0x5000, 0x10000, 0x40, 0, 0x11, 0x22, 0]
    let c := vecOf [w0 + 0x40, w0 + 0x5000, 0x10000, 0x40, 0, 0x11, 0x22, 0]
    (asks [b, header_]).Resumes [b, header_] ∧ blockInsts (dw b 4) = some (.dflt, .dflt) ∧ image.accepts (dw b 2) = true ∧
    errIs ((asks [b, header_]).checkSpans [(dw b 1, (dw b 2).toNat / 2 ^ 16, false)]) (.of .segBound 0x5000) = true ∧
    okIs ((asks [c, header_]).checkSpans [(dw c 1, (dw c 2).toNat / 2 ^ 16, false)]) () = true ∧
    errIs ((asks [c, header_]).checkSpans [(dw c 3, image.maskSize, true)]) (.of .segBound 0x40) = true ∧
    after (exec (.mask 0 1 4) (asks [b, header_])) (fun t => t.slot.cause == 0x03 && t.slot.tval == 0x5000) = true ∧
    after (exec (.mask 0 1 4) (asks [c, header_])) (fun t => t.slot.cause == 0x03 && t.slot.tval == 0x40) = true := by decide +kernel

/-- The walk's first reads; the end of text where state 0 accepts; and an entry with a reserved bit. -/
theorem test_mask_walks : let m := { image with hasEot := true, eot := 1 }
    let c := { command (.mask maskBlock headerEot) with unit := 1 }
    let at_ := fun (c : Cmd) => ({ plain with sphinxes := [(0, { queue := [c] })] } : State)
    let r := { c with stage := .read, got := some (w0 + 0x4000, .ok 0x77) }
    let d := { c with stage := .read, cache := [(w0 + 0x4000, 8, 2 ^ 63), (w0 + 0x4200, 8, 0)] }
    let f := { c with stage := .read, cache := [(w0 + 0x4000, 8, 2 ^ 48)] }
    ((at_ c).sphinxAt 0).queue.head? = some c ∧ imageOf headerEot = some m ∧ (at_ c).cmdReady c = true ∧ ((at_ c).sphinxAt 0).asks = [] ∧
    (at_ r).cmdReady r = true ∧ errIs (m.mask (dw maskBlock 1) (dw maskBlock 2) r.cache) (.need (w0 + 0x4000) 8) = true ∧
    errIs (m.mask (dw maskBlock 1) (dw maskBlock 2) f.cache) .format = true ∧ okIs (m.mask (dw maskBlock 1) (dw maskBlock 2) d.cache) 2 = true ∧
    after (exec (.maskWalk 0) (at_ c)) (fun t => (t.sphinxAt 0).queue == [{ c with stage := .read }]) = true ∧
    after (exec (.maskWalk 0) (at_ r)) (fun t => (t.sphinxAt 0).queue.map (·.cache) == [[(w0 + 0x4000, 8, 0x77)]]) = true ∧
    after (exec (.maskWalk 0) (at_ f)) (fun t => (t.sphinxAt 0).queue.map (fun e => (e.stage, e.status)) == [(.ended, 0x0E)]) = true ∧
    after (exec (.maskWalk 0) (at_ d)) (fun t => (t.sphinxAt 0).queue.map (fun e => (e.stage, e.data, e.size, e.count)) ==
      [(.write, 2, 8, some 1)]) = true := by decide +kernel

/-- A transition to state 1 on the bytes 0x61 and 0x62 that acts at any top: it pushes symbol 1. -/
def pushing : Nat := 0x0001000105006261

theorem test_transition : TransWord image pushing 1 1 0 1 1 0x61 0x62 where
  fields := by decide
  clear := by decide
  bounds := by decide

/-- Every clause of the scan: the byte's range, each test, each act, each bound. -/
theorem test_automaton_steps : let c := fun (w : Nat) => ([(w0 + 0x4100, 8, w), (w0 + 0x4008, 8, 2 ^ 63)] : Cache)
    let q := fun (d : Nat) => ({ state := 0, depth := d, written := (List.range d).map fun k => (k, 1) } : Pda)
    let z := fun (w b d : Nat) => image.scan (c w) (w0 + 0x5000) (q d) b 1 0
    okIs (Cache.look (c pushing) (image.trans + .ofNat 64 (8 * 0)) 8) pushing = true ∧ okIs (image.entry (c pushing) 1) (true, 0, 0) = true ∧
    okIs (z pushing 0x63 0) .noMatch = true ∧ okIs (z pushing 0x61 2) .overflow = true ∧
    okIs (z pushing 0x62 1) (.goes { state := 1, depth := 2, written := [(1, 1), (0, 1)] } 1) = true ∧
    okIs (z 0x0001000106006261 0x61 1) .noMatch = true ∧ okIs (z 0x0001000104006261 0x61 0) .noMatch = true ∧
    okIs (z 0x0001000104006261 0x61 1) .noMatch = true ∧
    okIs (z 0x0001000100016261 0x61 1) (.goes { state := 1, depth := 1, written := [(0, 1)] } 1) = true ∧
    okIs (z 0x0001000109006261 0x61 0) .under = true ∧
    okIs (z 0x0001000109006261 0x61 1) (.goes { state := 1, depth := 0, written := [(0, 1)] } 0) = true ∧
    okIs (z 0x000100010D006261 0x61 1) (.goes { state := 1, depth := 1, written := [(0, 1), (0, 1)] } 0) = true := by decide +kernel

/-- Token 0 is the byte 0x61; the reads of its walk, with the transition given. -/
def walkOf (w : Nat) : List Vec := [0x0100000000000040, 0x61, 2 ^ 32, .ofNat 512 w, 2 ^ 63]

theorem test_tokens_advanced : let s := fun (w : Nat) => asks (maskBlock :: header_ :: walkOf w)
    let r := fun (w : Nat) => walked (image.advance (dw maskBlock 1) 0 0) (walkOf w) []
    (s pushing).Resumes (maskBlock :: header_ :: walkOf pushing) ∧ (s pushing).slot.open_ = false ∧ imageOf header_ = some image ∧
    blockInsts (dw maskBlock 4) = some (.dflt, .dflt) ∧ (dw maskBlock 4).toNat < 2 ^ 32 ∧ dw maskBlock 7 = 0 ∧
    image.accepts ((s pushing).g 3) = true ∧ ((s pushing).g 5).toNat ≤ image.ntokm ∧ ((s pushing).sphinxAt 0).queue = [] ∧
    (walkOf pushing).length < 1000 ∧ (s pushing).slot.prog.lanes = 0 ∧
    okIs (r pushing) (.goes { state := 1, depth := 1, written := [(0, 1)] } 0) = true ∧
    okIs (r 0x0001000101006261) (.goes { state := 1, depth := 0, written := [] } 0) = true ∧ okIs (r 0x0001000105006362) .rejected = true ∧
    okIs (r 0x0001000109006261) .stack = true ∧
    okIs ((s pushing).access (dw maskBlock 1 + .ofNat 64 0) 1 { w := true, n := true }) (.here ⟨0x5000, 0, false⟩) = true ∧
    after (exec (.padv 0 3 4 5) (s pushing)) (fun t => t.g 3 == 0x10001 && t.mem.byte 0x5000 == 1) = true ∧
    after (exec (.padv 0 3 4 5) (s 0x0001000101006261)) (fun t => t.g 3 == 1 && t.mem == (s pushing).mem) = true ∧
    after (exec (.padv 0 3 4 5) (s 0x0001000105006362)) (fun t => t.g 3 == .allOnes 64) = true ∧
    after (exec (.padv 0 3 4 5) (s 0x0001000109006261)) (fun t => t.slot.cause == 0x14) = true := by decide +kernel

/-- Two tokens with logits 1 and 2: with both legal, the first alone, and none, under each setting of the trap bit. -/
theorem test_tokens_chosen : let b := vecOf [w0 + 0x7000, w0 + 0x6000, 0x3F80000000000001, 5, 6, 0, 0, 0]
    let s := fun (mask : Vec) => asks [b, mask, 0x400000003F800000]
    let u := (s 0).setPartAt 0 { (s 0).partAt 0 with regs := { ((s 0).partAt 0).regs with msk := 1 } }
    (s 3).Resumes (b :: ([3] ++ [0x400000003F800000])) ∧ (s 3).slot.open_ = false ∧ (s 3).slot.prog.msk = none ∧
    (dw b 2).toNat % 2 ^ 20 + 1 = 2 ∧ (dw b 2).toNat / 2 ^ 20 % 2 ^ 12 = 0 ∧ dw b 5 = 0 ∧ dw b 6 = 0 ∧ dw b 7 = 0 ∧ (dw b 0).toNat % 64 = 0 ∧
    (dw b 1).toNat % 64 = 0 ∧ 1 = (partsOf (dw b 1) ((2 + 63) / 64 * 8)).length ∧ 1 = (partsOf (dw b 0) (4 * 2)).length ∧
    (legalTokens 2 3 0x400000003F800000).length = 2 ∧ legalTokens 2 0 0x400000003F800000 = [] ∧ u.part.regs.msk.getLsbD 0 = true ∧
    (s 0).part.regs.msk.getLsbD 0 = false ∧
    after (exec (.argmx 0 3 4 1) (s 3)) (fun t => t.g 3 == 1 && t.p 1) = true ∧
    after (exec (.argmx 0 3 4 1) (s 1)) (fun t => t.g 3 == 0 && t.p 1) = true ∧
    after (exec (.sample 0 3 4 1) (s 2)) (fun t => t.g 3 == 1 && t.p 1) = true ∧
    after (exec (.sample 0 3 4 1) (s 0)) (fun t => t.g 3 == 0xFFFFFFFF && !t.p 1) = true ∧
    after (exec (.argmx 0 3 4 1) u) (fun t => t.slot.cause == 0x13 && t.slot.tval == w0 + 0x80) = true := by decide +kernel

/-- T(0) and T(256), and draws at the first weight and one below it. -/
theorem test_draws : tableT 0 = 2 ^ 31 ∧ tableT 256 = 2 ^ 32 ∧ pickToken 2 [(4, 3), (5, 0), (6, 1)] 0 = 4 ∧
    pickToken 3 [(4, 3), (5, 0), (6, 1)] 0 = 6 := by decide +kernel

/-! ## Choice points -/

theorem test_points_open : let s := alone (thread [(4, w0 + 0x2000), (5, 3), (6, 257), (3, 33)])
    let full := alone { thread [(4, w0 + 0x2000), (5, 3)] with points := .replicate 64 { tab := 0, thf := 0, next := 1, naltm := 0, dreg := 0, prov := 0, wf := 0, loops := .replicate 4 0, trl := 0 } }
    let u := alone (resumedAll (thread [(4, w0 + 0x2000), (5, 3), (3, 33)]) [.ofNat 512 (w0 + 0x500).toNat, 0x55])
    s.Performs 0 0 true ∧ s.g 7 = 0 ∧ 256 < (s.g 6).toNat ∧ full.Performs 0 0 true ∧ 0 < (full.g 5).toNat ∧ (full.g 5).toNat ≤ 256 ∧
    64 ≤ full.slot.points.length ∧ u.Resumes [.ofNat 512 (w0 + 0x500).toNat, 0x55] ∧ u.slot.points.length < 64 ∧ (u.g 4).toNat % 8 = 0 ∧
    u.slot.arena = some ⟨w0 + 0x40000, 0x1000, 0x53⟩ ∧ (⟨w0 + 0x40000, 0x1000, 0x53⟩ : Seg).arenaOk = true ∧ u.slot.inh = false ∧ u.slot.trail.length < 256 ∧
    after (exec (.tryPoint 0 3 4 7) s) (fun t => t.slot.cause == 0x11 && t.slot.tval == 0) = true ∧
    after (exec (.tryPoint 0 3 4 6) s) (fun t => t.slot.cause == 0x11 && t.slot.tval == 257) = true ∧
    after (exec (.tryPoint 0 3 4 5) full) (fun t => t.slot.cause == 0x11 && t.slot.tval == 64) = true ∧
    after (exec (.tryPoint 0 3 4 5) u) (fun t => t.ctx.pc == w0 + 0x500 && t.g 3 == 0x55 && t.slot.trail == [⟨.greg 3, 33, none⟩] &&
      t.slot.points.map (fun q => (q.tab, q.next, q.naltm, q.dreg)) == [(w0 + 0x2000, 1, 2, 3)]) = true := by decide +kernel

/-- g3 has been written twice, p1 once and g9 in this window and in another since the point: the oldest entries decide, those of another
window apart. -/
theorem test_fails_back : let l : List Vec := [.ofNat 512 (w0 + 0x500).toNat, 0x55]
    let x := choosing (thread [(3, 6), (9, 9)])
    let es : List TrailEnt :=
      [⟨.greg 3, 5, none⟩, ⟨.pred 1, 1, none⟩, ⟨.greg 9, 8, some x.wf⟩, ⟨.greg 3, 4, none⟩, ⟨.greg 9, 7, some (x.wf - 64)⟩]
    let s := alone { x with trail := es, prog := { word := some 0, got := l } }
    let q : Point := { tab := w0, thf := 0, next := 1, naltm := 2, dreg := 0, prov := 0, wf := s.slot.wf, loops := s.ctx.loops, trl := 0 }
    s.Resumes l ∧ s.slot.points = [q] ∧ q.next ≤ q.naltm ∧ q.wf = s.slot.wf ∧ s.slot.inh = false ∧ s.slot.tail = [] ∧ s.slot.trail = es ++ [] ∧
    ([] : List TrailEnt).length = q.trl ∧ (s.provOf s.cur).length ≤ q.prov ∧ oldestOf q.wf es (.greg 3) = some 4 ∧
    oldestOf q.wf es (.greg 9) = some 8 ∧
    after (exec (.fail 0) s) (fun t => t.ctx.pc == w0 + 0x500 && t.g 3 == 4 && t.g 9 == 8 && t.p 1 && t.g 0 == 0x55 &&
      t.slot.points == [{ q with next := 2 }] && t.slot.trail == [⟨.greg 0, 0, none⟩]) = true := by decide +kernel

theorem test_fails_end : plain.MayEnd ∧ plain.slot.task = none ∧ after (exec (.fail 0) plain) (fun t => t.slot.run == .free) = true ∧
    (plain.undoEntry ⟨.arena (w0 + 0x40008) .h, 0x11234, none⟩).mem.read 0x40008 8 = 0x1234 := by decide +kernel

/-- Two points, the newer of which has a thief in slot 3. -/
theorem test_cuts : let q : Point := { tab := w0, thf := 0, next := 1, naltm := 2, dreg := 0, prov := 0, wf := 0, loops := .replicate 4 0, trl := 0 }
    let s := alone { thread [(4, 1), (5, 2)] with points := [{ q with thf := 8 }, q], trail := [⟨.greg 3, 5, none⟩] }
    s.Performs 0 0 false ∧ s.slot.prog.lost = none ∧ s.provOf s.cur = [] ∧ s.slot.points.length ≤ (s.g 5).toNat ∧
    (s.g 4).toNat < s.slot.points.length ∧
    after (exec (.cut 0 5) s) (fun t => t.slot.points.length == 2) = true ∧
    after (exec (.cut 0 4) s) (fun t => t.slot.points == [q] && t.slot.trail.length == 1 && t.net == [⟨0, .kill 3⟩]) = true ∧
    after (exec (.cut 0 7) s) (fun t => t.slot.points == [] && t.slot.trail == []) = true := by decide +kernel

theorem test_depth_and_commit : let s := alone (choosing (thread []))
    let b := alone { thread [] with bind := some (1, 0) }
    let st : Store := { va := w2 + 0x40, pl := at2 0x40, n := 4, x := 9, mask := .allOnes 64, v := 1, ord := 0, slip := false }
    let e := s.setCoreAt 0 { s.coreAt 0 with prov := [⟨0, 0, st, false⟩] }
    s.Performs 0 0 false ∧ s.TrailRoom ∧ s.slot.prog.lost = none ∧ b.slot.bind ≠ none ∧ b.Performs 0 0 false ∧ s.slot.bind = none ∧ s.provOf s.cur = [] ∧
    e.provOf e.cur = [⟨0, 0, st, false⟩] ∧ okIs (checkSeg e.slot st.va st.n { w := true, i := true }) () = true ∧ okIs (e.locate e.coreIdx 0 st.va st.n 3) (.here (at2 0x40)) = true ∧
    after (exec (.cpd 0 3) s) (fun t => t.g 3 == 1) = true ∧
    after (exec (.commit 0) b) (fun t => t.slot.cause == 0x12) = true ∧
    after (exec (.commit 0) s) (fun t => t.ctx.pc == w0 + 0x104) = true ∧
    after (exec (.commit 0) e) (fun t => t.slot.run == .waiting .sending && t.net == [⟨0, .store (.entry 0) st⟩]) = true := by decide +kernel

/-- The thief in slot 0, whose arena of 64 bytes lies at 0x42000, and a victim in slot 1 with a byte in its arena. -/
def thief (l : List (Nat × Word)) : Slot := { thread l with seg := segs.set 3 ⟨w0 + 0x42000, 64, 0x53⟩ }

def stealing (x : Slot) : State :=
  holding (many [(0, x), (1, { choosing (thread [(3, 33), (14, w0 + 0x40800)]) with seg := segs.set 3 ⟨w0 + 0x40000, 64, 0x53⟩ })]) 0x40010 1 0x77

theorem test_steals : let l : List Vec := [.ofNat 512 (w0 + 0x500).toNat, 0x55]
    let s := stealing (thief [(4, 0xFFFC)])
    let u := stealing { thief [(4, 2)] with prog := { word := some 0, got := l, theft := some (1, 0) } }
    let own : Seg := ⟨w0 + 0x42000, 64, 0x53⟩
    let vs : Seg := ⟨w0 + 0x40000, 64, 0x53⟩
    s.slot.open_ = false ∧ s.slot.arena = some own ∧ own.arenaOk = true ∧ s.stealing = false ∧ s.Performs 0 0 true ∧ s.slot.prog.theft = none ∧
    s.victim (s.g 4).toNat own.limit = none ∧ u.Resumes l ∧ u.slot.arena = some own ∧ u.stealing = false ∧ u.slot.open_ = false ∧
    (u.slotAt 1).points.length = 1 ∧ (u.slotAt 1).arena = some vs ∧ vs.limit = own.limit ∧ u.slot.inh = false ∧ u.slot.points = [] ∧
    (u.slotAt 1).points.map (·.wf) = [(u.slotAt 1).wf] ∧ (u.slotAt 1).points.map (·.trl) = [(u.slotAt 1).trailCount] ∧
    (List.range (own.limit.toNat / 2)).all (fun j => localPhys u.coreIdx (own.base + .ofNat 64 j) == localPhys u.coreIdx own.base + j) = true ∧
    (List.range (vs.limit.toNat / 2 / 16)).all (fun j => !u.badAt (localPhys u.coreIdx vs.base + 16 * j)) = true ∧
    (List.range (vs.limit.toNat / 2 / 16)).all (fun j => !u.badAt (localPhys u.coreIdx own.base + 16 * j)) = true ∧
    after (exec (.steal 0 1 4) s) (fun t => !t.p 1 && t.ctx.pc == w0 + 0x104) = true ∧
    after (exec (.steal 0 1 4) u) (fun t => t.ctx.pc == w0 + 0x500 && t.slot.bind == some (1, 0) && t.g 3 == 33 && t.g 0 == 0x55 &&
      t.g 14 == w0 + 0x42800 && t.mem.byte 0x42010 == 0x77 && (t.slotAt 1).points.map (fun q => (q.next, q.thf)) == [(2, 1)]) = true := by
  decide +kernel

/-- Slot 1 may issue; it may not yet; it is on its way with a word; and its only point has no alternative left. -/
theorem test_victims_found : let u := stealing (thief [(4, 2)])
    let late := u.setSlotAt 1 { u.slotAt 1 with ready := 5 }
    let busy := u.setSlotAt 1 { u.slotAt 1 with prog := { word := some 0x07610001 } }
    let spent := u.setSlotAt 1 { u.slotAt 1 with points := (u.slotAt 1).points.map fun q => { q with next := 3 } }
    u.victim 2 64 = some (1, 0) ∧ late.victim 2 64 = none ∧ busy.victim 2 64 = none ∧ spent.victim 2 64 = none ∧ u.victim 2 128 = none := by
  decide +kernel

/-- Of a slot that is bound to none; in a list; in a wait for a reply, whose request is forgotten; and runnable. -/
theorem test_thieves_end : let s := fun (b : Body) (r : Run) (x : Option (Nat × Nat)) => flying (alone { choosing (thread []) with bind := x, run := r }) b
    let w := s (.kill 0) (.waiting .reply) (some (1, 0))
    let v := { w with net := w.net ++ [⟨0, .request 0 (.handle (tensor .f32))⟩] }
    (s (.kill 0) .runnable none).net[0]? = some ⟨0, .kill 0⟩ ∧ (w.slotAt 0).run = .waiting .reply ∧
    ((s (.kill 0) (.waiting .list) (some (1, 0))).slotAt 0).run = .waiting .list ∧
    ((s (.kill 0) .runnable (some (1, 0))).slotAt 0).bind = some (1, 0) ∧ (s (.release 0) (.waiting .bound) (some (1, 0))).net[0]? = some ⟨0, .release 0⟩ ∧
    after (exec (.killMessage 0) (s (.kill 0) .runnable none)) (fun t => t.net == [] && t.slot.points.length == 1) = true ∧
    after (exec (.killMessage 0) (s (.kill 0) (.waiting .list) (some (1, 0)))) (fun t => t.net.length == 1) = true ∧
    after (exec (.killMessage 0) v) (fun t => t.slot.run == .runnable && t.slot.prog.word == encodeWord (.exit 0) && t.net == []) = true ∧
    after (exec (.killMessage 0) (s (.kill 0) .runnable (some (1, 0)))) (fun t => t.slot.points == [] && t.slot.prog.word == encodeWord (.exit 0)) =
      true ∧
    after (exec (.thiefRelease 0) (s (.release 0) (.waiting .bound) (some (1, 0)))) (fun t => t.slot.bind == none && t.slot.run == .runnable) =
      true := by decide +kernel

/-! ## Replicas -/

/-- Experts 0 to 3 with a table at the first line of W2 and areas of 128 KiB at W3, one on each die. -/
def expert (s : State) : State :=
  s.setPartAt 0 { s.partAt 0 with regs := { (s.partAt 0).regs with mncfg := 0x30FFFF0000, mntab := w2, mnarea := w3, mngeo := 0x200010004 } }

/-- Expert 0's entry: its home replica on die 0 and another on die 2 in slot 2. -/
def entry_ : Vec := vecOf [0x8000010000000000, 0, 0xA000010000040000]

/-- A thread of privilege 1. -/
def super (x : Slot) : Slot := { x with ctx := { x.ctx with mode := modeByte 0 false false true 1 } }

def placed (x : Slot) : State := holding (expert (alone x)) (2 ^ 40) 64 entry_.toNat

theorem test_counts_posted : let s := expert (alone (thread [(4, 3), (5, 0x500000007), (6, 4)]))
    let u := flying (s.setMonarch 0 { s.monarch 0 with counts := [(3, 0xFFFFFFFE)] }) (.ecnt 3 7)
    s.Performs 0 0 false ∧ s.slot.open_ = false ∧ (s.g 4).toNat ≤ mnNexpm s.part.regs.mncfg ∧ u.net[0]? = some ⟨0, .ecnt 3 7⟩ ∧
    mnNexpm s.part.regs.mncfg < (s.g 6).toNat ∧ (expert (alone (super (thread [(6, 4)])))).Performs 0 1 true ∧
    after (exec (.ecnt 0 4 5) s) (fun t => t.net == [⟨0, .ecnt 3 7⟩]) = true ∧
    after (exec (.ecntUpdate 0) u) (fun t => (t.monarch 0).counts == [(3, 0xFFFFFFFF)]) = true ∧
    after (exec (.ecnt 0 6 5) s) (fun t => t.slot.cause == 0x15 && t.slot.tval == 4) = true ∧
    after (exec (.rret 0 6 5) (expert (alone (super (thread [(6, 4)]))))) (fun t => t.slot.cause == 0x15) = true := by decide +kernel

/-- Key 3 picks the second of two replicas; an empty entry is stale. -/
theorem test_replicas_found : let s := placed (thread [(5, 3)])
    let u := expert (alone (thread [(5, 3)]))
    s.Performs 0 0 false ∧ s.TrailRoom ∧ (s.g 4).toNat ≤ mnNexpm s.part.regs.mncfg ∧
    okIs (s.access (s.part.regs.entryAt 0) 64 { r := true, i := true }) (.here (at2 0)) = true ∧ s.badAt (2 ^ 40) = false ∧
    s.ctx.rel.toNat ≤ s.part.now.toNat ∧ s.floor 0 0 (2 ^ 40 / 64) ≤ s.ctx.rel.toNat ∧ s.lineAt 0 0 (2 ^ 40 / 64) 0 = entry_.toNat ∧
    entLive entry_ 0 = true ∧ entLive 0 0 = false ∧ u.lineAt 0 0 (2 ^ 40 / 64) 0 = (0 : Vec).toNat ∧
    after (exec (.rlook 0 3 4 5) s) (fun t => t.g 3 == 0x1FFF010000040000) = true ∧
    after (exec (.rlook 0 3 4 5) u) (fun t => t.slot.cause == 0x15) = true := by decide +kernel

theorem test_entries_published : let s := placed (resumed (thread []) entry_)
    let u := placed (super (thread [(5, 2)]))
    s.slot.open_ = false ∧ (s.g 4).toNat ≤ mnNexpm s.part.regs.mncfg ∧ (s.monarch 0).marked 0 = false ∧ s.ctx.seqNo ≠ 0xFFFF ∧
    okIs (s.monarchPlace 0 (s.part.regs.entryAt 0)) (at2 0) = true ∧ s.Resumes [entry_] ∧ imageOk entry_ = true ∧ u.Performs 0 1 true ∧
    okIs (u.entry 0 0 u.part.now) entry_ = true ∧ entLive entry_ (u.g 5).toNat = true ∧
    after (exec (.rpub 0 4 5) s) (fun t => t.net.length == 1 && (t.monarch 0).marked 0 && t.slot.run == .waiting .reply) = true ∧
    after (exec (.rret 0 4 5) u) (fun t => t.net.map (fun p => match p.body with
      | .store _ st => st.x
      | _ => 0) == [vecOf [0x8001010000000000, 0, 0x2000010000040000]] && (t.monarch 0).marked 0) = true := by decide +kernel

/-- A copy to die 1 for instant 5. -/
theorem test_copies_begun : let b := vecOf [0, 1, 5, 0, 0x11, 0x22, 0, 0]
    let s := placed (resumed (super (thread [])) b)
    let full := { s with copies := .replicate 8 (command (.rmerge 0 0)) }
    s.Resumes [b] ∧ s.slot.open_ = false ∧ (dw b 0).toNat = 0 ∧ (dw b 1).toNat = 1 + 2 ^ 8 * 0 ∧ dw b 2 = (5 : Instant).setWidth 64 ∧
    InstField.ofCode ((dw b 3).toNat / 2 ^ 16 % 2 ^ 16) = some .dflt ∧ 0 ≤ mnNexpm s.part.regs.mncfg ∧ (s.monarch 0).marked 0 = false ∧
    okIs (s.entry 0 0 s.part.now) entry_ = true ∧ (entSlots entry_).length < 8 ∧ s.dieOn 1 = true ∧
    (∀ k ∈ entSlots entry_, entDie entry_ k ≠ 1) ∧ 0 ≤ mnNareaM s.part.regs.mngeo ∧ (s.monarch 0).free 1 0 = true ∧ s.part.now.toNat < 5 ∧
    s.ctx.seqNo ≠ 0xFFFF ∧ s.copies.length < 8 ∧ 8 ≤ full.copies.length ∧
    after (exec (.rcopy 0 1 4) s) (fun t => t.p 1 && t.copies.map (fun c => (c.vsi, c.work)) ==
      [(5, .rcopy 0 1 1 (some 0) (w3 + 0x20000) w3 0x10000)] && !(t.monarch 0).free 1 0) = true ∧
    after (exec (.rcopy 0 1 4) full) (fun t => !t.p 1 && t.copies.length == 8) = true := by decide +kernel

/-- A line sent; the entry published; the copy too late; and the copy ended. -/
theorem test_copies_made : let c : Cmd := { command (.rcopy 0 1 0 (some 0) w3 w2 65536) with unit := 2, seg := none, vsi := 5, stage := .write, entry := w2 }
    let s := { holding (expert (alone (thread []))) (2 ^ 40) 64 0x77 with copies := [c] }
    let late := nowAt s 5
    let e := { c with stage := .ended }
    let u := { s with copies := [e] }
    let p := { c with pos := 65536 }
    let v := { s with copies := [p] }
    let y := { late with dev := { late.dev with deadChans := (List.range 256).map fun n => (0, n) }, copies := [{ c with work := .rcopy 0 1 1 (some 0) w3 w2 65536 }] }
    s.copies[0]? = some c ∧ late.copies[0]? = some c ∧ c.vsi.toNat ≤ (late.partAt 0).now.toNat ∧ c.review = none ∧ (s.partAt 0).now.toNat < c.vsi.toNat ∧
    y.dev.hamode.getLsbD 4 = false ∧ y.entryCut { c with work := .rcopy 0 1 1 (some 0) w3 w2 65536 } = true ∧ late.entryCut c = false ∧ s.cmdReady c = true ∧ v.cmdReady p = true ∧ c.miss = 0 ∧ c.pos < 65536 ∧ c.got = none ∧ c.out = 0 ∧
    okIs (s.cmdPlace c (w2 + .ofNat 64 0) 64 false) (.here (at2 0)) = true ∧ okIs (v.cmdPlace p p.entry 64 true) (.here (at2 0)) = true ∧
    c.rdi.toNat ≤ (s.partAt 0).now.toNat ∧ okIs (s.versionAt 0 (w2 + .ofNat 64 0) (at2 0) 64 c.rdi) 0x77 = true ∧
    okIs (s.cmdPlace c (w3 + .ofNat 64 0) 64 true) (.here (at3 0)) = true ∧ (at3 0).home / 256 = 0 ∧ u.owes 0 = false ∧ u.running 0 = true ∧
    after (exec (.rcopyExecute 0) s) (fun t => t.copies.map (·.pos) == [64] && t.net.length == 1) = true ∧
    after (exec (.rcopyExecute 0) v) (fun t => t.copies.map (fun x => (x.stage, x.published)) == [(.join, true)] && t.net.map (fun p => match p.body with
      | .store (.publish none 0) st => st.x
      | _ => 0) == [vecOf [0x0001000000000077, 0x8000010000000000]]) = true ∧
    after (exec (.rcopyExecute 0) late) (fun t => t.copies.map (fun x => (x.stage, x.status)) == [(.ended, 0x08)]) = true ∧
    after (exec (.rcopyExecute 0) y) (fun t => t.copies.map (fun x => (x.stage, x.status)) == [(.ended, 0x16)]) = true ∧
    after (exec (.rcopyExecute 0) u) (fun t => t.copies == [] && t.net.length == 1) = true := by decide +kernel

theorem test_merges_accepted : let b := vecOf [0, 16384, 0, 0x11, 0x22, 0, 0, 0]
    let s := placed (resumed (thread []) b)
    let full := { s with merges := .replicate 64 (command (.rmerge 0 0)) }
    s.Resumes [b] ∧ s.slot.open_ = false ∧ blockInsts (dw b 2) = some (.dflt, .dflt) ∧
    (dw b 1).toNat ≤ (mnAsz s.part.regs.mngeo - mnWsz s.part.regs.mngeo) * 16384 ∧ s.ctx.seqNo ≠ 0xFFFF ∧ s.queueRoom s.merges ∧ ¬ full.queueRoom full.merges ∧
    after (exec (.rmerge 0 1 4) s) (fun t => t.p 1 && t.merges.map (·.work) == [.rmerge 0 16384]) = true ∧
    after (exec (.rmerge 0 1 4) full) (fun t => !t.p 1 && t.merges.length == 64) = true := by decide +kernel

/-- 1 on die 0 and 2 on die 2 give 3. -/
theorem test_merges_made : let c : Cmd := { command (.rmerge 0 1) with
      seg := none, stage := .write, data := entry_.toNat, wsz := 1
      cache := [(w3 + 0x10000, 4, 0x3F800000), (w3 + 0x50000, 4, 0x40000000)] }
    let s := { expert (alone (thread [])) with merges := [c] }
    s.cmdReady c = true ∧
    ((List.range 8).flatMap fun d => (entSlots (.ofNat 512 c.data)).filter fun n => entDie (.ofNat 512 c.data) n == d) = [0, 2] ∧
    [0, 2].map (fun n => ownWord ((entAddr (.ofNat 512 c.data) n + c.wsz * 65536) % 2 ^ 48)) = [w3 + 0x10000, w3 + 0x50000] ∧
    okIs (s.cmdPlace c (w3 + 0x10000) 4 true) (.here (at3 0x10000)) = true ∧
    after (exec (.rmergeExecute 0) s) (fun t => t.merges.map (·.stage) == [.ended] && t.net.map (fun p => match p.body with
      | .store _ st => st.x
      | _ => 0) == [0x40400000]) = true := by decide +kernel

theorem test_records_taken : let e := alone (super (thread [(4, w0 + 0x2000)]))
    let r := 0x2000000000000005 + 2 ^ 64 * 9
    let s := e.setMonarch 0 { e.monarch 0 with records := [r, 1], ovf := true }
    let t := (s.counted.takeRecord r).nowWrite 0 0x2000 8 (r % 2 ^ 64) (some 0) none
    e.Performs 0 1 true ∧ e.slot.open_ = false ∧ (e.monarch 0).records = [] ∧ (s.monarch 0).records = [r, 1] ∧ s.slot.prog.lanes = 0 ∧ s.slot.prog.got = [] ∧ s.badAt 0x2000 = false ∧ t.badAt 0x2008 = false ∧ r < 2 ^ 128 ∧
    okIs (s.access (s.g 4) 8 { w := true, n := true }) (.here ⟨0x2000, 0, false⟩) = true ∧
    okIs (s.access (s.g 4 + 8) 8 { w := true, n := true }) (.here ⟨0x2008, 0, false⟩) = true ∧
    okIs (t.access (s.g 4 + 8) 8 { w := true, n := true }) (.here ⟨0x2008, 0, false⟩) = true ∧
    after (exec (.rstat 0 3 4) e) (fun t => t.g 3 == .allOnes 64) = true ∧
    after (exec (.rstat 0 3 4) s) (fun t => t.g 3 == 0x8000000000000001 && t.mem.read 0x2000 16 == r && (t.monarch 0).records == [1]) = true := by
  decide +kernel

/-- A STEAL in slot 3 is at work; and one there waits that was issued before. -/
theorem test_steals_wait : let e := stealing (thief [(4, 2)])
    let s := e.setSlotAt 3 { thread [] with prog := { word := encodeWord (.steal 0 1 4), theft := some (1, 0) } }
    let u := e.setSlotAt 3 { thread [] with prog := { word := encodeWord (.steal 0 1 4), since := some 5 } }
    s.stealing = true ∧ s.Performs 0 0 true ∧ s.slot.open_ = false ∧ u.stealing = true ∧ u.Performs 0 0 true ∧
    after (exec (.steal 0 1 4) s) (fun t => t.slot.prog.word == encodeWord (.steal 0 1 4) && t.slot.prog.theft == none && t.ctx == s.ctx) = true ∧
    after (exec (.steal 0 1 4) u) (fun t => t.slot.prog.theft == none && t.ctx == u.ctx) = true := by decide +kernel

/-! ## System instructions and clocks -/

/-- A thread at device privilege. -/
def device (x : Slot) : Slot := { x with ctx := { x.ctx with mode := modeByte 0 false false true 2 } }

theorem test_traps_taken : let s := alone { thread [(4, 7)] with ctx := { (thread [(4, 7)]).ctx with loops := #v[1, 2, 3, 4], mode := 12 } }
    let u := alone { thread [] with status := 2 }
    let n := plain.setPartAt 0 { plain.partAt 0 with regs := {} }
    s.slot.inh = false ∧ s.part.regs.tvec ≠ 0 ∧ u.slot.inh = true ∧ n.slot.inh = false ∧ n.part.regs.tvec = 0 ∧
    (let t := s.trap 0x20 9; t.slot.epc = w0 + 0x100 ∧ t.slot.tval = 9 ∧ t.slot.pmode = 12 ∧ t.slot.skip = true ∧ t.slot.aside = #v[1, 2, 3, 4] ∧
      t.ctx.pc = w0 + 0x800 ∧ t.ctx.priv = 1 ∧ t.ctx.pol = true ∧ t.g 4 = 7 ∧ t.ctx.loops = .replicate 4 0) ∧
    (s.trap 0x05 9).slot.skip = false ∧
    (let t := u.trap 5 9; t.slot.run = .dropped none ∧ (t.portAt 0).faults.map (fun e => (e.va, e.kind)) = [(w0 + 0x100, 7)]) ∧
    (n.trap 5 9).slot.cause = 5 ∧ (n.trap 5 9).slot.run = .dropped none := by decide +kernel

theorem test_software_traps : plain.Performs 0 0 false ∧
    after (exec (.trap 0 0x1FFF) plain) (fun t => t.slot.cause == 0x20 && t.slot.tval == 0x1FFF && t.slot.epc == w0 + 0x100 && t.ctx.pc == w0 + 0x800) = true ∧
    after (exec (.brk 0 5) plain) (fun t => t.slot.cause == 0x21 && t.slot.tval == 5) = true := by decide +kernel

theorem test_exception_returns : let s := fun (k : Word) => alone { super (thread []) with status := 0xC02 + k, epc := w0 + 0x200, aside := #v[1, 2, 3, 4] }
    (s 0).Performs 0 1 false ∧ (s 0).slot.skip = false ∧ (s 4).Performs 0 1 false ∧ (s 4).slot.skip = true ∧
    after (exec (.eret 0) (s 0)) (fun t => t.ctx.pc == w0 + 0x200 && t.ctx.priv == 0 && t.ctx.pol && t.ctx.anch && !t.slot.inh &&
      t.ctx.loops == #v[1, 2, 3, 4]) = true ∧
    after (exec (.eret 0) (s 4)) (fun t => t.ctx.pc == w0 + 0x204 && !t.slot.skip) = true := by decide +kernel

theorem test_registers_read : let s := nowAt plain 7
    s.Performs 0 0 false ∧ s.TrailRoom ∧ regLevel 5 = some (0, none) ∧ threadReg s 5 = some 7 ∧ regLevel 0x20 = some (1, some 1) ∧ s.ctx.priv < 1 ∧
    regLevel 0xC = none ∧ s.slot.prog.word = none ∧ after (exec (.mfsr 0 3 5) s) (fun t => t.g 3 == 7) = true ∧
    after (exec (.mfsr 0 3 0x20) s) (fun t => t.slot.cause == 2) = true ∧ after (exec (.mfsr 0 3 0xC) s) (fun t => t.slot.cause == 1) = true := by
  decide +kernel

theorem test_registers_written : let s := alone (super (thread [(4, 0xFFFF000000000123)]))
    s.Performs 0 1 false ∧ regLevel 2 = some (0, some 1) ∧ threadWidth 2 = some 48 ∧ regLevel 0 = some (0, none) ∧
    s.Performs 0 0 false ∧ regLevel 0xC = none ∧ plain.slot.prog.word = none ∧ plain.ctx.priv < 1 ∧
    after (exec (.mtsr 0 4 2) s) (fun t => t.ctx.ord == 0x123 && t.ctx.pc == w0 + 0x104) = true ∧
    after (exec (.mtsr 0 4 0) s) (fun t => t.ctx.rel == 0) = true ∧ after (exec (.mtsr 0 4 2) plain) (fun t => t.slot.cause == 2) = true ∧
    after (exec (.mtsr 0 4 0xC) s) (fun t => t.slot.cause == 1) = true := by decide +kernel

theorem test_partition_registers_written : let s := alone (super (thread [(4, 3), (5, 5)]))
    let u := s.setPartAt 0 { s.partAt 0 with queue := [(0, 0)] }
    s.Performs 0 1 false ∧ regValue 0x21 (s.g 5) = none ∧ regValue 0x21 (s.g 4) = some 3 ∧ s.part.regs.reccfg.toNat % 2 = 0 ∧
    s.idlePart s.slot.part = true ∧ s.part.writes = [] ∧ u.Performs 0 1 false ∧ u.part.regs.reccfg.toNat % 2 = 0 ∧ u.idlePart u.slot.part = false ∧
    after (exec (.mtsr 0 5 0x21) s) (fun t => t.slot.cause == 1) = true ∧ after (exec (.mtsr 0 4 0x21) s) (fun t => t.part.regs.rmode == 3) = true ∧
    after (exec (.mtsr 0 4 0x28) (alone (super (thread [(4, 0x8000000000040055)])))) (fun t => t.partReg 0 0x28 == some 0x8000000000040000) = true ∧
    after (exec (.mtsr 0 4 0x21) u) (fun t => t.part.regs.rmode == 0 && t.part.writes == [(0x21, 0, 3)]) = true := by decide +kernel

theorem test_writes_effective : effective [(0x20, 3, 1), (0x20, 2048, 0), (0x20, 2048, 1), (0x20, 5, 0), (0x21, 1, 4)] = [(0x20, 1), (0x21, 4)] := by decide

/-- The entry of s1: base, limit and rights. -/
def entry1 : Nat := 2 ^ 64 * w2.toNat + 2 ^ 16 * 0x200000 + 0x0B

theorem test_segment_entries : segOf entry1 = some ⟨w2, 0x200000, 0x0B⟩ ∧ entry1 / 2 ^ 16 % 2 ^ 48 ≠ 0 ∧ segOf (entry1 + 16) = none ∧
    segOf (2 ^ 64 * w2.toNat + 0x0B) = some {} := by decide +kernel

def tabled (u : State) (r : Word) : State := u.setPartAt 0 { u.partAt 0 with regs := { (u.partAt 0).regs with segtb := r } }

theorem test_segments_loaded : let s := fun (e : Nat) (r : Word) => tabled (holding (alone (thread [(4, 2), (5, 256)])) 0x2020 16 e) r
    let t := s entry1 (w0 + 0x2000)
    t.Performs 0 0 false ∧ t.slot.open_ = false ∧ t.slot.prog.got = [] ∧ 255 < (t.g 5).toNat ∧ (t.g 4).toNat ≤ 255 ∧ t.part.regs.segtb ≠ 0 ∧
    okIs (t.locate t.coreIdx t.slot.part (t.part.regs.segtb + 16 * t.g 4) 16 0) (.here ⟨0x2020, 0, false⟩) = true ∧
    okIs (t.readAt (t.part.regs.segtb + 16 * t.g 4) ⟨0x2020, 0, false⟩ 16) entry1 = true ∧ segOf entry1 = some ⟨w2, 0x200000, 0x0B⟩ ∧
    segOf (entry1 + 16) = none ∧
    after (exec (.segld 0 6 4) t) (fun u => u.slot.seg[6] == ⟨w2, 0x200000, 0x0B⟩ && u.ctx.sel[6] == 2) = true ∧
    after (exec (.segld 0 6 5) t) (fun u => u.slot.cause == 3 && u.slot.tval == 256) = true ∧
    after (exec (.segld 0 1 4) (s entry1 0)) (fun u => u.slot.seg[1] == {} && u.ctx.sel[1] == 2) = true ∧
    after (exec (.segld 0 6 4) (s (entry1 + 16) (w0 + 0x2000))) (fun u => u.slot.cause == 4 && u.slot.tval == 2) = true := by decide +kernel

/-- Two lines of two regions in a router's buffer. -/
theorem test_pages_invalidated : let s := alone (super (thread [(4, w2 + 0x200040), (5, w1)]))
    let u := s.setPortAt 3 { s.portAt 3 with remote := [⟨0, w2 + 0x200000, 77, 1⟩, ⟨0, w2 + 0x40, 78, 2⟩] }
    u.Performs 0 1 false ∧ u.slot.prog.drained = false ∧ u.onDevice (u.g 4) = true ∧ (u.g 4).toNat < 2 ^ 61 ∧ winOf (localAddr (u.g 4)) = some .w2 ∧
    u.slot.unacked = 0 ∧ (∀ r ∈ u.scopeRouters u.cluster .dev, u.owes r = false) ∧ winOf (localAddr (u.g 5)) = some .w1 ∧
    after (exec (.pginv 0 4) u) (fun t => (t.portAt 3).remote == [⟨0, w2 + 0x40, 78, 2⟩]) = true ∧
    after (exec (.pginv 0 5) u) (fun t => t.slot.cause == 3) = true := by decide +kernel

theorem test_idles : let s := alone (super (thread []))
    s.Performs 0 1 false ∧ after (exec (.idle 0) s) (fun t => t.slot.run == .waiting .idle && t.ctx == s.ctx) = true := by decide +kernel

/-- A false guard hides neither an unassigned number nor a register above the thread. -/
theorem test_register_checks_first : let s := alone (thread [])
    guardHolds 2 s = false ∧ after (exec (.mfsr 2 3 0xC) s) (fun t => t.slot.cause == 1) = true ∧
    after (exec (.mtsr 2 4 0x20) s) (fun t => t.slot.cause == 2) = true := by decide +kernel

/-- A completion for the thread's task that enters the inbox of core 5, a kill and a stop. -/
theorem test_idle_wakes : let x : Slot := { thread [] with run := .waiting .idle, cmds := [7] }
    let m := vecOf [0x11, 0x2000000000000000]
    let s := flying (alone x) (.message w1 5 false m (.completed 0 7))
    let k := flying (alone { x with bind := some (1, 0) }) (.kill 0)
    let e := alone x
    let u := e.setPartAt 0 { e.partAt 0 with regs := { (e.partAt 0).regs with stopcnt := 2 ^ 62 } }
    (s.slotAt 0).run = .waiting .idle ∧ s.net[0]? = some ⟨0, .message w1 5 false m (.completed 0 7)⟩ ∧ s.running 0 = true ∧ (s.coreAt 5).retry = [] ∧
    holdsOf 0 (s.coreAt 5).low < s.share64 ∧ 0 ∈ s.slots.map (·.1) ∧ 7 ∈ (s.slotAt 0).cmds ∧
    k.net[0]? = some ⟨0, .kill 0⟩ ∧ (k.slotAt 0).bind = some (1, 0) ∧
    pdefV (u.pdefOf 0) = true ∧ u.stopState 0 = 1 ∧ (u.partAt 0).stopping = false ∧ (u.partAt 0).regs.stopcnt.toNat % 2 ^ 56 ≤ u.refcnt ∧
    after (exec (.messageDelivery 0) s) (fun t => t.slot.run == .runnable && t.slot.prog == {} && t.ctx.pc == w0 + 0x104) = true ∧
    after (exec (.killMessage 0) k) (fun t => t.slot.run == .runnable && t.slot.prog == { word := encodeWord (.exit 0) }) = true ∧
    after (exec (.partitionStop 0) u) (fun t => t.slot.run == .runnable && t.slot.prog == {} && t.ctx.pc == w0 + 0x104) = true := by decide +kernel

/-- Peer 9 is reached on channel 33 of port 5. -/
theorem test_circuits_asked : let s := alone (super (thread [(4, 9 + 2 ^ 41), (5, 0xC000000000000000), (6, 10), (7, 2 ^ 62 + 5 * 2 ^ 48 + 2 ^ 40)]))
    let u := { s with dev := { s.dev with reach := [(9, 0x80050021)] } }
    let full := u.setOptic 5 { queue := .replicate 16 { op := .wakeAll } }
    u.Performs 0 1 false ∧ u.slot.open_ = false ∧ circOf u (u.g 4) = some (5, .tune 2 33) ∧ (u.optic 5).queue.length < 16 ∧
    circOf u (u.g 7) = some (5, .park 1) ∧ circOf full (full.g 4) = some (5, .tune 2 33) ∧ 16 ≤ (full.optic 5).queue.length ∧
    (u.g 5).toNat / 2 ^ 62 = 3 ∧ (u.g 6).toNat / 2 ^ 13 = 0 ∧ (Table.get 0 u.dev.reach (u.g 6).toNat).getLsbD 31 = false ∧
    after (exec (.circ 0 1 4) u) (fun t => t.p 1 && (t.optic 5).queue == [{ op := .tune 2 33, word := u.g 4, owner := some (0, 0, 0), stamp := 0 }]) = true ∧
    after (exec (.circ 0 1 4) full) (fun t => !t.p 1 && (t.optic 5).queue.length == 16) = true ∧
    after (exec (.circ 0 1 5) u) (fun t => t.slot.cause == 1) = true ∧
    after (exec (.circ 0 1 6) u) (fun t => t.slot.cause == 0x18 && t.slot.tval == 10) = true := by decide +kernel

/-- Save areas from the second half of the first 2 MiB of W3 on; slot 1's lies at the second place. -/
def saving (l : Table Slot) : State :=
  let s := many l
  s.setPartAt 0 { s.partAt 0 with regs := { (s.partAt 0).regs with ctxb := w3 + 0x100000 } }

def area1 : Nat := 2 ^ 41 + 0x304000

theorem test_slots_saved : let s := saving [(0, super (thread [(4, 1), (5, 2)])), (1, thread [(3, 33)])]
    let w := saving [(0, super (thread [(4, 1), (5, 2)])), (1, { thread [(3, 33)] with run := .waiting .idle })]
    s.Performs 0 1 false ∧ s.slot.open_ = false ∧ 1 = s.coreIdx * 16 + (s.g 4).toNat % 16 ∧ 1 ≠ s.cur ∧
    (pdefSlots (s.pdefOf s.slot.part)).getLsbD ((s.g 4).toNat % 16) = true ∧ s.part.regs.ctxb ≠ 0 ∧ s.mem.wf = true ∧ (s.slotAt 1).run = .runnable ∧
    s.atBoundary 1 = true ∧ (s.slotAt 1).part = s.slot.part ∧ okIs (s.areaAt s.slot.part 1) ⟨area1, 4, false⟩ = true ∧
    (s.slotAt 1).points.length ≤ 64 ∧ (s.slotAt 1).trail.length ≤ 256 ∧ (s.slotAt 1).windows.length ≤ 4 ∧ (s.provOf 1).length ≤ 64 ∧
    2 = s.coreIdx * 16 + (s.g 5).toNat % 16 ∧ (s.slotAt 2).run = .free ∧
    after (exec (.slotsv 0 3 4) w) (fun t => t.g 3 == 1 && (t.slotAt 1).run == .free) = true ∧ w.atBoundary 1 = true ∧ after (exec (.slotsv 0 3 5) s) (fun t => t.g 3 == 0) = true := by decide +kernel

/-- The pieces of the image that R385 lists, and what is left of the slot. -/
theorem test_slot_saved : let s := saving [(0, super (thread [(4, 1)])), (1, thread [(3, 33)])]
    (∀ i ∈ [(24, 8, 33), (0x80, 8, (w0 + 0x100).toNat), (0xC2, 1, 1), (0x648, 56, 0)], i ∈ s.imageOf 1) ∧
    after (exec (.slotsv 0 3 4) s) (fun t => t.g 3 == 1 && (t.slotAt 1).run == .free) = true := by decide +kernel

theorem test_slots_loaded : let s := saving [(0, super (thread [(4, 1), (5, 2)])), (2, thread [])]
    let u := holding (holding s (area1 + 24) 8 33) (area1 + 0xC2) 1 1
    s.Performs 0 1 false ∧ u.Performs 0 1 false ∧ s.slot.open_ = false ∧ u.slot.open_ = false ∧ 1 = u.coreIdx * 16 + (u.g 4).toNat % 16 ∧ 1 ≠ u.cur ∧
    (pdefSlots (u.pdefOf u.slot.part)).getLsbD ((u.g 4).toNat % 16) = true ∧ (u.slotAt 1).run = .free ∧
    okIs (u.areaAt u.slot.part 1) ⟨area1, 4, false⟩ = true ∧ s.mem.byte (area1 + 0xC2) ≠ 1 ∧ u.mem.byte (area1 + 0xC2) = 1 ∧
    (u.coreAt u.coreIdx).prov.length + u.areaCount ⟨area1, 4, false⟩ ≤ 64 ∧ 2 = s.coreIdx * 16 + (s.g 5).toNat % 16 ∧ (s.slotAt 2).run ≠ .free ∧
    after (exec (.slotld 0 3 5) s) (fun t => t.g 3 == 0) = true ∧ after (exec (.slotld 0 3 4) s) (fun t => t.g 3 == 0) = true := by decide +kernel

theorem test_slot_loaded : let s := saving [(0, super (thread [(4, 1)]))]
    let u := holding (holding (holding s (area1 + 24) 8 33) (area1 + 0x80) 8 (w0 + 0x300).toNat) (area1 + 0xC2) 1 1
    after (exec (.slotld 0 3 4) u) (fun t => t.g 3 == 1 && (t.slotAt 1).ctx.g[3] == 33 && (t.slotAt 1).ctx.pc == w0 + 0x300 &&
      t.mem.byte (area1 + 0xC2) == 0) = true := by decide +kernel

theorem test_stops_asked : let s := saving [(0, super (thread [(4, 5000)]))]
    let j := { s with dev := { s.dev with jobV := true } }
    let u := flying j (.stopReq (.slot 0) 5000)
    let w := flying j (.stopReq (.slot 0) 4095)
    s.Performs 0 1 false ∧ s.slot.open_ = false ∧ s.dev.jobV = false ∧ j.Performs 0 1 false ∧ j.slot.open_ = false ∧ j.part.regs.ctxb ≠ 0 ∧
    j.dev.jobV = true ∧ j.dev.jobIdx = 0 ∧ u.net[0]? = some ⟨0, .stopReq (.slot 0) 5000⟩ ∧ w.net[0]? = some ⟨0, .stopReq (.slot 0) 4095⟩ ∧
    u.stopState 0 = 0 ∧ u.refcnt + 4096 ≤ (5000 : BitVec 56).toNat ∧ (4095 : BitVec 56).toNat < w.refcnt + 4096 ∧
    after (exec (.stopat 0 1 4) s) (fun t => !t.p 1 && t.ctx.pc == w0 + 0x104) = true ∧
    after (exec (.stopat 0 1 4) j) (fun t => t.slot.run == .waiting .reply && t.net == [⟨0, .stopReq (.slot 0) 5000⟩]) = true ∧
    after (exec (.stopatRequest 0) u) (fun t => (t.partAt 0).regs.stopcnt == 0x4000000000001388 && t.net == [⟨0, .reply 0 (.ok 1) .none⟩]) = true ∧
    after (exec (.stopatRequest 0) w) (fun t => (t.partAt 0).regs.stopcnt == 0 && t.net == [⟨0, .reply 0 (.ok 0) .none⟩]) = true := by decide +kernel

theorem test_frequencies : let s := alone (device (thread [(4, 16), (5, 3), (6, 5)]))
    let u := { s with dev := { s.dev with freqPend := 2, freqPv := true, freqAt := 0 } }
    s.Performs 0 2 false ∧ s.slot.open_ = false ∧ 4 < (s.g 6).toNat ∧ (s.g 5).toNat ≤ 4 ∧ s.dev.freqPv = false ∧ s.refcnt + 16 ≤ (s.g 4).toNat ∧
    (s.g 5).toNat < s.refcnt + 16 ∧ u.dev.freqPv = true ∧ u.dev.freqAt ≤ u.refcnt ∧
    after (exec (.freqat 0 1 4 6) s) (fun t => t.slot.cause == 1) = true ∧
    after (exec (.freqat 0 1 4 5) s) (fun t => t.p 1 && t.dev.freqPend == 3 && t.dev.freqPv && t.dev.freqAt == 16) = true ∧
    after (exec (.freqat 0 1 5 5) s) (fun t => !t.p 1 && !t.dev.freqPv) = true ∧
    after (exec .frequencySwitch u) (fun t => t.dev.freqCur == 2 && !t.dev.freqPv) = true := by decide +kernel

/-- A store due at instant 1, and one at 9. -/
def counting : State :=
  { plain with refcnt := 128, ports := [(0, { pending := [⟨0, 2 ^ 34 + 1, 1, 7, false, [(3, 0, 0x77)]⟩, ⟨0, 2 ^ 34 + 2, 9, 7, false, [(0, 0, 5)]⟩] })] }

theorem test_no_store_waits : ∀ k, (counting.portAt k).stalled = [] := by
  intro k
  by_cases h : k = 0
  · subst h; rfl
  · simp [counting, State.portAt, Table.get, h]

theorem test_counter_steps : counting.running 0 = true ∧ qcfgEl (counting.partAt 0).regs.qcfg = false ∧ (counting.partAt 0).due ≤ counting.refcnt ∧
    (counting.partAt 0).writes = [] ∧ (counting.partAt 0).regs.reccfg.toNat % 2 = 0 ∧ mnIv (counting.partAt 0).regs.mncfg = 0 ∧ counting.dev.unreachable = 0 ∧
    after (exec (.quartzStep 0) counting) (fun t => (t.partAt 0).now == 1 && (t.partAt 0).stepped == 128 && t.mem.byte (2 ^ 40 + 64 + 3) == 0x77 &&
      t.mem.byte (2 ^ 40 + 128) == 0 && (t.portAt 0).pending.map (·.v) == [9]) = true := by decide +kernel

theorem test_ties_ordered : let e := fun (k : Half) (h : Bool) => (⟨0, 4, 1, k, h, []⟩ : Pending)
    tieOrder [e 5 false, e 0 true, e 3 false] = [e 0 true, e 3 false, e 5 false] := by decide +kernel

/-- A store is due at instant 6; one at instant 1; nothing at all; and a launch one of whose tasks is not held. -/
theorem test_elastic_steps : let b := plain.setPartAt 0 { plain.partAt 0 with regs := { (plain.partAt 0).regs with qcfg := 0x1007F } }
    let s := flying b (.store (.slot 0) storing)
    let w := flying b (.store (.slot 0) { storing with v := 1 })
    let l := s.setPartAt 0 { s.partAt 0 with launches := [launch1] }
    (1 : Instant) ∈ w.outstanding 0 ∧ qcfgEl (plain.partAt 0).regs.qcfg = false ∧ b.outstanding 0 = [] ∧
    after (exec (.elasticStep 0) s) (fun t => (t.partAt 0).now == 1) = true ∧ after (exec (.elasticStep 0) w) (fun t => t == w) = true ∧
    after (exec (.elasticStep 0) b) (fun t => t == b) = true ∧ after (exec (.elasticStep 0) l) (fun t => t == l) = true := by
  decide +kernel

/-- An elastic partition with a store that is due at instant 6. -/
def elastic : State :=
  flying (plain.setPartAt 0 { plain.partAt 0 with regs := { (plain.partAt 0).regs with qcfg := 0x1007F } }) (.store (.slot 0) storing)

theorem elastic_launches : (elastic.partAt 0).launches = [] := by decide +kernel

theorem elastic_outstanding : elastic.outstanding 0 ≠ [] := by decide +kernel

theorem elastic_stores : elastic.outstanding 0 = [6] ∧ (elastic.partAt 0).now.toNat + 1 < (6 : Instant).toNat := by decide +kernel

theorem elastic_work : (elastic.partAt 0).queue ≠ [] ∨ (elastic.partAt 0).hostQueue ≠ [] ∨
    (elastic.partAt 0).head ≠ (elastic.partAt 0).kicked ∨ (elastic.partAt 0).launches ≠ [] ∨ (elastic.partAt 0).completions ≠ [] ∨
    elastic.outstanding 0 ≠ [] :=
  Or.inr (Or.inr (Or.inr (Or.inr (Or.inr elastic_outstanding))))

theorem test_elastic_may : ElasticMay elastic 0 where
  runs := by decide +kernel
  elastic := by decide +kernel
  start := by decide +kernel
  apart := .inl (by decide +kernel)
  tasks l h := absurd (elastic_launches ▸ h) List.not_mem_nil
  stores v h := by
    rw [elastic_stores.1] at h
    exact List.mem_singleton.1 h ▸ elastic_stores.2
  work := elastic_work

theorem test_elastic_rest : (elastic.partAt 0).writes = [] ∧ (elastic.partAt 0).regs.reccfg.toNat % 2 = 0 ∧
    mnIv (elastic.partAt 0).regs.mncfg = 0 ∧ elastic.dev.unreachable = 0 ∧ elastic.ports = [] := by decide +kernel

/-- The task's one thread waits for a later instant. -/
theorem test_held_task : HeldTask (alone { thread [] with run := .waiting (.instant 6), task := some (5, 0) }) 0 5 0 1 3 := by
  refine ⟨by decide +kernel, fun e h => .inl ⟨6, ?_⟩⟩
  have : e ∈ [(0, { thread [] with run := .waiting (.instant 6), task := some (5, 0) })] := (List.mem_filter.1 h).1
  obtain rfl := List.mem_singleton.1 this
  decide +kernel

theorem test_stretches_and_dies : (plain.portAt 5).suspended = false ∧ plain.dieOn 2 = true ∧
    after (exec (.clockStretch 5) plain) (fun t => (t.portAt 5).suspended && (t.portAt 5).stretch == 1) = true ∧
    after (exec (.dieUnreachable 2) plain) (fun t => t.dev.unreachable == 4) = true := by decide +kernel

theorem test_pools_refilled : plain.dieOn 0 = true ∧ ({ plain with dev := { plain.dev with dies := 1 } } : State).dieOn 1 = false := by decide +kernel

/-- A partition with a thread that waits for a monitor, to stop at count 10. -/
def stopping (now : Nat) (x : Part → Part) (l : Table Slot) : State :=
  let s := { many l with refcnt := now }
  s.setPartAt 0 (x { s.partAt 0 with regs := { (s.partAt 0).regs with stopcnt := 2 ^ 62 + 10 } })

theorem test_partition_stops : let x : Slot := { thread [] with run := .waiting (.monitor none) }
    let a := stopping 9 id [(0, x)]
    let b := stopping 10 id [(0, x)]
    let c := stopping 10 (fun p => { p with stopping := true }) [(0, thread [])]
    let d := stopping 10 (fun p => { p with stopping := true }) [(0, { thread [] with run := .waiting .reply })]
    let e := stopping 10 (fun p => { p with stopping := true, flushed := true }) []
    let f := stopping 10 (fun p => { p with stopping := true, flushed := true, tokens := 1 }) []
    let w := stopping 10 id [(0, { thread [] with run := .waiting .idle }), (1, { thread [] with run := .waiting (.sleep 10) }),
      (2, { thread [] with run := .waiting (.sleep 11) })]
    pdefV (a.pdefOf 0) = true ∧ a.stopState 0 = 1 ∧ a.refcnt < (a.partAt 0).regs.stopcnt.toNat % 2 ^ 56 ∧
    (b.partAt 0).regs.stopcnt.toNat % 2 ^ 56 ≤ b.refcnt ∧ (b.partAt 0).stopping = false ∧ (b.slotAt 0).run = .waiting (.monitor none) ∧
    (c.partAt 0).stopping = true ∧ (c.partAt 0).flushed = false ∧ (c.occupied 0).all c.savable = true ∧ (d.occupied 0).all d.savable = false ∧
    (e.partAt 0).flushed = true ∧ (e.partAt 0).tokens = 0 ∧ e.occupied 0 = [] ∧
    (f.partAt 0).tokens ≠ 0 ∧ after (exec (.partitionStop 0) f) (fun t => t == f) = true ∧ (w.slotAt 0).run = .waiting .idle ∧
    (w.slotAt 1).run = .waiting (.sleep 10) ∧ (w.slotAt 2).run = .waiting (.sleep 11) ∧
    after (exec (.partitionStop 0) w) (fun t => [0, 1, 2].map (fun n => (t.slotAt n).run) == [.runnable, .runnable, .waiting (.sleep 11)]) = true ∧
    after (exec (.partitionStop 0) a) (fun t => !(t.partAt 0).stopping) = true ∧
    after (exec (.partitionStop 0) b) (fun t => (t.partAt 0).stopping && (t.slotAt 0).run == .runnable && !t.running 0) = true ∧
    after (exec (.partitionStop 0) c) (fun t => (t.partAt 0).tokens == 128 && t.net.length == 128) = true ∧
    after (exec (.partitionStop 0) d) (fun t => !(t.partAt 0).flushed) = true ∧ after (exec (.partitionStop 0) e) (fun t => t.stopState 0 == 2) = true := by
  decide +kernel

/-- A migration bound for router 0 and one bound for router 1, ahead of router 0's token. -/
theorem test_flush_tokens : let m := fun c => (⟨0, .migration c traveller⟩ : Packet)
    let s := { stopping 10 (fun p => { p with stopping := true, flushed := true, tokens := 3 }) [] with net := [m 0, m 16, ⟨0, .flush 0⟩, m 1] }
    s.net[2]? = some ⟨0, .flush 0⟩ ∧ s.cores = [] ∧
    after (exec (.flushToken 2) s) (fun t => t.net == [m 16, m 1] && (t.portAt 0).saved == [m 0] && (t.partAt 0).tokens == 2) = true := by decide +kernel

/-- A partition of no die, so that no slot is loaded, with a packet in router 0. -/
theorem test_partition_resumes : let m : Packet := ⟨0, .migration 0 traveller⟩
    let s := fun c => ((stopping c (fun p => { p with regs := { p.regs with stopcnt := 3 * 2 ^ 62 + 10 }, stoppedAt := 4, shift := 1 }) []).setPortAt 0
      { saved := [m] })
    let u := fun c => { s c with dev := { (s c).dev with pdef := (s c).dev.pdef.set 0 0x8001000000000003 } }
    pdefV ((u 10).pdefOf 0) = true ∧ (u 10).stopState 0 = 3 ∧ (u 9).refcnt < ((u 9).partAt 0).regs.stopcnt.toNat % 2 ^ 56 ∧
    (u 10).areasAway 0 = [] ∧ (u 10).provRoom 0 ((u 10).savedAreas 0) = true ∧
    ((u 10).partAt 0).regs.stopcnt.toNat % 2 ^ 56 ≤ (u 10).refcnt ∧
    after (exec (.partitionResume 0) (u 10)) (fun t => t.stopState 0 == 0 && (t.partAt 0).shift == 7 && t.net == [m] && (t.portAt 0).saved == []) = true ∧
    after (exec (.partitionResume 0) (u 9)) (fun t => t.stopState 0 == 3) = true := by decide +kernel

/-- A partition of slot 1 of die 0's cores alone, with its areas at the start of W1; that of slot 1 holds a thread. -/
def resuming : State :=
  let s := stopping 10 (fun p => { p with regs := { p.regs with stopcnt := 3 * 2 ^ 62 + 10, ctxb := w1 }, stoppedAt := 4 }) []
  holding (holding { s with dev := { s.dev with pdef := s.dev.pdef.set 0 0x80010100FFFF0002 } } 0x4018 8 33) 0x40C2 1 1

theorem test_slots_resume : let away := resuming.setPartAt 0 { resuming.partAt 0 with
      kept := [(1, {})], regs := { (resuming.partAt 0).regs with ctxb := w3 + 0x200000, ptw3 := 0 } }
    pdefV (resuming.pdefOf 0) = true ∧ resuming.stopState 0 = 3 ∧
    (∀ m ∈ resuming.partSlots 0, winOf (localAddr (resuming.area 0 m)) = some .w1) ∧ 1 ∈ resuming.partSlots 0 ∧
    okIs (resuming.areaAt 0 1) ⟨0x4000, 0, false⟩ = true ∧ resuming.mem.byte (0x4000 + 0xC2) = 1 ∧
    (Table.get {} (resuming.partAt 0).kept 1).opening = none ∧ resuming.areasAway 0 = [] ∧
    resuming.provRoom 0 (resuming.savedAreas 0) = true ∧ away.areasAway 0 ≠ [] ∧
    after (exec (.partitionResume 0) away) (fun t => t.stopState 0 == 3 && t.slots == away.slots && t.mem == away.mem) = true ∧
    after (exec (.partitionResume 0) resuming) (fun t => (t.slotAt 1).run == .runnable && (t.slotAt 1).ctx.g[3] == 33) = true := by
  decide +kernel

/-! ## The fabric and the host -/

/-- Lanes 2 and 5 are lit on channel 33, the others dark. -/
def lit25 : OptPort := { lanes := Vector.ofFn fun k => if k.val = 2 ∨ k.val = 5 then { pair := k.val, state := .lit, chan := 33 } else { pair := k.val } }

/-- Peer 9 on channel 33 of port 5, which is as given. -/
def linked (q : OptPort) : State := { plain with dev := { plain.dev with jobV := true, reach := [(9, 0x80050021)], optics := [(5, q)] } }

def transfer : Packet := ⟨0, .store (.slot 4) storing⟩

theorem test_flits_sent : let s := linked lit25
    let a := { s with dev := { s.dev with egress := [(9, [(0x80050021, transfer), (0x80050021, ⟨0, .kill 3⟩)])], sent := [(9, 6)], stripe := [(9, 3)] } }
    let back : Sent := { peer := 9, seq := 2, packet := ⟨0, .kill 1⟩, entry := 0x80050021 }
    let b := { a with dev := { a.dev with resend := [(9, [back])], stripe := [] } }
    let c := { a with dev := { a.dev with optics := [] } }
    s.dev.jobV = true ∧ s.dev.unlocked = false ∧ NextOf (a.optic 5) 33 3 5 ∧ NextOf (b.optic 5) 33 0 2 ∧ NextOf (a.optic 5) 33 6 2 ∧
    routeAt 5 0x80050021 = some 33 ∧ Table.get [] a.dev.resend 9 = [] ∧ (∀ k, ¬ LitOn (c.optic 5) 33 k) ∧ plain.dev.jobV = false ∧
    after (exec (.flitTransmit 5 9) a) (fun t => (t.optic 5).lanes[5].replay == [{ peer := 9, seq := 6, packet := transfer, entry := 0x80050021 }] && Table.get 0 t.dev.sent 9 == 7 &&
      Table.get 0 t.dev.stripe 9 == 6 && (Table.get [] t.dev.egress 9).length == 1) = true ∧
    after (exec (.flitTransmit 5 9) b) (fun t => (t.optic 5).lanes[2].replay == [back] && Table.get 0 t.dev.sent 9 == 6) = true ∧
    after (exec (.flitTransmit 5 9) c) (fun t => (Table.get [] t.dev.egress 9).length == 2) = true := by decide +kernel

/-- What a router passes on. -/
def within (q : Packet) : Body :=
  match q.body with
  | .via _ b => b
  | b => b

theorem test_flits_received : let s := linked lit25
    let a := { s with dev := { s.dev with inbound := [(9, transfer)], expect := [(9, 3)] } }
    let b := a.setPartAt 0 { a.partAt 0 with key := some 1 }
    a.dev.jobV = true ∧ a.dev.unlocked = false ∧ a.dev.inbound[0]? = some (9, transfer) ∧ transfer.part = 0 ∧ a.dev.early = [] ∧
    Table.get 0 a.dev.expect 9 = 3 ∧ (a.partAt 0).key = none ∧ (b.partAt 0).key = some 1 ∧
    after (exec (.flitReceive 5 2 9 0 3 false 0) a) (fun t => t.dev.replays == [(5, 2, 9, 3)] && t.dev.inbound.length == 1) = true ∧
    after (exec (.flitReceive 5 2 9 0 2 true 0) b) (fun t => t.dev.inbound == [] && t.net == []) = true ∧
    after (exec (.flitReceive 5 2 9 0 3 true 0) a) (fun t => (Table.get [] t.dev.egress 9).map (·.2) == [⟨0, .refused transfer.body⟩]) = true ∧
    after (exec (.flitReceive 5 2 9 0 4 true 0) b) (fun t => t.dev.early.map (fun e => (e.peer, e.seq, e.keyed, e.packet)) == [(9, 4, true, transfer)] && t.net == []) = true ∧
    after (exec (.flitReceive 5 2 9 0 3 true 0) b) (fun t => t.net.map within == [.storeTo (.peer 9 4) storing] && t.dev.expect == [(9, 4)]) = true := by
  decide +kernel

/-- The flit behind it has come first. -/
theorem test_flits_in_order : let s := linked lit25
    let y : Packet := ⟨0, .store (.slot 5) storing⟩
    let a := { s with dev := { s.dev with inbound := [(9, transfer)], expect := [(9, 3)], early := [⟨9, 4, 0, true, y⟩] } }
    let b := a.setPartAt 0 { a.partAt 0 with key := some 1 }
    b.dev.jobV = true ∧ b.dev.unlocked = false ∧ b.dev.inbound[0]? = some (9, transfer) ∧ Table.get 0 b.dev.expect 9 = 3 ∧
    (b.partAt 0).key.isSome = true ∧
    after (exec (.flitReceive 5 2 9 0 3 true 0) b) (fun t => t.net.map within == [.storeTo (.peer 9 4) storing, .storeTo (.peer 9 5) storing] &&
      t.dev.expect == [(9, 5)]) = true := by decide +kernel

def flit (n tries : Nat) : Sent := { peer := 9, seq := n, packet := transfer, tries := tries, entry := 0x80050021 }

/-- A lane that holds two flits for a replay. -/
def holds (n : Nat) : OptPort :=
  lit25.setLane 2 { pair := 2, state := .lit, chan := 33, replay := [flit 6 n, flit 7 0] }

theorem test_flits_replayed : let dark := (holds 1).setLane 2 { (holds 1).lanes[2] with state := .dark }
    ((linked (holds 1)).optic 5).lanes[2].replay = [] ++ flit 6 1 :: [flit 7 0] ∧
    flit 6 1 ∉ [flit 7 0] ∧ flit 6 2 ∉ [flit 7 0] ∧
    (linked (holds 1)).dev.jobV = true ∧ (linked (holds 1)).dev.unlocked = false ∧ ((linked (holds 1)).optic 5).lanes[2].state = .lit ∧
    routeAt 5 (flit 6 1).entry = some ((linked (holds 1)).optic 5).lanes[2].chan ∧ plain.dev.jobV = false ∧
    ((linked dark).optic 5).lanes[2].replay = [] ++ flit 6 1 :: [flit 7 0] ∧ ((linked dark).optic 5).lanes[2].state ≠ .lit ∧
    after (exec (.replayRequest 5 2 (flitName 9 6)) (linked dark)) (fun t => (t.optic 5).lanes[2].replay == [flit 7 0] &&
      Table.get [] t.dev.resend 9 == [flit 6 2]) = true ∧
    after (exec (.replayRequest 5 2 (flitName 9 6)) { linked (holds 1) with dev := { (linked (holds 1)).dev with unlocked := true } })
      (fun t => (t.optic 5).lanes[2].flits == 0) = true ∧
    after (exec (.replayRequest 5 2 (flitName 9 6)) (linked (holds 1))) (fun t => (t.optic 5).lanes[2].replay.map (·.tries) == [2, 0] &&
      (t.optic 5).lanes[2].flits == 1) = true ∧
    after (exec (.replayRequest 5 2 (flitName 9 6)) (linked (holds 2))) (fun t => (t.optic 5).lanes[2].state == .waking && (t.optic 5).lanes[2].pair == 8 &&
      (t.optic 5).spares == [9]) = true := by decide +kernel

def commanded (l : List PortCmd) : State := linked { lit25 with queue := l }

theorem test_port_commands : let s := fun o => commanded [{ op := o }]
    (s (.tune 2 7)).PortHas 5 (.tune 2 7) [] ∧ ((s (.tune 2 7)).optic 5).lanes[2].state = .lit ∧ (s (.tune 3 7)).PortHas 5 (.tune 3 7) [] ∧
    ((s (.tune 3 7)).optic 5).lanes[3].state = .dark ∧ (s (.park 2)).PortHas 5 (.park 2) [] ∧ ((s (.park 2)).optic 5).lanes[5].state = .lit ∧
    (s (.wake 3)).PortHas 5 (.wake 3) [] ∧
    after (exec (.portTune 5) (s (.tune 2 7))) (fun t => (t.optic 5).lanes[2].state == .retuning && (t.optic 5).lanes[2].next == 7) = true ∧
    after (exec (.portTune 5) (s (.tune 3 7))) (fun t => (t.optic 5).lanes[3].chan == 7 && (t.optic 5).queue == []) = true ∧
    after (exec (.portPark 5) (s (.park 2))) (fun t => (t.optic 5).lanes[2].state == .lit &&
      (t.optic 5).queue == [{ op := .park 2, begun := some 0 }]) = true ∧
    ((commanded [{ op := .park 2, begun := some 0 }]).optic 5).minlit.toNat + 1 < 2 ∧
    after (exec (.portPark 5) (commanded [{ op := .park 2, begun := some 0 }])) (fun t => (t.optic 5).lanes[2].state == .dark &&
      (t.optic 5).queue == []) = true ∧
    after (exec (.portWake 5) (s (.wake 3))) (fun t => (t.optic 5).lanes[3].state == .waking) = true := by decide +kernel

/-- A park of CIRC's, of one of two lit lanes and of the only one. -/
theorem test_circuit_parks : let o : PortCmd := { op := .park 2, word := 7, owner := some (0, 0, 0), stamp := 7, begun := some 0 }
    let s := commanded [o]
    let u := linked { ({} : OptPort).setLane 2 { pair := 2, state := .lit } with queue := [o] }
    (s.optic 5).queue = o :: [] ∧ (s.optic 5).lanes[2].state = .lit ∧ (s.optic 5).lanes[5].state = .lit ∧ (u.optic 5).queue = o :: [] ∧
    (∀ i : Fin 8, i ≠ 2 → (u.optic 5).lanes[i].state ≠ .lit) ∧
    after (exec (.portPark 5) s) (fun t => (t.optic 5).lanes[2].state == .dark && (t.optic 5).queue == []) = true ∧
    after (exec (.portPark 5) u) (fun t => (t.optic 5).lanes[2].state == .lit && (t.optic 5).queue == []) = true := by decide +kernel

/-- Lane 2 alone is lit. -/
theorem test_last_lane : let s := linked { ({} : OptPort).setLane 2 { pair := 2, state := .lit } with queue := [{ op := .park 2, begun := some 0 }] }
    (s.optic 5).queue = { op := .park 2, begun := some 0 } :: [] ∧ (s.optic 5).lanes[2].state = .lit ∧ (∀ i : Fin 8, i ≠ 2 → (s.optic 5).lanes[i].state ≠ .lit) ∧
    after (exec (.portPark 5) s) (fun t => (t.optic 5).lanes[2].state == .lit && (t.optic 5).queue == []) = true := by decide +kernel

def retuning (o : Option (Fin 8 × Nat × Instant)) : State :=
  { linked { lit25.setLane 2 { pair := 2, state := .retuning, chan := 33, next := 7 } with queue := [{ op := .tune 2 7, word := if o.isSome then 77 else 0, owner := o, begun := some 90 }] } with
    refcnt := 100 }

theorem test_lanes_lit : let w := linked { lit25.setLane 3 { pair := 3, state := .waking, chan := 9 } with queue := [{ op := .wake 3, begun := some 90 }] }
    ((retuning none).optic 5).queue = { op := .tune 2 7, begun := some 90 } :: [] ∧ ((retuning none).optic 5).lanes[2].state = .retuning ∧
    (w.optic 5).queue = { op := .wake 3, begun := some 90 } :: [] ∧ (w.optic 5).lanes[3].state = .waking ∧
    after (exec (.laneTuneDone 5 2) (retuning none)) (fun t => (t.optic 5).lanes[2].state == .lit && (t.optic 5).lanes[2].chan == 7) = true ∧
    after (exec (.laneWakeDone 5 3) w) (fun t => (t.optic 5).lanes[3].state == .lit && (t.optic 5).queue == []) = true := by decide +kernel

theorem test_circuits_complete : let s := retuning (some (0, 3, 0x12345))
    (s.optic 5).queue = { op := .tune 2 7, word := 77, owner := some (0, 3, 0x12345), begun := some 90 } :: [] ∧ (s.optic 5).lanes[2].state = .retuning ∧
    after (exec (.laneTuneDone 5 2) s) (fun t => t.net.map (fun q => match q.body with
      | .message _ c hi m _ => (c, hi, m.toNat / 2 ^ 64 % 2 ^ 48, m.toNat / 2 ^ 192 % 2 ^ 64, m.toNat / 2 ^ 320 % 2 ^ 64)
      | _ => (0, true, 0, 0, 0)) == [(3, false, 0x12345, 77, 10)]) = true := by decide +kernel

theorem test_lanes_park_and_wake : let s := { linked lit25 with refcnt := 1025 }
    let few := linked { lit25 with minlit := 1 }
    let d := linked { lit25 with wakeq := 0 }
    let w := { d with dev := { d.dev with egress := [(9, [(0x80050021, transfer)])] } }
    s.dev.hamode.getLsbD 2 = false ∧ (s.optic 5).queue = [] ∧
    ((List.finRange 8).filter fun i => (s.optic 5).lanes[i].state == .lit).length = 2 ∧
    ((List.finRange 8).filter fun i => (few.optic 5).lanes[i].state == .lit).length ≤ (few.optic 5).minlit.toNat + 1 ∧
    (s.optic 5).minlit.toNat + 1 < 2 ∧ (s.optic 5).parkedAt ≠ s.refcnt ∧ (s.optic 5).lanes[5].last + (s.optic 5).idlep.toNat < s.refcnt ∧
    (∀ i : Fin 8, 5 < i → (s.optic 5).lanes[i].state ≠ .lit) ∧ (w.optic 5).wakeq.toNat < w.pdepth 5 ∧ (w.optic 5).lanes[0].state = .dark ∧
    s.pdepth 5 ≤ (s.optic 5).wakeq.toNat ∧
    after (exec (.laneAutoPark 5) s) (fun t => (t.optic 5).queue == [{ op := .park 5 }] && (t.optic 5).parkedAt == 1025) = true ∧
    after (exec (.laneAutoPark 5) few) (fun t => (t.optic 5).queue == []) = true ∧
    after (exec (.laneAutoWake 5) w) (fun t => (t.optic 5).queue == [{ op := .wakeAll }]) = true := by decide +kernel

theorem test_heaters_served : let s := { linked lit25 with refcnt := 4096 }
    let h := { s with dev := { s.dev with hamode := 2 } }
    (linked lit25).refcnt < ((linked lit25).optic 5).served + ((linked lit25).optic 5).hsper.toNat ∧
    (s.optic 5).served + (s.optic 5).hsper.toNat ≤ s.refcnt ∧ s.dev.hamode.getLsbD 1 = false ∧ h.dev.hamode.getLsbD 1 = true ∧
    (∀ k : Fin 8, (s.optic 5).lanes[k].state ≠ .failed ∧ (s.optic 5).lanes[k].modulator.hcode ≠ 0 ∧
      (s.optic 5).lanes[k].modulator.hcode ≠ 4095 ∧ (s.optic 5).lanes[k].filter.hcode ≠ 0 ∧ (s.optic 5).lanes[k].filter.hcode ≠ 4095) ∧
    heated lit25 0x7EF 9 = 10 ∧ heated lit25 0x7F0 9 = 9 ∧ heated lit25 0x810 9 = 9 ∧ heated lit25 0x811 9 = 8 := by decide +kernel

theorem test_lanes_fail : let s := linked (holds 1)
    let n := linked { holds 1 with spares := [] }
    (s.optic 5).lanes[2].state = .lit ∧ (s.optic 5).lanes[3].state = .dark ∧ (s.optic 5).spares = [8, 9] ∧ (n.optic 5).spares = [] ∧
    s.dev.hamode.getLsbD 4 = false ∧
    after (exec (.linkFailure (some 5) 3 0 0) s) (fun t => t.dev.msix == []) = true ∧
    after (exec (.linkFailure (some 5) 2 0 0) s) (fun t => (t.optic 5).lanes[2].pair == 8 && (t.optic 5).spare == 4 && t.dev.msix == [5] &&
      Table.get [] t.dev.resend 9 == [flit 6 0]) = true ∧
    after (exec (.linkFailure (some 5) 2 0 0) n) (fun t => (t.optic 5).lanes[2].state == .failed && (t.optic 5).fail == 4) = true := by decide +kernel

/-- A retuning lane, whose TUNE ends with it. -/
theorem test_retuning_lane_fails : let s := retuning none
    (s.optic 5).queue = { op := .tune 2 7, begun := some 90 } :: [] ∧ (s.optic 5).lanes[2].state = .retuning ∧
    after (exec (.linkFailure (some 5) 2 0 0) s) (fun t => (t.optic 5).lanes[2].state == .waking && (t.optic 5).lanes[2].chan == 7 &&
      (t.optic 5).queue == []) = true := by decide +kernel

/-- With FLTH = 0: a migration waits, and a piece of a copy command ends it. -/
theorem test_pieces_fail : let q : Packet := ⟨0, .migration 256 traveller⟩
    let c := command (.copy (some from_) to_ 1 1 1 0)
    let st : Store := { storing with pl := ⟨2 ^ 41 + 2 ^ 36, 256, false⟩ }
    let d := { plain.dev with deadChans := (List.range 256).map fun n => (0, n) }
    let s := { plain with net := [q], dev := d }
    let u := copies [c] { plain with net := [⟨0, .store (.cmd 7) st⟩], dev := d }
    s.dev.hamode.getLsbD 4 = false ∧ u.blocked (.store (.cmd 7) st) = true ∧ u.listCore 7 = none ∧
    u.commands.find? (fun x => x.stamp == 7) = some c ∧ q.body.isPiece = false ∧
    after (exec (.linkFailure none 0 0 7) s) (fun t => t.net == [q] && t.dev.fabric == []) = true ∧
    after (exec (.linkFailure none 0 0 7) u) (fun t => t.net == [] && t.dev.fabric == [] &&
      t.commands.map (fun e => (e.stage, e.status, e.tval)) == [(.ended, 0x16, w2 + 0x40)]) = true := by decide +kernel

/-- Every channel of die 0 has failed. -/
theorem test_channels_fail : let q : Packet := ⟨0, .migration 256 traveller⟩
    let s := { plain with net := [q], dev := { plain.dev with hamode := 16, deadChans := (List.range 256).map fun n => (0, n) } }
    s.dev.hamode.getLsbD 4 = true ∧ s.dev.waiting0 = [] ∧ s.blocked q.body = true ∧
    after (exec (.linkFailure none 0 0 7) s) (fun t => t.net == [] && t.dev.fabric.map (fun f => (f.packet, f.pkg)) == [(q, true)]) = true := by decide +kernel

theorem test_lock_lost : after (exec .referenceLockLoss plain) (fun t => t.dev.unlocked && t.dev.msix == [5]) = true := by decide +kernel

def lost (b : Body) : State := { linked lit25 with dev := { (linked lit25).dev with fabric := [⟨⟨0, b⟩, false, 9, 0, 5, 2, none⟩] } }

theorem test_fabric_records : let r := Req.read (w2 + 0x40) (at2 0x40) 8 .plain
    (lost (.request 0 r)).dev.bootErr = 0 ∧
    after (exec .fabricFaultRetry (lost (.request 0 r))) (fun t => t.dev.fabric == [] && Table.get [] t.dev.egress 9 == [(0x80050021, ⟨0, .request 0 r⟩)]) = true ∧
    after (exec .fabricFaultAbandon (lost (.request 0 r))) (fun t => t.net == [⟨0, .reply 0 (.fail 0x18 (w2 + 0x40)) .none⟩]) = true ∧
    after (exec .fabricFaultAbandon (lost (.reply 0 (.ok 7) .none))) (fun t => Table.get [] t.dev.egress 9 == [(0x80050021, ⟨0, .reply 0 (.ok 7) .none⟩)]) = true := by
  decide +kernel

/-- A completion is never abandoned. -/
theorem test_completion_stays : let d : Body := .messageTo w1 false 0 (.completed 3 7)
    let b : Body := .message w1 0 false 0 (.unit 3)
    after (exec .fabricFaultAbandon (lost d)) (fun t => t.dev.fabric == [] && Table.get [] t.dev.egress 9 == [(0x80050021, ⟨0, d⟩)]) = true ∧
    after (exec .fabricFaultAbandon (lost b)) (fun t => t.dev.fabric == [] && Table.get [] t.dev.egress 9 == [(0x80050021, ⟨0, b⟩)]) = true := by
  decide +kernel

theorem connections_agree : ((List.range 8).all fun a => (List.range 256).all fun n => !(plain.stagedByte a n).getLsbD 7 ||
    (plain.stagedByte ((plain.stagedByte a n).toNat % 8) n).getLsbD 7 && (plain.stagedByte ((plain.stagedByte a n).toNat % 8) n).toNat % 8 == a &&
      plain.dieOn ((plain.stagedByte a n).toNat % 8)) = true := by decide +kernel

theorem connections_join : ((List.range 8).all fun a => (List.range 8).all fun b => a == b || (List.range 256).any fun n =>
    (plain.stagedByte a n).getLsbD 7 && (plain.stagedByte a n).toNat % 8 == b) = true := by decide +kernel

theorem test_commit_may : CommitMay plain := by
  refine ⟨fun a n ha hn h => ?_, fun a b ha hb _ _ hab => ?_⟩
  · have e := List.all_eq_true.1 (List.all_eq_true.1 connections_agree a (List.mem_range.2 ha)) n (List.mem_range.2 hn)
    simp only [h, Bool.not_true, Bool.false_or, Bool.and_eq_true, beq_iff_eq] at e
    exact ⟨e.1.1, e.1.2, e.2⟩
  · have e := List.all_eq_true.1 (List.all_eq_true.1 connections_join a (List.mem_range.2 ha)) b (List.mem_range.2 hb)
    simp only [Bool.or_eq_true, beq_iff_eq, hab, false_or] at e
    obtain ⟨n, hn, e⟩ := List.any_eq_true.1 e
    simp only [Bool.and_eq_true, beq_iff_eq] at e
    exact ⟨n, List.mem_range.1 hn, e⟩

/-- No channel of die 0 is connected in the staging copy. -/
def unstaged : State := { plain with dev := { plain.dev with staged := (List.range 256).map fun n => (n, 0) } }

theorem unstaged_empty : ((List.range 256).all fun n => !(unstaged.stagedByte 0 n).getLsbD 7) = true := by decide +kernel

theorem test_commit_may_not : ¬ CommitMay unstaged := by
  intro h
  obtain ⟨n, hn, e, -⟩ := h.2 0 1 (by decide) (by decide) (by decide +kernel) (by decide +kernel) (by decide)
  have u := List.all_eq_true.1 unstaged_empty n (List.mem_range.2 hn)
  rw [e] at u
  exact absurd u (by decide)

/-- The staging copy of reset, and one in which no channel of die 0 is connected. -/
theorem test_connections_committed : plain.dev.bootErr = 0 ∧ (1 : Word).getLsbD 0 = true ∧ (2 : Word).getLsbD 0 = false ∧
    after (exec (.connectionCommit 1) plain) (fun t => !t.dev.connErr && t.connByte 0 0 == plain.stagedByte 0 0) = true ∧
    after (exec (.connectionCommit 2) unstaged) (fun t => t.dev.staged == unstaged.dev.staged && !t.dev.connErr) = true ∧
    after (exec (.connectionCommit 1) unstaged) (fun t => t.dev.connErr && t.dev.conn == []) = true := by decide +kernel

theorem test_host_writes : plain.dev.bootErr = 0 ∧
    after (exec (.registerWrite 0x20000 0x80 1) { plain with dev := { plain.dev with haflog := 0x1080 } }) (fun t => t.dev.haflog == 0x1000) = true ∧
    after (exec (.registerWrite 0x220 0 255) plain) (fun t => t.dev.cfglog == 0x22000000180 && t.dev.budget == 2400) = true ∧
    after (exec (.registerWrite 0x220 0x6400000000 255) plain) (fun t => t.dev.budget == 100 && t.dev.cfglog == 0) = true := by decide +kernel

/-- Partition 0 with a segment table in W0 whose first entries are W2 with I, and W3 with R, W, N and H; its queue of 4 entries lies at the
first line of W3. -/
def hosted : State :=
  let s := tabled (holding (holding plain 0x2000 16 entry1) 0x2010 16 (2 ^ 64 * w3.toNat + 2 ^ 16 * 0x200000 + 0x33)) (w0 + 0x2000)
  s.setPartAt 0 { s.partAt 0 with qbase := w3, qlen := 4, head := 3, kicked := 3, cqlen := 4, cqw := 5 }

theorem test_kicks : hosted.dev.bootErr = 0 ∧ ((5 : Half) - (hosted.partAt 0).head).toNat ≤ (hosted.partAt 0).qlen ∧
    (hosted.partAt 0).qlen < ((8 : Half) - (hosted.partAt 0).head).toNat ∧
    after (exec (.kick 0 8) hosted) (fun t => (t.partAt 0).qerr == 1 && (t.partAt 0).head == 3) = true ∧
    after (exec (.kick 0 5) (holding hosted (2 ^ 41 + 0x2000C0) 1 7)) (fun t => (t.partAt 0).hostQueue == [some 7, some 0] && (t.partAt 0).head == 5) = true := by
  decide +kernel

theorem test_completion_queue_reads : (hosted.partAt 0).records = [] ∧ ((hosted.partAt 0).cqw - 1).toNat ≤ (hosted.partAt 0).cqlen ∧
    (hosted.partAt 0).cqlen < ((hosted.partAt 0).cqw - 0).toNat ∧ after (exec (.cqrWrite 0 1) hosted) (fun t => (t.partAt 0).cqr == 1) = true ∧
    after (exec (.cqrWrite 0 0) hosted) (fun t => t.dev.cfglog == 0x30003800000380) = true := by decide +kernel

theorem test_host_invalidates : let s := plain.setPortAt 3 { plain.portAt 3 with remote := [⟨0, w2 + 0x200000, 77, 1⟩, ⟨0, w2 + 0x40, 78, 2⟩] }
    let v : Word := 0x200000000
    winOf (localAddr v) = some .w2 ∧ v.toNat / 2 ^ 61 = 0 ∧ winOf (localAddr 0x40) = some .w0 ∧
    after (exec (.pginvh v) s) (fun t => (t.portAt 3).remote == [⟨0, w2 + 0x200000, 77, 1⟩]) = true ∧
    after (exec (.pginvh 0x40) s) (fun t => t.dev.cfglog == 0x2001000000180) = true := by decide +kernel

theorem test_records_removed : let e : FaultEnt := ⟨0, w2, 0, [.slot 3], true, false, false, false⟩
    let a : FaultEnt := { e with va := w3, reported := false }
    let s := plain.setPortAt 3 { plain.portAt 3 with faults := [a, e] }
    let g := plain.setPortAt 3 { plain.portAt 3 with faults := [{ e with ended := true }] }
    let m := plain.setMonarch 0 { plain.monarch 0 with records := [7, 8], ovf := true }
    (s.portAt 3).faults = [a] ++ e :: [] ∧ e ∉ [a] ∧ a.reported = false ∧ (m.monarch 0).records = 7 :: [8] ∧
    after (exec (.faultRecordRemove 3 1) s) (fun t => (t.portAt 3).faults == [a, { e with removed := true }]) = true ∧
    after (exec (.faultRecordRemove 3 2) s) (fun t => (t.portAt 3).faults == [a, e]) = true ∧
    after (exec (.faultRecordRemove 3 1) g) (fun t => (t.portAt 3).faults == []) = true ∧
    after (exec (.monarchRecordRemove 0 1) m) (fun t => (t.monarch 0).records == [8] && !(t.monarch 0).ovf) = true := by decide +kernel

theorem test_resumes_asked : let s := stopping 0 (fun p => { p with regs := { p.regs with stopcnt := 2 * 2 ^ 62 + 10 } }) []
    let j := { s with dev := { s.dev with jobV := true } }
    let v : Word := 0xC000000000001388
    j.isJob0 = true ∧ v.toNat / 2 ^ 62 = 3 ∧ j.stopState 0 = 2 ∧ j.refcnt + 4096 ≤ v.toNat % 2 ^ 56 ∧ s.isJob0 = false ∧
    after (exec (.resumeRequest 0 v) j) (fun t => (t.partAt 0).regs.stopcnt == v) = true ∧
    after (exec (.resumeRequest 0 v) s) (fun t => t.stopState 0 == 2 && t.dev.cfglog == 0x1021000000380) = true := by decide +kernel

theorem test_frames_added : (plain.partAt 0).regs.reccfg.toNat % 2 = 0 ∧
    after (exec (.fpcntAdd 0 0x0003000000000000) plain) (fun t => (t.partAt 0).regs.fpcnt == 3) = true ∧
    after (exec (.fpcntAdd 0 5) plain) (fun t => (t.partAt 0).regs.fpcnt == 0) = true := by decide +kernel

/-- Partition 0 of slots 0 to 7 and banks 0 to 7, and partition 1 as it is asked for. -/
theorem test_partitions_made : let s := { plain with dev := { plain.dev with pdef := plain.dev.pdef.set 0 0x8001010000FF00FF } }
    let v : Word := 0x000202000F000F00
    let w := v ||| 0x8000000000000000
    s.dev.bootErr = 0 ∧ pdefV (s.pdefOf 1) = false ∧ (1 : Fin 8).val < s.split ∧ (8 : Fin 16) ≠ 9 ∧ (pdefSlots w).getLsbD (8 : Fin 16).val = true ∧
    (pdefSlots w).getLsbD (9 : Fin 16).val = true ∧ pdefDies w &&& ~~~ s.dev.dies = 0 ∧ 1 ≤ pdefRsv w ∧ pdefRsv w ≤ 32 ∧
    (∀ q, q ≠ 1 → pdefV (s.pdefOf q) = true → pdefDies (s.pdefOf q) &&& pdefDies w = 0) ∧
    (((List.finRange 8).filter fun q => q != 1 && pdefV (s.pdefOf q)).map fun q => pdefRsv (s.pdefOf q)).sum + pdefRsv w ≤ 128 ∧
    after (exec (.partitionCreate 1 v) s) (fun t => t.pdefOf 1 == w && (t.partAt 1).regs == {}) = true ∧
    after (exec (.partitionCreate 0 v) s) (fun t => t.pdefOf 0 == s.pdefOf 0 && t.dev.cfglog == 0x24000000380) = true := by decide +kernel

theorem test_partitions_dissolved : let s := flying plain (.kill 3)
    let v : Word := 0x0000FF00FFFFFFFF
    let w := v &&& 0x7FFFFFFFFFFFFFFF
    s.dev.bootErr = 0 ∧ pdefV (s.pdefOf 0) = true ∧ (8 : Fin 16) ≠ 9 ∧ (pdefSlots w).getLsbD (8 : Fin 16).val = true ∧
    (pdefSlots w).getLsbD (9 : Fin 16).val = true ∧ pdefDies w &&& ~~~ s.dev.dies = 0 ∧
    (∀ q, q ≠ 0 → pdefV (s.pdefOf q) = false) ∧
    (((List.finRange 8).filter fun q => q != 0 && pdefV (s.pdefOf q)).map fun q => pdefRsv (s.pdefOf q)).sum ≤ 128 ∧
    after (exec (.partitionDissolve 0 v) s) (fun t => !pdefV (t.pdefOf 0) && t.slot.run == .free && t.net == []) = true := by decide +kernel

theorem test_keys_load : let l := { plain with dev := { plain.dev with kstat := 1 } }
    (1 : Word).getLsbD 0 = true ∧ plain.dev.kstat ≠ 1 ∧ l.dev.kstat = 1 ∧
    after (exec (.keyLoad 1) plain) (fun t => t.dev.kstat == 1) = true ∧ after (exec (.keyLoad 1) l) (fun t => t.dev.cfglog == 0x42000800000380) = true := by
  decide +kernel

theorem test_attests : let l := { plain with dev := { plain.dev with attesting := true } }
    plain.dev.attesting = false ∧ l.dev.attesting = true ∧ after (exec (.attestRequest 1) plain) (fun t => t.dev.attesting) = true ∧
    after (exec (.attestRequest 1) l) (fun t => t.dev.cfglog == 0x41004000000380) = true := by decide +kernel

theorem test_cold_resets : after (exec (.coldReset true true true) plain) (fun t => t.slots == [] && t.mem == [] && t.dev.boot == 4 && t.dev.msix == [0]) = true ∧
    after (exec (.coldReset true false true) plain) (fun t => t.dev.bootErr == 2 && t.dev.boot == 1) = true := by decide +kernel

theorem test_host_reads : let g : Seg := ⟨w3, 0x200000, 0x33⟩
    let s := holding hosted (2 ^ 41 + 0x200000 + 0x40) 1 9
    s.hostPlace 0 (2 ^ 32 + 0x48) (.allOnes 64) false = some (g, ⟨2 ^ 41 + 0x200040, 0, false⟩) ∧ g.i = false ∧
    okIs (s.readAt (hdmAddr ((2 ^ 32 + 0x48) / 64 * 64)) ⟨2 ^ 41 + 0x200040, 0, false⟩ 64) 9 = true ∧ s.hostPlace 0 (2 ^ 33) (.allOnes 64) false = none ∧
    after (exec (.hostMemRead 0 0x100000048) s) (fun t => t.dev.answer == some 9) = true ∧
    after (exec (.hostMemRead 0 0x200000000) s) (fun t => t.dev.answer == some (2 ^ 512 - 1) && t.dev.hmlog == 0x0101000000000080) = true := by decide +kernel

theorem test_host_refusals : pdefV (plain.pdefOf 1) = false ∧ (hosted.hostPlace 0 0 1 true).isSome = true ∧
    (hosted.hostPlace 0 0 1 false).isSome = true := by decide +kernel

theorem test_host_stores : let s := hosted
    let g : Seg := ⟨w3, 0x200000, 0x33⟩
    let bad := { s with bad := [(2 ^ 41 + 0x200040) / 64] }
    s.badAt (2 ^ 41 + 0x200040) = false ∧ bad.badAt (2 ^ 41 + 0x200040) = true ∧
    after (exec (.hostMemWrite 0 0x100000048 2 0x7766) bad) (fun t => t.dev.hmlog == 0x0100000000400180 && t.mem == bad.mem) = true ∧ (2 : BitVec 64) ≠ 0 ∧ s.hostPlace 0 (2 ^ 32 + 0x48) 2 true = some (g, ⟨2 ^ 41 + 0x200040, 0, false⟩) ∧
    (s.hostPlace 0 0x48 2 true).map (·.1) = some ⟨w2, 0x200000, 0x0B⟩ ∧ (⟨w2, 0x200000, 0x0B⟩ : Seg).i = true ∧ g.i = false ∧
    (s.partAt 0).regs.reccfg.toNat % 2 = 0 ∧ s.hostPlace 0 (2 ^ 33) 2 true = none ∧ pdefV (s.pdefOf 0) = true ∧ pdefV (s.pdefOf 1) = false ∧
    after (exec (.hostMemWrite 0 0x48 0 0x7766) s) (fun t => t == s) = true ∧
    after (exec (.hostMemWrite 1 0x48 2 0x7766) s) (fun t => t.dev.hmlog == 0x0002000000402180 && t.ports == s.ports) = true ∧
    after (exec (.hostMemWrite 0 0x100000048 2 0x7766) s) (fun t => t.mem.byte (2 ^ 41 + 0x200041) == 0x77 && t.mem.byte (2 ^ 41 + 0x200040) == 0) = true ∧
    after (exec (.hostMemWrite 0 0x200000000 2 0) s) (fun t => t.dev.hmlog == 0x0101000000000180) = true := by decide +kernel

/-- A new entry of the host's, a second write to its line, and a full buffer. -/
theorem test_host_instant_stores : let s := hosted
    let n := (s.hostPlace 0 0x48 2 true).elim 0 (·.2.phys)
    let e : Pending := ⟨0, n / 64, 1, 0, true, [(1, 0, 0x77), (2, 0, 5)]⟩
    let u := s.setPortAt 0 { s.portAt 0 with pending := [{ e with v := 2 }, e] }
    let f := s.setPortAt 0 { s.portAt 0 with pending := .replicate 4096 { e with v := 2 } }
    n % 64 = 0 ∧ (s.hostPlace 0 0x48 2 true).map (·.2.home / 16) = some 0 ∧ (s.portAt 0).pending = [] ∧ 4096 ≤ (f.portAt 0).pending.length ∧
    after (exec (.hostMemWrite 0 0x48 2 0x7766) s) (fun t => (t.portAt 0).pending == [{ e with bytes := [(1, 0, 0x77)] }] && t.mem == s.mem) = true ∧
    after (exec (.hostMemWrite 0 0x48 6 0x998866) u) (fun t => (t.portAt 0).pending == [{ e with v := 2 }, { e with bytes := [(1, 0, 0x88), (2, 0, 0x99)] }]) = true ∧
    after (exec (.hostMemWrite 0 0x48 2 0x7766) f) (fun t => t.dev.hmlog == 0x0002000000400180 && t.mem == f.mem) = true := by decide +kernel

theorem test_host_atomics : let s := holding hosted (2 ^ 41 + 0x200040) 8 9
    let off : BitVec 64 := 0x10000000040
    (0 : Fin 8).val = off.toNat / 2 ^ 48 % 8 ∧ ownAddr (off.setWidth 48) = w3 + 0x40 ∧
    s.atomicPlace 0 (w3 + 0x40) (dsizeBytes .d) = some ⟨2 ^ 41 + 0x200040, 0, false⟩ ∧ s.atomicPlace 0 (w3 + 0x41) (dsizeBytes .d) = none ∧
    (s.partAt 0).regs.reccfg.toNat % 2 = 0 ∧
    after (exec (.hostAtomic off .fetchAdd .d 5 0) s) (fun t => t.dev.answer == some 9 && t.mem.read (2 ^ 41 + 0x200040) 8 == 14) = true ∧
    after (exec (.hostAtomic off .cas .d 5 9) s) (fun t => t.mem.read (2 ^ 41 + 0x200040) 8 == 5) = true ∧
    after (exec (.hostAtomic 0x10000000041 .swap .d 5 0) s) (fun t => t.dev.answer == none && t.dev.haflog == 0x0100000000410080) = true ∧
    after (exec (.hostAtomic off .cas128 .d 5 0) s) (fun t => t.dev.answer == none) = true := by decide +kernel

/-! ## Launches, pages, idle turns, and all instructions -/

def launching (f : Part → Part) : State :=
  let s := holding (holding hosted (2 ^ 41 + 0x200100) 8 (4 * 2 ^ 32)) (2 ^ 41 + 0x200108) 8 (w0 + 0x500).toNat
  s.setPartAt 0 (f (s.partAt 0))

theorem test_launches_taken : let s := launching fun x => { x with queue := [(task1, 3)], hostQueue := [some (task1 + 1)] }
    let h := launching fun x => { x with hostQueue := [some task1] }
    let b := launching fun x => { x with queue := [(task1 + 2 ^ 448, 3)] }
    let w := launching fun x => { x with queue := [(task1, 3)], ahead := [(0, 1)] }
    let v := launching fun x => { x with hostQueue := [some task1], ahead := [(0, 0)] }
    let e := launching fun x => { x with queue := [(task1, 3)], regs := { x.regs with qepoch := 5 } }
    let d := { s with dev := { s.dev with pdef := .replicate 8 0 } }
    s.running 0 = true ∧ (s.partAt 0).regs.qepoch.toNat % 2 ^ 56 ≤ s.refcnt ∧ (s.partAt 0).ahead = [] ∧ (s.partAt 0).parked = [] ∧
    (s.partAt 0).regs.reccfg.toNat % 2 = 0 ∧ (s.partAt 0).queue = (task1, 3) :: [] ∧ (h.partAt 0).queue = [] ∧ (h.partAt 0).hostQueue = some task1 :: [] ∧
    okIs ((s.setPartAt 0 ((s.partAt 0).takeHead false)).checkLaunch 0 task1) (w0 + 0x500, false, false) = true ∧
    okIs ((h.setPartAt 0 ((h.partAt 0).takeHead true)).checkLaunch 0 task1) (w0 + 0x500, false, false) = true ∧
    errIs ((b.setPartAt 0 ((b.partAt 0).takeHead false)).checkLaunch 0 (task1 + 2 ^ 448)) 1 = true ∧
    (w.partAt 0).queue ≠ [] ∧ (∃ a ∈ (w.partAt 0).ahead, a.1 = 0) ∧ (v.partAt 0).queue = [] ∧ (∃ a ∈ (v.partAt 0).ahead, a.2 = 0) ∧ e.refcnt < (e.partAt 0).regs.qepoch.toNat % 2 ^ 56 ∧ d.running 0 = false ∧
    after (exec (.launchTake 0) s) (fun t => (t.partAt 0).launches.map (fun l => (l.core, l.host, l.entry)) == [(3, false, w0 + 0x500)]) = true ∧
    after (exec (.launchTake 0) h) (fun t => (t.partAt 0).launches.map (fun l => (l.core, l.host)) == [(0, true)]) = true ∧
    after (exec (.launchTake 0) b) (fun t => (t.partAt 0).launches == [] && (t.partAt 0).queue == []) = true ∧
    after (exec (.launchTake 0) w) (fun t => (t.partAt 0).queue.length == 1) = true ∧
    after (exec (.launchTake 0) v) (fun t => (t.partAt 0).hostQueue.length == 1) = true := by decide +kernel

theorem test_crews_start : let s := launching fun x => { x with launches := [launch1] }
    let late := launching fun x => { x with launches := [{ launch1 with started := [0] }] }
    (s.partAt 0).launches.find? (fun m => m.id == launch1.id) = some launch1 ∧ s.running 0 = true ∧ s.crewReady 0 launch1 0 = true ∧
    s.holdsBack launch1 0 = false ∧ descRes launch1.desc = false ∧ descCrew launch1.desc = 1 ∧ descTeam launch1.desc = 1 ∧
    (s.teamSlots 0 (crewCluster launch1.desc 0 * 16 + descCore0 launch1.desc)).head? = some 1 ∧ late.crewReady 0 { launch1 with started := [0] } 0 = false ∧
    after (exec (.crewStart 0 5 0) s) (fun t => (t.slotAt 1).ctx.pc == w0 + 0x500 && (t.slotAt 1).ctx.g[0] == 77 && (t.slotAt 1).task == some (5, 0)) =
      true := by decide +kernel

/-- The second 2 MiB of W3 have a table with no entry yet; the pool holds one frame. -/
def faulting (r : Bool) (k : Nat) (h : Bool := false) : State :=
  let s := holding (holding plain (2 ^ 41 + 0x40008) 8 (2 ^ 63 + 0x50000)) (2 ^ 41 + 0x201000) 8 (2 ^ 63 + 2 ^ 62 + 0x600000)
  let s := s.setPartAt 0 { s.partAt 0 with regs := { (s.partAt 0).regs with fpbase := w3 + 0x1000, fpcnt := 1 } }
  s.setPortAt 2 { s.portAt 2 with faults := [⟨0, w3 + 0x230040, k, [.slot 6], r, false, false, h⟩] }

theorem test_pages_resolved : let s := holding (faulting false 1) (2 ^ 41 + 0x600100) 1 9
    let n := s.setPartAt 0 { s.partAt 0 with regs := { (s.partAt 0).regs with fpcnt := 0 } }
    let e : FaultEnt := ⟨0, w3 + 0x230040, 1, [.slot 6], false, false, false, false⟩
    s.mem.wf = true ∧ (s.portAt 2).faults[0]? = some e ∧ ((faulting false 1 true).portAt 2).faults[0]?.map (·.toHost) = some true ∧
    s.walk 0 (winOf (localAddr e.va) == some .w3) (localAddr e.va) = .noTab (2 ^ 41 + 0x50018) ∧
    (s.takeFrame 0).2 = some 0xC000000000600000 ∧ (n.takeFrame 0).2 = none ∧ ((faulting false 8).portAt 2).faults[0]?.map (·.kind) = some 8 ∧
    after (exec (.pageFaultResolve 2 0) s) (fun t => t.mem.read (2 ^ 41 + 0x50018) 8 == 2 ^ 63 + 2 ^ 62 + 0x600000 && t.mem.byte (2 ^ 41 + 0x600100) == 0 &&
      (t.portAt 2).faults == [] && t.net == [⟨0, .wake 6⟩]) = true ∧
    after (exec (.pageFaultResolve 2 0) n) (fun t => (t.portAt 2).faults == [{ e with reported := true }] && t.dev.msix == [2]) = true ∧
    after (exec (.pageFaultResolve 2 0) (faulting false 8)) (fun t => (t.portAt 2).faults.map (·.reported) == [true]) = true ∧
    after (exec (.pageFaultResolve 2 0) (faulting false 1 true)) (fun t => (t.portAt 2).faults.map (·.reported) == [true] && t.dev.msix == [2]) = true ∧
    after (exec (.pageFaultResolve 2 0) (faulting true 1)) (fun t => t.net == []) = true := by decide +kernel

theorem test_frames_taken : ((faulting false 1).takeFrame 0).2 = some 0xC000000000600000 ∧
    ((((faulting false 1).takeFrame 0).1).partAt 0).regs.fpcnt = 0 ∧ pteL 0xC000000000600000 = true ∧
    (faulting false 1).leafOk 0xC000000000600000 65536 = true := by decide +kernel

theorem test_idle_turns_spill : let w : Window := .replicate 8 5
    let x : Slot := { thread [] with windows := [.replicate 8 3, .replicate 8 4, w], ctx := { (thread []).ctx with wsp := w1 + 0x3040 } }
    let s := many [(1, x)]
    (∀ k, k < 16 → (plain.slotAt (0 * 16 + k)).windows.length < 3) ∧ (1 : Nat) / 16 = 0 ∧ (s.slotAt 0).windows.length < 3 ∧ 3 ≤ (s.slotAt 1).windows.length ∧
    (s.slotAt 1).run ≠ .free ∧ s.onDevice ((s.slotAt 1).ctx.wsp - 64) = true ∧ winOf (localAddr ((s.slotAt 1).ctx.wsp - 64)) = some .w1 ∧
    localAddr ((s.slotAt 1).ctx.wsp - 64) / 2 ^ 19 % 2 ^ 11 = 0 ∧ (s.slotAt 1).windows.getLast? = some w ∧
    okIs ({ s with cur := 1 }.access ((s.slotAt 1).ctx.wsp - 64) 64 { w := true, n := true }) (.here ⟨0x3000, 0, false⟩) = true ∧
    s.badAt 0x3000 = false ∧
    after (exec (.idleSpill 0) s) (fun t => (t.slotAt 1).windows.length == 2 && (t.slotAt 1).ctx.wsp == w1 + 0x3000 && t.mem.read 0x3008 8 == 5) = true := by
  decide +kernel

theorem test_privilege_checked : (Instr.idle 0).wf = true ∧ encodeWord (.idle 0) = some 0x0FC00003 ∧ plain.slot.prog.word = none ∧
    plain.ctx.priv < needs (.idle 0) ∧ assigned (.idle 0) = true ∧ assigned (.mfsr 0 3 0x02D) = true ∧ (Instr.mfsr 0 3 0x02D).wf = true ∧
    assigned (.mfsr 0 3 0x1FFF) = false ∧  after (exec (.idle 0) plain) (fun t => t.slot.cause == 2 && t.slot.tval == 0x0FC00003) = true := by decide +kernel

theorem test_handlers_limited : let h := fun n => alone { thread [(4, 40), (5, 50)] with handler := true, hcount := n }
    (encodeWord (.yield 0)).isSome = true ∧ (encodeWord (.add 0 3 4 5)).isSome = true ∧ assigned (.yield 0) = true ∧ assigned (.add 0 3 4 5) = true ∧ barredIn (.yield 0) = true ∧ barredIn (.add 0 3 4 5) = false ∧
    (h 0).slot.handler = true ∧ (h 0).slot.inh = false ∧ 256 ≤ (h 256).slot.hcount ∧
    after (exec (.yield 0) (h 0)) (fun t => t.slot.cause == 0x1B && t.slot.tval == w0 + 0x100) = true ∧
    after (exec (.add 0 3 4 5) (h 255)) (fun t => t.g 3 == 90) = true ∧ after (exec (.add 0 3 4 5) (h 256)) (fun t => t.slot.cause == 0x1B) = true := by
  decide +kernel

theorem test_guards_hold : (Instr.add 2 3 4 5).wf = true ∧ (∃ w, encodeWord (.add 2 3 4 5) = some w ∧ guardHolds (.ofNat 16 (w / 2 ^ 28)) plain = false) ∧
    plain.slot.handler = false ∧ assigned (.add 2 3 4 5) = true ∧ needs (.add 2 3 4 5) ≤ plain.ctx.priv ∧ guardHolds 3 plain = true ∧ (1 : Pred).val = 1 ∧ after (exec (.add 2 3 4 5) plain) (fun t => t.g 3 == 0 && t.ctx.pc == w0 + 0x104) = true ∧
    after (exec (.add 3 3 4 5) plain) (fun t => t.g 3 == 90) = true := by
  refine ⟨by decide +kernel, ⟨_, rfl, by decide +kernel⟩, by decide +kernel⟩

theorem test_steps_go : let s := { plain with dev := { plain.dev with bootErr := 2 } }
    s.agenda = [] ∧ s.dev.bootErr ≠ 0 ∧ (∀ e ∈ s.ports, e.2.stalled = []) ∧ (∀ e ∈ s.cores, e.2.arrivals = []) ∧
    (∀ p, (s.partAt p).completions = [] ∧ (s.partAt p).monarch.reviews = []) ∧ (∀ e ∈ s.dev.optics, e.2.dead = false) ∧
    after (step s) (fun t => t.slot.ctx.pc == plain.slot.ctx.pc && t.cyc == plain.cyc + 1) = true := by decide +kernel

theorem test_steps_keep_memory : plain.Inv := by unfold State.Inv; decide +kernel

/-- ADDI g4, g1, −1 at the PC, and a word that is none. -/
theorem test_step_runs : let s := holding plain 0x100 4 0x00A83FFF
    let u := s.turnTaken 0 0
    let e := { plain with agenda := [(0, .dieUnreachable 2)] }
    s.agenda = [] ∧ s.dev.bootErr = 0 ∧ s.arrivals = [] ∧ s.nextTurn = some (0, some 0) ∧ (s.slotAt 0).prog = {} ∧ u.boundarySend = none ∧
    okIs u.fetchAt (.here ⟨0x100, 0, false⟩) = true ∧ okIs (u.readAt u.ctx.pc ⟨0x100, 0, false⟩ 4) 0x00A83FFF = true ∧ u.slot.ahead = [] ∧
    decode 0x00A83FFF = some (.addi 0 4 1 0x1FFF) ∧ decode 0 = none ∧
    after (step s) (fun t => t.g 4 == 0xFFFFFFFFFFFFFFFF && t.ctx.pc == w0 + 0x104) = true ∧
    after (step plain) (fun t => t.slot.cause == 1 && t.slot.tval == 0) = true ∧
    after (step e) (fun t => t.dev.unreachable == 4 && t.agenda == []) = true := by decide +kernel

theorem test_words_round_trip : (Instr.movi 0 1 32).wf = true ∧ encode (.movi 0 1 32) = some (32, 0x01820020) ∧ decode 0x01820020 = some (.movi 0 1 32) ∧
    decodeTableWord 32 0x01820020 = some (.movi 0 1 32) ∧ (268435456 : Nat) / 2 ^ 28 = 1 := by decide +kernel

end Sys2Proof.Tests
end

section
/-! O43, PGINV (R379): the completion of a host launch waits for the page of its CDST. When a PGINV of the region wakes it and the page
has become malformed, its record goes to the host queue's completion area (R230, R403), so memory does not read as it did. -/

namespace Sys2Proof.Machine

/-! ## PGINV with its drain done -/

/-- A drain that has nothing to wait for goes on with the rest of its instruction. -/
theorem drain_of_drained {s : State} {c : Scope} (h : s.Drained c) (i : Instr) (k : State → Out) : drain i c k s = k s := by
  obtain ⟨hu, ho⟩ := h
  have hn : (s.scopeRouters s.cluster c).filter s.owes = [] := List.filter_eq_nil_iff.mpr fun r hr => by simp [ho r hr]
  unfold drain
  split
  · rfl
  · rw [if_neg (not_not_intro hu), hn]
    rfl

/-- PGINV, drained, of an address of this device in W2 or W3 completes with the invalidation for the thread's partition. -/
theorem exec_pginv_drained {s : State} {g : Guard} {a : Reg} (hp : s.Performs g 1 false) (hh : s.slot.handler = false)
    (hon : s.onDevice (s.g a) = true) (hlt : (s.g a).toNat < 2 ^ 61)
    (hw : winOf (localAddr (s.g a)) = some .w2 ∨ winOf (localAddr (s.g a)) = some .w3) (hd : s.Drained .dev) :
    exec (.pginv g a) s = .next (settle s (.seq (s.pginv s.slot.part (localAddr (s.g a))))) := by
  change execPginv g a s = _
  rw [execPginv, issue_performs hp, State.counted_of_plain hh]
  rcases hw with e | e <;>
    simp only [hon, hlt, e, decide_true, Bool.and_self, if_true, drain_of_drained hd]

/-- A completion changes the slot alone, so memory stays as the effect left it. -/
theorem settle_seq_mem (s₀ s : State) : (settle s₀ (.seq s)).mem = s.mem := rfl

/-! ## A completion that a PGINV wakes -/

/-- A supervisor's thread with an address in the second 2 MiB of W2 in g4. The first 2 MiB of W2 lie in die 0's SRAM and hold the
completion area of the host queue; the second have no entry yet. -/
def beforeCompletion : State :=
  { State.reset with
    mem := Mem.write [] (2 ^ 41 + 0x30000) 8 (2 ^ 63 + 2 ^ 62 + 2 ^ 52)
    slots := [(0, { run := .runnable, ctx := { g := (Vector.replicate 16 0).set 4 0x1FFF000200200000, mode := 5 } })]
    parts := State.reset.parts.set 0 { regs := { ptw2 := 0x8000000000030000 }, cqbase := 0x1FFF000200000000, cqlen := 1 }
    dev := { State.reset.dev with pdef := State.reset.dev.pdef.set 0 placedPdef } }

/-- A host launch of one task has ended with its CDST at that address, so its completion waits for the page (R230); then the page's
directory entry is written with a reserved bit set (R140). -/
def completionWaits : State :=
  (beforeCompletion.complete 0 0x1FFF000200200000 0 0 true (completionMsg 0x1FFF 0xFFFFFFFF 0 1 true false false 0 0 0 0)).nowWrite 0
    (2 ^ 41 + 0x30008) 8 (2 ^ 63 + 2 ^ 62 + 1) none none

theorem completionWaits_performs : completionWaits.Performs 0 1 false := by decide +kernel

theorem completionWaits_drained : completionWaits.Drained .dev := by decide +kernel

/-- The woken completion is written at CQBASE: byte 20 of the area, the lowest of RETIRED (R231), is 1 where it was 0. -/
theorem pginv_writes_record : completionWaits.mem.byte (2 ^ 40 + 20) = 0 ∧
    (completionWaits.pginv completionWaits.slot.part (localAddr (completionWaits.g 4))).mem.byte (2 ^ 40 + 20) = 1 := by
  decide +kernel

/-- The frame `SameMem` of PGINV fails where a completion that it wakes falls back to the completion area. -/
theorem not_pagesInvalidated : ¬ Rules.PagesInvalidated := by
  intro h
  have hon : completionWaits.onDevice (completionWaits.g 4) = true := by decide +kernel
  have hlt : (completionWaits.g 4).toNat < 2 ^ 61 := by decide +kernel
  have hw : winOf (localAddr (completionWaits.g 4)) = some .w2 := by decide +kernel
  obtain ⟨t, ht, hmem, -⟩ :=
    (h completionWaits 0 4 completionWaits_performs rfl).1 hon hlt (.inl hw) completionWaits_drained
  rw [exec_pginv_drained completionWaits_performs rfl hon hlt (.inl hw) completionWaits_drained] at ht
  obtain rfl := Host.Outcome.next.inj ht
  obtain ⟨hold, hnew⟩ := pginv_writes_record
  have hread := hmem (2 ^ 40 + 20)
  rw [settle_seq_mem, hnew, hold] at hread
  exact absurd hread (by decide)

end Sys2Proof.Machine

/-- Refutes O43: in `completionWaits`, PGINV writes a completion record to memory, which its clause on PGINV (R379) excludes. -/
theorem not_segmentsAndPages : ¬ Obligations.SegmentsAndPages :=
  fun ⟨_, _, h⟩ => Sys2Proof.Machine.not_pagesInvalidated h

end

section
/-! SUPPORT for O47. What writes of a port and of a partition leave of the others, and the end of a word that writes a predicate (R102). -/

namespace Sys2Proof.Machine

/-! ## Ports and partitions -/

theorem State.portAt_setPortAt_ne (s : State) {c k : Nat} (x : Port) (h : k ≠ c) : (s.setPortAt c x).portAt k = s.portAt k :=
  Table.get_set_ne _ _ _ h

theorem State.partAt_setPartAt_ne (s : State) {p q : Fin 8} (x : Part) (h : q ≠ p) : (s.setPartAt p x).partAt q = s.partAt q := by
  simp [State.partAt, State.setPartAt, Fin.val_ne_of_ne h.symm]

theorem State.setPartAt_setPartAt (s : State) (p : Fin 8) (x y : Part) : (s.setPartAt p x).setPartAt p y = s.setPartAt p y := by
  simp [State.setPartAt]

theorem Table.get_unlisted {α : Type} (d : α) {t : Table α} {n : Nat} (h : n ∉ t.map (·.1)) : t.get d n = d := by
  induction t with
  | nil => rfl
  | cons e r ih =>
    obtain ⟨k, v⟩ := e
    rw [List.map_cons, List.mem_cons, not_or] at h
    rw [Table.get, if_neg h.1, ih h.2, ite_self]

/-- The bits of a byte with one bit set. -/
theorem getLsbD_one_shiftLeft (d : Fin 8) (k : Nat) : (1#8 <<< d.val).getLsbD k = decide (d.val = k) := by
  rw [← BitVec.twoPow_eq, BitVec.getLsbD_twoPow, decide_eq_true d.isLt, Bool.true_and]

/-! ## Words that end in a predicate's write (R102) -/

/-- A byte's bits after one of them is written. -/
theorem getLsbD_setBit (P : Byte) (d n : Fin 8) (b : Bool) :
    (if b then P ||| (1#8 <<< d.val) else P &&& ~~~ (1#8 <<< d.val)).getLsbD n.val =
      if n = d then b else P.getLsbD n.val := by
  cases b <;> by_cases h : n = d
  · simp [h]
  · simp only [Bool.false_eq_true, if_false, BitVec.getLsbD_and, BitVec.getLsbD_not, getLsbD_one_shiftLeft]
    simp [h, Ne.symm (Fin.val_ne_of_ne h)]
  · simp [h]
  · simp only [if_true, BitVec.getLsbD_or, getLsbD_one_shiftLeft]
    simp [h, Ne.symm (Fin.val_ne_of_ne h)]

/-- A predicate's write changes that bit of the predicates alone, and none for p0. -/
theorem SlotOnly.putP {s u : State} {x : Slot} (h : SlotOnly s u x) (d : Pred) (b : Bool) :
    ∃ P, SlotOnly s (u.putP d b) { x with ctx := { x.ctx with p := P } } ∧
      ∀ n : Pred, n ≠ 0 → P.getLsbD n.val = if n = d then b else x.ctx.p.getLsbD n.val := by
  by_cases hd : d = 0
  · subst hd
    exact ⟨x.ctx.p, by simpa using h, fun n hn => (if_neg hn).symm⟩
  · refine ⟨_, ?_, fun n _ => getLsbD_setBit x.ctx.p d n b⟩
    have hx : u.ctx = x.ctx := congrArg Slot.ctx h.slot
    rw [State.putP, if_neg hd, hx, State.setCtx, h.slot]
    exact h.set _

/-- With no open choice point the trail has room. -/
theorem State.trailRoom_of_closed {s : State} (h : s.slot.open_ = false) : s.TrailRoom := by
  simp only [Slot.open_, Slot.speculative, Bool.and_eq_false_iff, Bool.or_eq_false_iff, Bool.not_eq_false'] at h
  rcases h with ⟨hp, -⟩ | hi
  · exact .inl (List.isEmpty_iff.1 hp)
  · exact .inr (.inl hi)

theorem State.counted_dev (s : State) : s.counted.dev = s.dev := by
  obtain ⟨k, -, h, -⟩ := s.counted_eq
  rw [h]

theorem State.counted_refcnt (s : State) : s.counted.refcnt = s.refcnt := by
  obtain ⟨k, -, h, -⟩ := s.counted_eq
  rw [h]

theorem State.counted_pc (s : State) : s.counted.ctx.pc = s.ctx.pc := by
  obtain ⟨k, h, -, -⟩ := s.counted_eq
  rw [State.ctx_eq, h]
  rfl

/-- What a word that ends in a predicate's write leaves: the predicate, PC, and nothing else of R102's. -/
structure PredSet (s t : State) (d : Pred) (b : Bool) : Prop where
  pred : t.p d = (decide (d = 0) || b)
  ctx : t.ctx = { s.ctx with p := t.ctx.p, pc := t.ctx.pc, loops := t.ctx.loops }
  pc : t.ctx.pc = s.nextPc
  frame : RegFrame s t [] [d]

/-- The end of a body that writes a predicate where the trail has room. -/
theorem setP_ends {s : State} (d : Pred) (b : Bool) (hr : s.TrailRoom) :
    ∃ u, Out.setP d b s.counted = .seq u ∧
      ∀ s₀ : State, s₀.ctx.pc = s.ctx.pc → PredSet s (settle s₀ (.seq u)) d b := by
  obtain ⟨v, hv, hv'⟩ := setP_room d b (State.trailRoom_counted hr)
  obtain ⟨k, hk⟩ := SlotOnly.counted s
  obtain ⟨l, hl⟩ : ∃ l, SlotOnly s v { s.slot with hcount := k, trail := l } := by
    rcases hv' with rfl | ⟨l, rfl⟩
    · exact ⟨_, hk⟩
    · exact ⟨l, by simpa [hk.slot] using hk.set { s.counted.slot with trail := l }⟩
  obtain ⟨P, hP, hbits⟩ := hl.putP d b
  refine ⟨v.putP d b, by rw [Out.setP, hv]; rfl, fun s₀ h₀ => ?_⟩
  have ht := hP.set { (v.putP d b).slot with ctx := (v.putP d b).ctx.endCheck s₀.ctx.pc, prog := {} }
  change SlotOnly s (settle s₀ (.seq (v.putP d b))) _ at ht
  have hs := ht.slot
  rw [State.ctx_eq, hP.slot, h₀, Ctx.endCheck_eq] at hs
  refine ⟨?_, ?_, ?_, RegFrame.of hs ht.others ht.rest (fun n _ => rfl) fun n hn h0 => ?_⟩
  · by_cases hd : d = 0
    · simp [hd]
    · simp only [State.p, State.ctx_eq, hs, hbits d hd, if_pos]
  · simp only [State.ctx_eq, hs]
  · rw [State.ctx_eq, hs]
    exact Ctx.endCheck_pc_congr _ rfl
  · rw [hbits n h0, if_neg (by simpa using hn)]

end Sys2Proof.Machine
end

section
/-! O47: clock stretches and unreachable dies (R232, R390), the power pools (R392), FREQAT and the frequency switch (R391). -/

namespace Sys2Proof.Machine

/-! ## Clock stretches and dies (R232, R390) -/

theorem exec_clockStretch {s : State} {region : Nat} (hr : region < 128) (hs : (s.portAt region).suspended = false) :
    exec (.clockStretch region) s = .next (s.setPortAt region
      { s.portAt region with suspended := true, stretch := (s.portAt region).stretch + 1 }) := by
  change execClockStretch region s = _
  rw [execClockStretch, hs, Bool.false_or, if_neg (by simpa using hr)]

theorem exec_dieUnreachable {s : State} {die : Fin 8} (h : s.dieOn die = true) :
    exec (.dieUnreachable die) s = .next
      { s with dev := { s.dev with unreachable := s.dev.unreachable ||| (1#8 <<< die.val) } } :=
  congrArg Host.Outcome.next (if_pos h)

theorem stretchesAndDies : Rules.StretchesAndDies := by
  intro s region die
  constructor
  · intro hr hs
    exact ⟨_, exec_clockStretch hr hs, State.portAt_setPortAt .., fun k hk => State.portAt_setPortAt_ne _ _ hk, rfl⟩
  · intro hd
    refine ⟨_, exec_dieUnreachable hd, ?_, fun k hk => ?_, rfl⟩
    · rw [BitVec.getLsbD_or, getLsbD_one_shiftLeft, decide_eq_true rfl, Bool.or_true]
    · rw [BitVec.getLsbD_or, getLsbD_one_shiftLeft, decide_eq_false hk.symm, Bool.or_false]

/-! ## Power pools (R392) -/

/-- One die's pool takes its share. -/
def State.fillPool (share : Nat) (s : State) (d : Nat) : State :=
  s.setDieAt d { s.dieAt d with pool := min ((s.dieAt d).pool + share) (2 ^ 24 - 1) }

theorem State.dieAt_fillPool_same (share : Nat) (s : State) (d : Nat) : (s.fillPool share d).dieAt d =
    { s.dieAt d with pool := min ((s.dieAt d).pool + share) (2 ^ 24 - 1) } := Table.get_set_same ..

theorem State.dieAt_fillPool_ne (share : Nat) (s : State) {d k : Nat} (h : k ≠ d) : (s.fillPool share d).dieAt k = s.dieAt k :=
  Table.get_set_ne _ _ _ h

theorem State.dieAt_fillPools_out (share : Nat) {l : List Nat} (s : State) {k : Nat} (h : k ∉ l) :
    (l.foldl (State.fillPool share) s).dieAt k = s.dieAt k := by
  induction l generalizing s with
  | nil => rfl
  | cons d l ih =>
    obtain ⟨hd, hl⟩ := not_or.1 (mt List.mem_cons.2 h)
    rw [List.foldl_cons, ih _ hl, dieAt_fillPool_ne _ _ hd]

theorem State.dieAt_fillPools_in (share : Nat) {l : List Nat} (hl : l.Nodup) (s : State) {k : Nat} (h : k ∈ l) :
    (l.foldl (State.fillPool share) s).dieAt k =
      { s.dieAt k with pool := min ((s.dieAt k).pool + share) (2 ^ 24 - 1) } := by
  induction l generalizing s with
  | nil => exact absurd h List.not_mem_nil
  | cons d l ih =>
    obtain ⟨hd, hl⟩ := List.nodup_cons.1 hl
    rw [List.foldl_cons]
    rcases List.mem_cons.1 h with rfl | hk
    · rw [dieAt_fillPools_out _ _ hd, dieAt_fillPool_same]
    · rw [ih hl _ hk, dieAt_fillPool_ne _ _ (ne_of_mem_of_not_mem hk hd)]

/-- The refill changes the dies alone. -/
theorem State.fillPools_eq (share : Nat) (l : List Nat) (s : State) :
    l.foldl (State.fillPool share) s = { s with dies := (l.foldl (State.fillPool share) s).dies } := by
  induction l generalizing s with
  | nil => rfl
  | cons d l ih => rw [List.foldl_cons, ih]; rfl

/-- The share of R392, of the budget that the measured power leaves. -/
def State.poolShare (s : State) : Nat :=
  (s.dev.budget.toNat - (Config.measuredPower s.refcnt).toNat) * 64000 / ((List.range 8).filter s.dieOn).length

/-- The state with MEAS as it is measured (R392). -/
def State.measured (s : State) : State :=
  { s with dev := { s.dev with meas := (Config.measuredPower s.refcnt).setWidth 32 } }

theorem State.measured_meas (s : State) : s.measured.dev.meas.toNat = (Config.measuredPower s.refcnt).toNat :=
  BitVec.toNat_setWidth_of_le (by omega)

theorem exec_powerPoolRefill (s : State) : exec .powerPoolRefill s =
    .next (((List.range 8).filter s.dieOn).foldl (State.fillPool s.poolShare) s.measured) := rfl

theorem poolsRefilled : Rules.PoolsRefilled := by
  intro s
  have he := State.fillPools_eq s.poolShare ((List.range 8).filter s.dieOn) s.measured
  refine ⟨_, s.poolShare, exec_powerPoolRefill s, fun a => congrArg (·.mem.byte a) he, (congrArg State.slots he).trans rfl,
    fun d hd hon => ?_, fun d hoff => ?_, ?_⟩
  · rw [State.dieAt_fillPools_in _ (List.nodup_range.filter _) _ (List.mem_filter.2 ⟨List.mem_range.2 hd, hon⟩)]
    exact ⟨rfl, rfl⟩
  · exact State.dieAt_fillPools_out _ _ fun h => by simp [hoff] at h
  · rw [he, State.poolShare, ← s.measured_meas]

/-! ## FREQAT and the frequency switch (R391) -/

/-- The state with a FREQAT accepted, before its predicate is written. -/
def State.scheduled (s : State) (code at_ : Word) : State :=
  { s with dev := { s.dev with freqPend := code.setWidth 3, freqPv := true, freqAt := at_.toNat } }

theorem State.scheduled_counted (s : State) (code at_ : Word) : (s.scheduled code at_).counted = s.counted.scheduled code at_ := by
  rw [State.counted, State.counted, apply_ite (State.scheduled · code at_)]
  rfl

/-- FREQAT by its cases: a code that there is not, a pending change or a count too near, and acceptance. -/
theorem exec_freqat {s : State} {g : Guard} (h : s.Performs g 2 false) (d : Pred) (a b : Reg) :
    exec (.freqat g d a b) s = .next (settle s.counted
      (if 4 < (s.g b).toNat then .stop (.of .illegalOp (wordOf (.freqat g d a b)))
      else if s.dev.freqPv = true ∨ (s.g a).toNat < s.refcnt + 16 then .setP d false s.counted
      else .setP d true (s.scheduled (s.g b) (s.g a)).counted)) := by
  change execFreqat g d a b s = _
  rw [execFreqat, issue_performs h, State.scheduled_counted]
  simp only [State.scheduled, State.g_counted, State.counted_dev, State.counted_refcnt, Bool.or_eq_true, decide_eq_true_eq]

theorem exec_frequencySwitch (s : State) : exec .frequencySwitch s = .next
    (if s.dev.freqPv = true ∧ s.dev.freqAt ≤ s.refcnt then
      { s with dev := { s.dev with freqCur := s.dev.freqPend, freqPv := false }, sub := 0 }
    else s) := by
  change execFrequencySwitch s = _
  simp only [execFrequencySwitch, Bool.and_eq_true, decide_eq_true_eq]

theorem frequencies : Rules.Frequencies := by
  intro s g d a b
  refine ⟨fun h ho => ⟨fun hb => ?_, fun hb hc => ?_, fun hb hv ha => ?_⟩, fun hv ha => ?_, fun hc => ?_⟩
  · rw [exec_freqat h, if_pos hb]
    rfl
  · rw [exec_freqat h, if_neg (by omega), if_pos hc]
    obtain ⟨u, hu, ht⟩ := setP_ends d false (State.trailRoom_of_closed ho)
    obtain ⟨hp, hctx, hpc, hf⟩ := ht s.counted s.counted_pc
    rw [hu]
    exact ⟨_, rfl, by rw [hp, Bool.or_false], fun n hn => hf.preds n (by simpa using hn), hctx, hpc, hf.rest, hf.mem⟩
  · have hn : ¬ (s.dev.freqPv = true ∨ (s.g a).toNat < s.refcnt + 16) := by simp [hv]; omega
    rw [exec_freqat h, if_neg (by omega), if_neg hn]
    obtain ⟨u, hu, ht⟩ := setP_ends (s := s.scheduled (s.g b) (s.g a)) d true (State.trailRoom_of_closed ho)
    obtain ⟨hp, hctx, hpc, hf⟩ := ht s.counted s.counted_pc
    rw [hu]
    exact ⟨_, rfl, by rw [hp, Bool.or_true], fun n hn => hf.preds n (by simpa using hn), (congrArg Ctx.g hctx).trans rfl, hpc,
      (congrArg State.dev hf.rest).trans rfl, by rw [hf.rest]; rfl⟩
  · exact ⟨_, (exec_frequencySwitch s).trans (congrArg Host.Outcome.next (if_pos ⟨hv, ha⟩)), rfl, rfl, rfl⟩
  · have hn : ¬ (s.dev.freqPv = true ∧ s.dev.freqAt ≤ s.refcnt) := fun ⟨hv, ha⟩ =>
      hc.elim (fun h => Bool.false_ne_true (h.symm.trans hv)) (Nat.not_lt_of_le ha)
    rw [exec_frequencySwitch, if_neg hn]

end Sys2Proof.Machine
end

section
/-! O47: the step of a partition counter (R147 to R151, R155). What a step writes is said as a relation between a memory before and one after
(`Mem.Written`), so that the order in which entries, lines and ports are taken matters only where two of them name one byte. -/

namespace Sys2Proof.Machine

/-! ## The order of ties (R155) -/

/-- An element put before the first one that is not of lower rank. -/
def insertBy {α : Type} (rank : α → Nat) (a : α) (r : List α) : List α :=
  r.takeWhile (fun b => decide (rank b < rank a)) ++ a :: r.dropWhile fun b => decide (rank b < rank a)

theorem sortBy_cons {α : Type} (rank : α → Nat) (a : α) (l : List α) :
    sortBy rank (a :: l) = insertBy rank a (sortBy rank l) := rfl

theorem insertBy_cons_of_lt {α : Type} {rank : α → Nat} {a b : α} (h : rank b < rank a) (r : List α) :
    insertBy rank a (b :: r) = b :: insertBy rank a r := by
  simp only [insertBy, List.takeWhile_cons, List.dropWhile_cons, decide_eq_true h, if_true, List.cons_append]

theorem insertBy_cons_of_not_lt {α : Type} {rank : α → Nat} {a b : α} (h : ¬ rank b < rank a) (r : List α) :
    insertBy rank a (b :: r) = a :: b :: r := by
  simp only [insertBy, List.takeWhile_cons, List.dropWhile_cons, decide_eq_false h, Bool.false_eq_true, if_false, List.nil_append]

theorem insertBy_perm {α : Type} (rank : α → Nat) (a : α) (r : List α) : (insertBy rank a r).Perm (a :: r) := by
  have h : (insertBy rank a r).Perm (a :: (r.takeWhile (fun b => decide (rank b < rank a)) ++
      r.dropWhile fun b => decide (rank b < rank a))) := List.perm_middle
  rwa [List.takeWhile_append_dropWhile] at h

theorem insertBy_ascending {α : Type} (rank : α → Nat) (a : α) {r : List α} (h : r.Pairwise fun b c => rank b ≤ rank c) :
    (insertBy rank a r).Pairwise fun b c => rank b ≤ rank c := by
  induction r with
  | nil => exact List.pairwise_singleton _ a
  | cons b r ih =>
    obtain ⟨hb, hr⟩ := List.pairwise_cons.1 h
    by_cases hba : rank b < rank a
    · rw [insertBy_cons_of_lt hba]
      refine List.pairwise_cons.2 ⟨fun c hc => ?_, ih hr⟩
      rcases List.mem_cons.1 ((insertBy_perm rank a r).mem_iff.1 hc) with rfl | hc
      · exact Nat.le_of_lt hba
      · exact hb c hc
    · rw [insertBy_cons_of_not_lt hba]
      refine List.pairwise_cons.2 ⟨fun c hc => ?_, h⟩
      rcases List.mem_cons.1 hc with rfl | hc
      · exact Nat.le_of_not_lt hba
      · exact Nat.le_trans (Nat.le_of_not_lt hba) (hb c hc)

theorem sortBy_perm {α : Type} (rank : α → Nat) (l : List α) : (sortBy rank l).Perm l := by
  induction l with
  | nil => exact .nil
  | cons a l ih => exact (insertBy_perm rank a _).trans (ih.cons a)

theorem sortBy_ascending {α : Type} (rank : α → Nat) (l : List α) :
    (sortBy rank l).Pairwise fun a b => rank a ≤ rank b := by
  induction l with
  | nil => exact .nil
  | cons a l ih => exact insertBy_ascending rank a ih

theorem tieOrder_perm (l : List Pending) : (tieOrder l).Perm l :=
  ((sortBy_perm _ _).append_left _).trans (List.filter_append_perm _ l)

theorem host_of_mem_sortBy {l : List Pending} {e : Pending} (h : e ∈ sortBy (·.task.toNat) (l.filter fun e => !e.host)) :
    e.host = false := by
  simpa using (List.mem_filter.1 ((sortBy_perm _ _).mem_iff.1 h)).2

theorem tiesOrdered : Rules.TiesOrdered := by
  intro l
  refine ⟨tieOrder_perm l, List.pairwise_append.2 ⟨?_, ?_, ?_⟩⟩
  · exact List.pairwise_of_forall_mem_list fun a ha b hb => .inl ⟨(List.mem_filter.1 ha).2, (List.mem_filter.1 hb).2⟩
  · exact (sortBy_ascending _ _).imp_of_mem fun ha hb hab => .inr (.inr ⟨host_of_mem_sortBy ha, host_of_mem_sortBy hb, hab⟩)
  · exact fun a ha b hb => .inr (.inl ⟨(List.mem_filter.1 ha).2, host_of_mem_sortBy hb⟩)

/-! ## Memory after several writes -/

/-- Memory after writes of which `W a x` says that one puts x at address a: a byte that none names stays, and any other holds what one
of those that name it puts there. -/
def Mem.Written (W : Nat → Byte → Prop) (m m' : Mem) : Prop :=
  ∀ a, (m'.byte a = m.byte a ∧ ∀ x, ¬ W a x) ∨ W a (m'.byte a)

theorem Mem.Written.none (m : Mem) : Mem.Written (fun _ _ => False) m m := fun _ => .inl ⟨rfl, fun _ => id⟩

theorem Mem.Written.congr {V W : Nat → Byte → Prop} {m m' : Mem} (h : Mem.Written V m m') (e : ∀ a x, V a x ↔ W a x) :
    Mem.Written W m m' := fun a => (h a).imp (fun ⟨h1, h2⟩ => ⟨h1, fun x => mt (e a x).2 (h2 x)⟩) (e a _).1

/-- The later of two writes decides. -/
theorem Mem.Written.trans {V W : Nat → Byte → Prop} {m₀ m₁ m₂ : Mem} (h : Mem.Written V m₀ m₁) (h' : Mem.Written W m₁ m₂) :
    Mem.Written (fun a x => V a x ∨ W a x) m₀ m₂ := by
  intro a
  rcases h' a with ⟨e', n'⟩ | w'
  · rcases h a with ⟨e, n⟩ | w
    · exact .inl ⟨e'.trans e, fun x => not_or.2 ⟨n x, n' x⟩⟩
    · exact .inr (.inl (e' ▸ w))
  · exact .inr (.inr w')

theorem Mem.Written.put (m : Mem) (n : Nat) (y : Byte) : Mem.Written (fun a x => n = a ∧ y = x) m (m.put n y) := by
  intro a
  by_cases h : a = n
  · subst h
    exact .inr ⟨rfl, (Mem.byte_put_same ..).symm⟩
  · exact .inl ⟨Mem.byte_put_ne _ _ h, fun x hx => h hx.1.symm⟩

/-- Writes one after another write what each of them writes. -/
theorem Mem.Written.foldl {β : Type} {f : Mem → β → Mem} {W : β → Nat → Byte → Prop}
    (h : ∀ m b, Mem.Written (W b) m (f m b)) (l : List β) (m : Mem) :
    Mem.Written (fun a x => ∃ b ∈ l, W b a x) m (l.foldl f m) := by
  induction l generalizing m with
  | nil => exact (Mem.Written.none m).congr (by simp)
  | cons b l ih => exact ((h m b).trans (ih _)).congr (by simp)

/-! ## One port's step (R151) -/

/-- The entry is one that a step of partition p to instant i applies. -/
def Pending.Due (p : Fin 8) (i : Instant) (e : Pending) : Prop := e.part = p ∧ e.v.toNat ≤ i.toNat

/-- An entry puts x at address a. -/
def Pending.Puts (e : Pending) (a : Nat) (x : Byte) : Prop := ∃ b ∈ e.bytes, e.line * 64 + b.1 = a ∧ b.2.2 = x

/-- What a step to instant i puts at an address from a port's pending stores. -/
def DuePuts (p : Fin 8) (i : Instant) (l : List Pending) (a : Nat) (x : Byte) : Prop := ∃ e ∈ l, e.Due p i ∧ e.Puts a x

/-- The entries that stay at a port. -/
def staying (p : Fin 8) (i : Instant) (l : List Pending) : List Pending :=
  l.filter fun e => !(e.part == p && decide (e.v.toNat ≤ i.toNat))

theorem mem_staying {p : Fin 8} {i : Instant} {l : List Pending} {e : Pending} : e ∈ staying p i l ↔ e ∈ l ∧ ¬ e.Due p i := by
  simp only [staying, Pending.Due, List.mem_filter, Bool.not_eq_true', ← Bool.not_eq_true, Bool.and_eq_true, beq_iff_eq,
    decide_eq_true_eq]

theorem applyEntry_written (m : Mem) (e : Pending) : Mem.Written e.Puts m (applyEntry m e) :=
  Mem.Written.foldl (fun m b => Mem.Written.put m (e.line * 64 + b.1) b.2.2) e.bytes m

/-- The entries of a port, line by line, in the order of R155: whatever the order, their bytes are what is written. -/
theorem lines_written (due : List Pending) (m : Mem) : Mem.Written (fun a x => ∃ e ∈ due, e.Puts a x) m
    (((due.map (·.line)).eraseDups).foldl
      (fun m l => (tieOrder (due.filter fun e => e.line == l)).foldl applyEntry m) m) := by
  refine (Mem.Written.foldl (fun m l => Mem.Written.foldl applyEntry_written _ m) _ m).congr fun a x => ?_
  simp only [(tieOrder_perm _).mem_iff, List.mem_filter, List.mem_eraseDups, List.mem_map, beq_iff_eq]
  constructor
  · rintro ⟨l, -, e, ⟨he, -⟩, hx⟩
    exact ⟨e, he, hx⟩
  · rintro ⟨e, he, hx⟩
    exact ⟨e.line, ⟨e, he, rfl⟩, e, ⟨he, rfl⟩, hx⟩

/-- What a step does at one port. -/
structure PortStepped (s t : State) (p : Fin 8) (i : Instant) (c : Nat) : Prop where
  mem : Mem.Written (DuePuts p i (s.portAt c).pending) s.mem t.mem
  pending : (t.portAt c).pending = staying p i (s.portAt c).pending
  stalled : (t.portAt c).stalled = (s.portAt c).stalled
  others : ∀ k, k ≠ c → t.portAt k = s.portAt k
  parts : t.parts = s.parts

theorem stepPort_stepped (s : State) (p : Fin 8) (i : Instant) (c : Nat) : PortStepped s (s.stepPort p i c) p i c where
  mem := (lines_written _ s.mem).congr fun a x => by
    simp only [DuePuts, Pending.Due, List.mem_filter, Bool.and_eq_true, beq_iff_eq, decide_eq_true_eq, and_assoc]
  pending := by unfold State.stepPort; simp [staying]
  stalled := by unfold State.stepPort; simp
  others k hk := State.portAt_setPortAt_ne _ _ hk
  parts := rfl

/-! ## All ports -/

/-- What a step does at the ports of a list. -/
structure PortsStepped (s t : State) (p : Fin 8) (i : Instant) (l : List Nat) : Prop where
  mem : Mem.Written (fun a x => ∃ k ∈ l, DuePuts p i (s.portAt k).pending a x) s.mem t.mem
  pending : ∀ k, (t.portAt k).pending = if k ∈ l then staying p i (s.portAt k).pending else (s.portAt k).pending
  stalled : ∀ k, (t.portAt k).stalled = (s.portAt k).stalled
  parts : t.parts = s.parts

theorem staying_staying (p : Fin 8) (i : Instant) (l : List Pending) : staying p i (staying p i l) = staying p i l := by
  simp [staying, List.filter_filter]

theorem not_duePuts_staying (p : Fin 8) (i : Instant) (l : List Pending) (a : Nat) (x : Byte) : ¬ DuePuts p i (staying p i l) a x :=
  fun ⟨_, he, hd, _⟩ => (mem_staying.1 he).2 hd

/-- A port that comes twice is stepped once: nothing is due there the second time. -/
theorem stepPorts_stepped (p : Fin 8) (i : Instant) (l : List Nat) (s : State) :
    PortsStepped s (l.foldl (fun s c => s.stepPort p i c) s) p i l := by
  induction l generalizing s with
  | nil => exact ⟨(Mem.Written.none _).congr (by simp), fun k => by simp, fun k => rfl, rfl⟩
  | cons c l ih =>
    have h := stepPort_stepped s p i c
    have hl := ih (s.stepPort p i c)
    refine ⟨(h.mem.trans hl.mem).congr fun a x => ?_, fun k => ?_, fun k => ?_, hl.parts.trans h.parts⟩
    · simp only [List.mem_cons, or_and_right, exists_or, exists_eq_left]
      by_cases hc : DuePuts p i (s.portAt c).pending a x
      · exact iff_of_true (.inl hc) (.inl hc)
      refine or_congr_right (exists_congr fun k => and_congr_right fun _ => ?_)
      by_cases hk : k = c
      · subst hk
        rw [h.pending]
        exact iff_of_false (not_duePuts_staying _ _ _ _ _) hc
      · rw [h.others k hk]
    · rw [List.foldl_cons, hl.pending]
      by_cases hk : k = c
      · subst hk
        simp [h.pending, staying_staying]
      · simp [hk, h.others k hk]
    · rw [List.foldl_cons, hl.stalled]
      by_cases hk : k = c
      · subst hk; exact h.stalled
      · rw [h.others k hk]

/-! ## The counter's step (R94, R151) -/

/-- Nothing but the ports' pending stores is to be done at partition p's next step. -/
structure Quiet (s : State) (p : Fin 8) : Prop where
  writes : (s.partAt p).writes = []
  unlogged : (s.partAt p).regs.reccfg.toNat % 2 = 0
  unreviewed : mnIv (s.partAt p).regs.mncfg = 0
  reachable : s.dev.unreachable = 0
  unstalled : ∀ k, (s.portAt k).stalled = []

theorem applyWrites_none {s : State} {p : Fin 8} (h : (s.partAt p).writes = []) :
    s.applyWrites p = s.setPartAt p { s.partAt p with writes := [], ahead := [] } := by
  rw [State.applyWrites, h]
  rfl

theorem loseTasks_none {s : State} (h : s.dev.unreachable = 0) (p : Fin 8) : s.loseTasks p = s := if_pos h

theorem logNow_off {s : State} {p : Fin 8} (h : (s.partAt p).regs.reccfg.toNat % 2 = 0) (e : LogRec) : State.logNow p s e = s := by
  have h0 : (s.partAt p).regs.reccfg.getLsbD 0 = false := by
    simpa only [BitVec.getLsbD, Nat.testBit_zero, decide_eq_false_iff_not, Nat.mod_two_ne_one] using h
  rw [State.logNow, h0, if_neg Bool.false_ne_true]

theorem logAll_off (l : List LogRec) {s : State} {p : Fin 8} (h : (s.partAt p).regs.reccfg.toNat % 2 = 0) :
    l.foldl (State.logNow p) s = s := by
  induction l with
  | nil => rfl
  | cons e l ih => rw [List.foldl_cons, logNow_off h, ih]

theorem flushLog_off {s : State} {p : Fin 8} (h : (s.partAt p).regs.reccfg.toNat % 2 = 0) :
    ∃ l, s.flushLog p = s.setPartAt p { s.partAt p with logq := l } :=
  ⟨_, logAll_off _ (by rw [State.partAt_setPartAt]; exact h)⟩

/-- A partition's part of the state with its counter advanced. -/
def Part.advance (x : Part) (at_ : Nat) : Part :=
  { x with writes := [], ahead := [], now := x.now + 1, stepped := at_, shift := 0 }

/-- The step to instant i at every port. -/
def State.atPorts (s : State) (p : Fin 8) (i : Instant) : State :=
  (s.ports.map (·.1)).foldl (fun s c => s.stepPort p i c) s

/-- The stores that wait at every port are tried again. -/
def State.retried (s : State) : State := (s.ports.map (·.1)).foldl State.retryStalled s

/-- The counter's step at count `at_`. -/
def State.tickCounter (s : State) (p : Fin 8) (at_ : Nat) : State :=
  s.setPartAt p { s.partAt p with now := (s.partAt p).now + 1, stepped := at_, shift := 0 }

/-- The parts of a step: the counter, the records, the ports, the stores that wait, and Monarch's part. -/
theorem stepCounter_eq {s u : State} {p : Fin 8} (h : (s.applyWrites p).loseTasks p = u) (at_ : Nat) : s.stepCounter p at_ =
    (((((u.tickCounter p at_).flushLog p).atPorts p ((u.partAt p).now + 1)).retried.settleMarks p).review p).wakeInstant p := by
  subst h
  rw [State.retried, State.atPorts, List.foldl_map, List.foldl_map]
  rfl

theorem stepCounter_quiet {s : State} {p : Fin 8} (h : Quiet s p) (at_ : Nat) :
    ∃ l, s.stepCounter p at_ = ((((s.setPartAt p { (s.partAt p).advance at_ with logq := l }).atPorts p
      ((s.partAt p).now + 1)).retried.settleMarks p).review p).wakeInstant p := by
  have hu := (congrArg (State.loseTasks · p) (applyWrites_none h.writes)).trans (loseTasks_none (by exact h.reachable) p)
  have ht : (s.setPartAt p { s.partAt p with writes := [], ahead := [] }).tickCounter p at_ =
      s.setPartAt p ((s.partAt p).advance at_) := by
    rw [State.tickCounter, State.partAt_setPartAt, State.setPartAt_setPartAt]
    rfl
  obtain ⟨l, hl⟩ := flushLog_off (s := s.setPartAt p ((s.partAt p).advance at_)) (p := p)
    (by rw [State.partAt_setPartAt]; exact h.unlogged)
  rw [State.partAt_setPartAt, State.setPartAt_setPartAt] at hl
  exact ⟨l, by rw [stepCounter_eq hu, ht, hl, State.partAt_setPartAt]⟩

/-- Two states with the same memory, partitions and ports. -/
structure SamePorts (s t : State) : Prop where
  mem : t.mem = s.mem
  parts : t.parts = s.parts
  port : ∀ k, t.portAt k = s.portAt k

theorem retryStalled_same {s : State} {c : Nat} (h : (s.portAt c).stalled = []) : SamePorts s (s.retryStalled c) := by
  have e : s.retryStalled c = s.setPortAt c (s.portAt c) := by
    rw [State.retryStalled, h]
    exact congrArg (fun l => s.setPortAt c { s.portAt c with stalled := l }) h.symm
  refine e ▸ ⟨rfl, rfl, fun k => ?_⟩
  by_cases hk : k = c
  · subst hk; exact State.portAt_setPortAt ..
  · exact State.portAt_setPortAt_ne _ _ hk

theorem retryAll_same (l : List Nat) {s : State} (h : ∀ k, (s.portAt k).stalled = []) :
    SamePorts s (l.foldl State.retryStalled s) := by
  induction l generalizing s with
  | nil => exact ⟨rfl, rfl, fun _ => rfl⟩
  | cons c l ih =>
    obtain ⟨hm, hp, hk⟩ := retryStalled_same (h c)
    obtain ⟨hm', hp', hk'⟩ := ih fun k => (hk k).symm ▸ h k
    exact ⟨hm'.trans hm, hp'.trans hp, fun k => (hk' k).trans (hk k)⟩

/-- A port that is not listed has no pending stores. -/
theorem pending_unlisted {s : State} {k : Nat} (h : k ∉ s.ports.map (·.1)) : (s.portAt k).pending = [] := by
  rw [State.portAt, Table.get_unlisted {} h]

/-- What a step of partition p's counter at count `at_` leaves, when nothing but the pending stores is to be done. -/
structure CounterStepped (s t : State) (p : Fin 8) (at_ : Nat) : Prop where
  now : (t.partAt p).now = (s.partAt p).now + 1
  stepped : (t.partAt p).stepped = at_
  shift : (t.partAt p).shift = 0
  others : ∀ q, q ≠ p → t.partAt q = s.partAt q
  pending : ∀ k, (t.portAt k).pending = staying p ((s.partAt p).now + 1) (s.portAt k).pending
  mem : Mem.Written (fun a x => ∃ k, DuePuts p ((s.partAt p).now + 1) (s.portAt k).pending a x) s.mem t.mem

/-- What a step does at all ports. -/
structure AllStepped (s t : State) (p : Fin 8) (i : Instant) : Prop where
  mem : Mem.Written (fun a x => ∃ k, DuePuts p i (s.portAt k).pending a x) s.mem t.mem
  pending : ∀ k, (t.portAt k).pending = staying p i (s.portAt k).pending
  parts : t.parts = s.parts

theorem atPorts_retried_stepped {s : State} (h : ∀ k, (s.portAt k).stalled = []) (p : Fin 8) (i : Instant) :
    AllStepped s (s.atPorts p i).retried p i := by
  have hs : PortsStepped s (s.atPorts p i) p i (s.ports.map (·.1)) := stepPorts_stepped ..
  obtain ⟨hm, hp, hk⟩ := retryAll_same ((s.atPorts p i).ports.map (·.1)) fun k => (hs.stalled k).trans (h k)
  refine ⟨?_, fun k => ?_, hp.trans hs.parts⟩
  · rw [State.retried, hm]
    refine hs.mem.congr fun a x => exists_congr fun k => and_iff_right_of_imp fun ⟨e, he, _⟩ =>
      Decidable.byContradiction fun hn => ?_
    rw [pending_unlisted hn] at he
    exact List.not_mem_nil he
  · rw [State.retried, hk]
    refine (hs.pending k).trans (ite_eq_left_iff.2 fun hn => ?_)
    rw [pending_unlisted hn]
    rfl

theorem settleMarks_eq (s : State) (p : Fin 8) : ∃ m, s.settleMarks p = s.setMonarch p m := ⟨_, rfl⟩

theorem review_off {s : State} {p : Fin 8} (h : mnIv (s.partAt p).regs.mncfg = 0) : s.review p = s := if_pos (.inl h)

/-- A quiet step: the counter is one more, and what was due at the ports is in memory. -/
theorem stepCounter_stepped {s : State} {p : Fin 8} (h : Quiet s p) (at_ : Nat) :
    CounterStepped s (s.stepCounter p at_) p at_ := by
  obtain ⟨l, hl⟩ := stepCounter_quiet h at_
  obtain ⟨hm, hk, hp⟩ := atPorts_retried_stepped (s := s.setPartAt p { (s.partAt p).advance at_ with logq := l })
    h.unstalled p ((s.partAt p).now + 1)
  generalize (State.atPorts (s.setPartAt p { (s.partAt p).advance at_ with logq := l }) p ((s.partAt p).now + 1)).retried = u
    at hl hm hk hp
  have hu : u.partAt p = { (s.partAt p).advance at_ with logq := l } := by
    rw [State.partAt, hp]
    exact State.partAt_setPartAt ..
  obtain ⟨m, hs⟩ := settleMarks_eq u p
  have hq : (u.setMonarch p m).partAt p = { u.partAt p with monarch := m } := State.partAt_setPartAt ..
  have hr : (u.setMonarch p m).review p = u.setMonarch p m := review_off (by rw [hq, hu]; exact h.unreviewed)
  rw [hs, hr] at hl
  rw [hl]
  refine ⟨?_, ?_, ?_, fun q hne => ?_, hk, hm⟩
  · exact (congrArg Part.now hq).trans (congrArg Part.now hu)
  · exact (congrArg Part.stepped hq).trans (congrArg Part.stepped hu)
  · exact (congrArg Part.shift hq).trans (congrArg Part.shift hu)
  · calc (u.setMonarch p m).partAt q
      _ = u.partAt q := State.partAt_setPartAt_ne _ _ hne
      _ = (s.setPartAt p { (s.partAt p).advance at_ with logq := l }).partAt q := by rw [State.partAt, hp]; rfl
      _ = s.partAt q := State.partAt_setPartAt_ne _ _ hne

theorem exec_quartzStep {s : State} {p : Fin 8} (hr : s.running p = true) (he : qcfgEl (s.partAt p).regs.qcfg = false)
    (hd : (s.partAt p).due ≤ s.refcnt) : exec (.quartzStep p) s = .next (s.stepCounter p (s.partAt p).due) :=
  congrArg Host.Outcome.next (if_pos (by simp [hr, he, hd]))

theorem counterSteps : Rules.CounterSteps := by
  intro s p hr he hd hw hl hv hu hs
  have h := stepCounter_stepped ⟨hw, hl, hv, hu, hs⟩ (s.partAt p).due
  refine ⟨_, exec_quartzStep hr he hd, h.now, h.stepped, h.shift, h.others, fun k e he hp => ?_, fun k e he hn => ?_,
    fun a ha => ?_, fun k e he b hb hp hv hone => ?_⟩
  · rw [h.pending] at he
    exact Nat.lt_of_not_le fun hle => (mem_staying.1 he).2 ⟨hp, hle⟩
  · rw [h.pending]
    exact mem_staying.2 ⟨he, fun ⟨hp, hle⟩ => hn.elim (fun h => h hp) (Nat.not_lt_of_le hle)⟩
  · rcases h.mem a with ⟨hm, -⟩ | ⟨k, e, he, ⟨hp, hv⟩, b, hb, hab, -⟩
    · exact hm
    · exact absurd hab (ha k e he hp hv b hb)
  · rcases h.mem (e.line * 64 + b.1) with ⟨-, hm⟩ | ⟨j, f, hf, ⟨hfp, hfv⟩, c, hc, hca, hcx⟩
    · exact absurd ⟨k, e, he, ⟨hp, hv⟩, b, hb, rfl, rfl⟩ (hm b.2.2)
    · rw [← hcx]
      exact hone j f hf hfp hfv c hc hca

/-! ## An elastic step (R148, R150) -/

theorem heldAbove_iff {s : State} {i : Instant} {e : Nat × Slot} : s.heldAbove i e = true ↔
    (∃ v, e.2.run = .waiting (.instant v) ∧ i.toNat < v.toNat) ∨
    (e.2.run = .waiting .list ∧ ∃ x v, (s.arrayAt (e.1 / 16)).run = some x ∧ x.slot = e.1 ∧ x.hold = some v ∧ i.toNat < v.toNat) := by
  rw [State.heldAbove]
  generalize e.2.run = r
  cases r with
  | waiting w =>
    cases w with
    | instant v => simp
    | list =>
      cases (s.arrayAt (e.1 / 16)).run with
      | none => simp
      | some x => simp [Option.any_eq_true]
    | _ => simp
  | _ => simp

theorem taskHeld_iff {s : State} {p : Fin 8} {id t : Nat} {r : TaskRec} {i : Instant} :
    s.taskHeld p id t r i = true ↔ HeldTask s p id t r.threads i := by
  simp only [State.taskHeld, HeldTask, Bool.and_eq_true, beq_iff_eq, List.all_eq_true, heldAbove_iff]

theorem tasksSettled_iff {s : State} {p : Fin 8} {i : Instant} : s.tasksSettled p i = true ↔
    ∀ l ∈ (s.partAt p).launches, ∀ c, c < descCrews l.desc → (crewRel l.desc c).toNat ≤ i.toNat →
      c ∈ l.started ∧ ∀ e ∈ l.live, e.1 / (descCrew l.desc * descTeam l.desc) = c → HeldTask s p l.id e.1 e.2.threads i := by
  simp only [State.tasksSettled, List.all_eq_true, List.mem_range, Bool.or_eq_true, decide_eq_true_eq, Bool.and_eq_true,
    List.contains_iff_mem, taskHeld_iff, Decidable.or_iff_not_imp_left, Nat.not_lt, Decidable.not_not, ne_eq]

theorem launching_iff {x : Part} : x.launching = true ↔ x.queue ≠ [] ∨ x.hostQueue ≠ [] ∨ x.head ≠ x.kicked ∨
    x.launches ≠ [] ∨ x.completions ≠ [] := by
  simp [Part.launching, or_assoc]

theorem elasticReady_iff {s : State} {p : Fin 8} : s.elasticReady p = true ↔ ElasticMay s p := by
  simp only [State.elasticReady, Bool.and_eq_true, Bool.or_eq_true, decide_eq_true_eq, tasksSettled_iff, launching_iff,
    beq_iff_eq, List.all_eq_true, Bool.not_eq_true', List.isEmpty_eq_false_iff, or_assoc]
  constructor
  · rintro ⟨⟨⟨⟨⟨⟨runs, elastic⟩, start⟩, apart⟩, tasks⟩, stores⟩, work⟩
    exact ⟨runs, elastic, start, apart, tasks, stores, work⟩
  · rintro ⟨runs, elastic, start, apart, tasks, stores, work⟩
    exact ⟨⟨⟨⟨⟨⟨runs, elastic⟩, start⟩, apart⟩, tasks⟩, stores⟩, work⟩

theorem elasticSteps : Rules.ElasticSteps := by
  intro s p
  constructor
  · intro hm hw hl hv hu hs
    have h := stepCounter_stepped ⟨hw, hl, hv, hu, hs⟩ s.refcnt
    exact ⟨_, congrArg Host.Outcome.next (if_pos (elasticReady_iff.2 hm)), h.now, h.stepped⟩
  · exact fun hm => congrArg Host.Outcome.next (if_neg (mt elasticReady_iff.1 hm))

end Sys2Proof.Machine

/-- Settles O47, a part for each of its six rules; the counter's step by what one port's step writes, then all ports'. -/
theorem counters : Obligations.Counters :=
  ⟨Sys2Proof.Machine.counterSteps, Sys2Proof.Machine.tiesOrdered, Sys2Proof.Machine.elasticSteps,
    Sys2Proof.Machine.frequencies, Sys2Proof.Machine.stretchesAndDies, Sys2Proof.Machine.poolsRefilled⟩

end

section
/-! O1. The values of the scalar instructions (R104 to R112), each against the model's own function for it, and their end (R102). -/

namespace Sys2Proof.Machine

/-! ## Sums, extremes and products (R104 to R106) -/

theorem minS_eq (a b : Word) : minS a b = if a.toInt ≤ b.toInt then a else b := by
  simp only [minS, BitVec.sle_iff_toInt_le]

theorem maxS_eq (a b : Word) : maxS a b = if a.toInt ≤ b.toInt then b else a := by
  simp only [maxS, BitVec.sle_iff_toInt_le]

theorem minU_eq (a b : Word) : minU a b = if a.toNat ≤ b.toNat then a else b := by
  simp only [minU, BitVec.ule_iff_toNat_le]

theorem maxU_eq (a b : Word) : maxU a b = if a.toNat ≤ b.toNat then b else a := by
  simp only [maxU, BitVec.ule_iff_toNat_le]

theorem add_eq_ofNat (a b : Word) : a + b = .ofNat 64 (a.toNat + b.toNat) := by
  simp [BitVec.ofNat_add]

theorem sub_eq_ofInt (a b : Word) : a - b = .ofInt 64 (a.toInt - b.toInt) :=
  BitVec.eq_of_toInt_eq (by rw [BitVec.toInt_sub, BitVec.toInt_ofInt])

theorem mul_eq_ofNat (a b : Word) : a * b = .ofNat 64 (a.toNat * b.toNat) := by
  simp [BitVec.ofNat_mul]

/-- Saturation is the clamp to the signed range. -/
theorem sat64_eq (x : Int) : sat64 x = .ofInt 64 (max (-2 ^ 63) (min (2 ^ 63 - 1) x)) := by
  unfold sat64
  split
  · rw [Int.max_eq_left (by omega)]
  · split
    · rw [Int.min_eq_left (by omega), Int.max_eq_right (by omega)]
    · rw [Int.min_eq_right (by omega), Int.max_eq_right (by omega)]

/-! ## Shifts and counts (R105, R108, R111) -/

theorem shiftLeft_eq_ofNat (a : Word) (n : Nat) : a <<< n = .ofNat 64 (a.toNat * 2 ^ n) :=
  BitVec.eq_of_toNat_eq (by rw [BitVec.toNat_shiftLeft, BitVec.toNat_ofNat, Nat.shiftLeft_eq])

theorem ushiftRight_eq_ofNat (a : Word) (n : Nat) : a >>> n = .ofNat 64 (a.toNat / 2 ^ n) := by
  rw [← Nat.shiftRight_eq_div_pow, ← BitVec.toNat_ushiftRight, BitVec.ofNat_toNat, BitVec.setWidth_eq]

theorem sshiftRight_eq_ofInt (a : Word) (n : Nat) : a.sshiftRight n = .ofInt 64 (a.toInt / 2 ^ n) := by
  have h : a.toInt / 2 ^ n = a.toInt >>> n := by rw [Int.shiftRight_eq_div_pow]; norm_cast
  rw [h, ← BitVec.toInt_sshiftRight, BitVec.ofInt_toInt]

/-- LEA's sum with its scaled index. -/
theorem add_shiftLeft_eq_ofNat (a b : Word) (n : Nat) : a + b <<< n = .ofNat 64 (a.toNat + b.toNat * 2 ^ n) := by
  rw [shiftLeft_eq_ofNat, BitVec.ofNat_add, BitVec.ofNat_toNat, BitVec.setWidth_eq]

/-- ROL's two halves are the rotation; a count of 0 moves nothing. -/
theorem rol_eq_rotateLeft (a : Word) {n : Nat} (h : n < 64) : rol a n = a.rotateLeft n := by
  unfold rol
  rw [BitVec.rotateLeft_eq_rotateLeftAux_of_lt h, BitVec.rotateLeftAux]
  split
  · next h0 => subst h0; simp [BitVec.ushiftRight_eq_zero]
  · rfl

theorem ones_eq_length (a : Word) (n : Nat) : ones a n = ((List.range n).filter fun k => a.getLsbD k).length := by
  induction n with
  | zero => rfl
  | succ n ih =>
    rw [ones, ih, List.range_succ, List.filter_append, List.length_append, Nat.add_comm]
    cases h : a.getLsbD n <;> simp [h]

/-- MOVHI: the shifted register leaves the immediate's 13 bits free, so the two are joined as they would be added. -/
theorem shiftLeft_or_imm_eq_ofNat (a : Word) (i : BitVec 13) : a <<< 13 ||| i.setWidth 64 = .ofNat 64 (a.toNat * 2 ^ 13 + i.toNat) := by
  have h : a <<< 13 &&& i.setWidth 64 = 0#64 := by
    ext k hk
    by_cases hk13 : k < 13
    · simp [hk13]
    · simp [BitVec.getLsbD_of_ge i k (by omega)]
  rw [← BitVec.add_eq_or_of_and_eq_zero _ _ h, shiftLeft_eq_ofNat, BitVec.ofNat_add]
  exact congrArg _ (BitVec.eq_of_toNat_eq (by simp))

/-! ## Extensions and ADDPC (R109, R112) -/

theorem extend_signed (z : Size) (a : Word) : extend z true a = (a.setWidth (8 * sizeBytes z)).signExtend 64 := by
  cases z with
  | d => exact (BitVec.signExtend_eq a).symm.trans (congrArg (BitVec.signExtend 64) (BitVec.setWidth_eq a).symm)
  | _ => rfl

theorem setWidth_setWidth_eq_ofNat (n : Nat) (a : Word) : (a.setWidth n).setWidth 64 = .ofNat 64 (a.toNat % 2 ^ n) := by
  rw [← BitVec.toNat_setWidth, BitVec.ofNat_toNat]

theorem extend_unsigned (z : Size) (a : Word) : extend z false a = .ofNat 64 (a.toNat % 2 ^ (8 * sizeBytes z)) := by
  cases z with
  | b => exact setWidth_setWidth_eq_ofNat 8 a
  | h => exact setWidth_setWidth_eq_ofNat 16 a
  | w => exact setWidth_setWidth_eq_ofNat 32 a
  | d => exact (BitVec.setWidth_eq a).symm.trans ((BitVec.setWidth_eq _).symm.trans (setWidth_setWidth_eq_ofNat 64 a))

theorem four_mul_imm (i : BitVec 13) : 4 * imm i = .ofInt 64 (4 * i.toInt) :=
  (BitVec.ofInt_mul 4 i.toInt).symm

/-! ## The instructions -/

/-- The result depends on registers, predicates and the PC alone, which counting an issue leaves. -/
theorem scalarResult_counted (s : State) (i : Instr) : scalarResult s.counted i = scalarResult s i := by
  simp only [scalarResult, State.g_counted, State.p_counted, State.counted_pc]

/-- A scalar instruction issues a body that ends in the write of its result. -/
theorem exec_of_scalarResult {u : State} {i : Instr} {g : Guard} {d : Reg} {v : Word} (h : scalarResult u i = some (g, d, v)) :
    ∃ body, (∀ s, exec i s = issue i g 0 false body s) ∧ body u = Out.setG d v u := by
  have hcount (b : Reg) : count (u.g b) < 64 := Nat.mod_lt _ (by decide)
  unfold scalarResult at h
  split at h <;> cases h
  next a b => exact ⟨_, fun s => Eq.refl (execAdd g d a b s), congrArg (Out.setG d · u) (add_eq_ofNat _ _)⟩
  next a b => exact ⟨_, fun s => Eq.refl (execSub g d a b s), congrArg (Out.setG d · u) (sub_eq_ofInt _ _)⟩
  next a b => exact ⟨_, fun s => Eq.refl (execAnd g d a b s), rfl⟩
  next a b => exact ⟨_, fun s => Eq.refl (execOr g d a b s), rfl⟩
  next a b => exact ⟨_, fun s => Eq.refl (execXor g d a b s), rfl⟩
  next a b => exact ⟨_, fun s => Eq.refl (execAndn g d a b s), rfl⟩
  next a b => exact ⟨_, fun s => Eq.refl (execMin g d a b s), congrArg (Out.setG d · u) (minS_eq _ _)⟩
  next a b => exact ⟨_, fun s => Eq.refl (execMax g d a b s), congrArg (Out.setG d · u) (maxS_eq _ _)⟩
  next a b => exact ⟨_, fun s => Eq.refl (execMinu g d a b s), congrArg (Out.setG d · u) (minU_eq _ _)⟩
  next a b => exact ⟨_, fun s => Eq.refl (execMaxu g d a b s), congrArg (Out.setG d · u) (maxU_eq _ _)⟩
  next a b => exact ⟨_, fun s => Eq.refl (execAdds g d a b s), congrArg (Out.setG d · u) (sat64_eq _)⟩
  next a b => exact ⟨_, fun s => Eq.refl (execSubs g d a b s), congrArg (Out.setG d · u) (sat64_eq _)⟩
  next a b k => exact ⟨_, fun s => Eq.refl (execLea g d a b k s), congrArg (Out.setG d · u) (add_shiftLeft_eq_ofNat _ _ _)⟩
  next a b => exact ⟨_, fun s => Eq.refl (execMul g d a b s), congrArg (Out.setG d · u) (mul_eq_ofNat _ _)⟩
  next a b => exact ⟨_, fun s => Eq.refl (execMulhi g d a b s), rfl⟩
  next a b => exact ⟨_, fun s => Eq.refl (execMulhu g d a b s), rfl⟩
  next a b => exact ⟨_, fun s => Eq.refl (execShl g d a b s), congrArg (Out.setG d · u) (shiftLeft_eq_ofNat _ _)⟩
  next a b => exact ⟨_, fun s => Eq.refl (execShr g d a b s), congrArg (Out.setG d · u) (ushiftRight_eq_ofNat _ _)⟩
  next a b => exact ⟨_, fun s => Eq.refl (execSra g d a b s), congrArg (Out.setG d · u) (sshiftRight_eq_ofInt _ _)⟩
  next a b => exact ⟨_, fun s => Eq.refl (execRol g d a b s), congrArg (Out.setG d · u) (rol_eq_rotateLeft _ (hcount b))⟩
  next a => exact ⟨_, fun s => Eq.refl (execClz g d a s), rfl⟩
  next a => exact ⟨_, fun s => Eq.refl (execCtz g d a s), rfl⟩
  next a => exact ⟨_, fun s => Eq.refl (execPopc g d a s), congrArg (Out.setG d · u) (congrArg _ (ones_eq_length _ _))⟩
  next a z => exact ⟨_, fun s => Eq.refl (execSext g d a z s), congrArg (Out.setG d · u) (extend_signed _ _)⟩
  next a z => exact ⟨_, fun s => Eq.refl (execZext g d a z s), congrArg (Out.setG d · u) (extend_unsigned _ _)⟩
  next a b n => exact ⟨_, fun s => Eq.refl (execSel g d a b n s), rfl⟩
  next a k => exact ⟨_, fun s => Eq.refl (execAddi g d a k s), rfl⟩
  next a k => exact ⟨_, fun s => Eq.refl (execAndi g d a k s), rfl⟩
  next a k => exact ⟨_, fun s => Eq.refl (execOri g d a k s), rfl⟩
  next a k => exact ⟨_, fun s => Eq.refl (execXori g d a k s), rfl⟩
  next a n => exact ⟨_, fun s => Eq.refl (execShli g d a n s), congrArg (Out.setG d · u) (shiftLeft_eq_ofNat _ _)⟩
  next a n => exact ⟨_, fun s => Eq.refl (execShri g d a n s), congrArg (Out.setG d · u) (ushiftRight_eq_ofNat _ _)⟩
  next a n => exact ⟨_, fun s => Eq.refl (execSrai g d a n s), congrArg (Out.setG d · u) (sshiftRight_eq_ofInt _ _)⟩
  next k => exact ⟨_, fun s => Eq.refl (execMovi g d k s), rfl⟩
  next a k => exact ⟨_, fun s => Eq.refl (execMovhi g d a k s), congrArg (Out.setG d · u) (shiftLeft_or_imm_eq_ofNat _ _)⟩
  next k => exact ⟨_, fun s => Eq.refl (execAddpc g d k s), congrArg (Out.setG d · u) (congrArg _ (four_mul_imm _))⟩

theorem scalarResults : Rules.ScalarResults := by
  intro s i g d v _ hv hp hr
  obtain ⟨body, he, hb⟩ := exec_of_scalarResult ((scalarResult_counted s i).trans hv)
  rw [he]
  exact issue_setG hp hr hb

end Sys2Proof.Machine

/-- Settles O1: each form's body ends in the write of its result, and the shared end of a register's write does the rest. -/
theorem scalarResults : Obligations.ScalarResults :=
  Sys2Proof.Machine.scalarResults
end

section
/-! O2. Comparisons and predicate operations (R113, R115), and the counts of R108. -/

namespace Sys2Proof.Machine

/-! ## The instructions -/

/-- The result depends on registers and predicates alone, which counting an issue leaves. -/
theorem predResult_counted (s : State) (i : Instr) : predResult s.counted i = predResult s i := by
  simp only [predResult, State.g_counted, State.p_counted]

/-- A comparison or predicate operation issues a body that ends in the write of its result. -/
theorem exec_of_predResult {u : State} {i : Instr} {g : Guard} {p : Pred} {b : Bool} (h : predResult u i = some (g, p, b)) :
    ∃ body, (∀ s, exec i s = issue i g 0 false body s) ∧ body u = Out.setP p b u := by
  unfold predResult at h
  split at h <;> cases h
  next a b c => exact ⟨_, fun s => Eq.refl (execCmp g p a b c s), rfl⟩
  next c a k => exact ⟨_, fun s => Eq.refl (execCmpi g c p a k s), rfl⟩
  next q r => exact ⟨_, fun s => Eq.refl (execPand g p q r s), rfl⟩
  next q r => exact ⟨_, fun s => Eq.refl (execPor g p q r s), rfl⟩
  next q r => exact ⟨_, fun s => Eq.refl (execPxor g p q r s), rfl⟩
  next q => exact ⟨_, fun s => Eq.refl (execPmov g p q s), rfl⟩

theorem predicateResults : Rules.PredicateResults := by
  intro s i g p b hv hp hr
  obtain ⟨body, he, hb⟩ := exec_of_predResult ((predResult_counted s i).trans hv)
  obtain ⟨u, hu, hset⟩ := setP_ends p b hr
  have h := hset s.counted s.counted_pc
  exact ⟨_, by rw [he, issue_performs hp, hb, hu], h.pred, h.pc, h.frame⟩

/-! ## Conditions and words -/

theorem conditionMeanings : Rules.ConditionMeanings := fun _ _ =>
  ⟨beq_iff_eq, bne_iff_ne, BitVec.slt_iff_toInt_lt, BitVec.sle_iff_toInt_le, BitVec.slt_iff_toInt_lt, BitVec.sle_iff_toInt_le,
    BitVec.ult_iff_toNat_lt, BitVec.ule_iff_toNat_le, BitVec.ult_iff_toNat_lt, BitVec.ule_iff_toNat_le⟩

theorem compareWords : Rules.CompareWords := by
  intro g d a b c n
  constructor <;> refine congrArg some ?_ <;> omega

/-! ## Counts of zero bits -/

theorem leadingZeros_of_zeros (a : Word) (n : Nat) (h : ∀ j, j < n → a.getLsbD j = false) : leadingZeros a n = n := by
  induction n with
  | zero => rfl
  | succ n ih =>
    rw [leadingZeros, h n (by omega), ih fun j hj => h j (by omega), if_neg Bool.false_ne_true, Nat.add_comm]

theorem leadingZeros_of_highest (a : Word) {k n : Nat} (hk : k < n) (h1 : a.getLsbD k = true)
    (h0 : ∀ j, k < j → a.getLsbD j = false) : leadingZeros a n = n - 1 - k := by
  induction n with
  | zero => omega
  | succ n ih =>
    rw [leadingZeros]
    rcases Nat.lt_succ_iff_lt_or_eq.1 hk with hlt | rfl
    · rw [h0 n hlt, ih hlt, if_neg Bool.false_ne_true]
      omega
    · rw [h1, if_pos rfl]
      omega

theorem trailingZeros_of_zeros (a : Word) (k n : Nat) (h : ∀ j, a.getLsbD j = false) : trailingZeros a k n = n := by
  induction n generalizing k with
  | zero => rfl
  | succ n ih => rw [trailingZeros, h k, ih, if_neg Bool.false_ne_true, Nat.add_comm]

theorem trailingZeros_of_lowest (a : Word) {m k n : Nat} (hk : k ≤ m) (hn : m < k + n) (h1 : a.getLsbD m = true)
    (h0 : ∀ j, j < m → a.getLsbD j = false) : trailingZeros a k n = m - k := by
  induction n generalizing k with
  | zero => omega
  | succ n ih =>
    rw [trailingZeros]
    rcases Nat.lt_or_eq_of_le hk with hlt | rfl
    · rw [h0 k hlt, ih hlt (by omega), if_neg Bool.false_ne_true]
      omega
    · rw [h1, if_pos rfl, Nat.sub_self]

theorem zeroCounts : Rules.ZeroCounts := by
  intro a
  refine ⟨?_, fun k hk h1 h0 => leadingZeros_of_highest a hk h1 h0, fun k h1 h0 => ?_⟩
  · rintro rfl
    exact ⟨leadingZeros_of_zeros 0 64 fun _ _ => BitVec.getLsbD_zero, trailingZeros_of_zeros 0 0 64 fun _ => BitVec.getLsbD_zero⟩
  · have hk : k < 64 := BitVec.lt_of_getLsbD h1
    exact trailingZeros_of_lowest a (Nat.zero_le k) (by omega) h1 h0

end Sys2Proof.Machine

/-- Settles O2, a part for each of its four rules: the instructions by the shared end of a predicate's write, the counts by induction on
the bits looked at. -/
theorem predicatesAndConditions : Obligations.PredicatesAndConditions :=
  ⟨Sys2Proof.Machine.predicateResults, Sys2Proof.Machine.conditionMeanings, Sys2Proof.Machine.zeroCounts,
    Sys2Proof.Machine.compareWords⟩
end

section
/-! O3. Division: its values (R106), how it joins the divider and how it ends there (R99, R102). -/

namespace Sys2Proof.Machine

/-! ## Quotients and remainders (R106) -/

theorem divU_toNat (a : Word) {b : Word} (h : b ≠ 0) : (divU a b).toNat = a.toNat / b.toNat := by
  rw [divU, if_neg h, BitVec.toNat_ofNat, Nat.mod_eq_of_lt (Nat.lt_of_le_of_lt (Nat.div_le_self _ _) a.isLt)]

theorem remU_toNat (a : Word) {b : Word} (h : b ≠ 0) : (remU a b).toNat = a.toNat % b.toNat := by
  rw [remU, if_neg h, BitVec.toNat_ofNat, Nat.mod_eq_of_lt (Nat.lt_of_le_of_lt (Nat.mod_le _ _) a.isLt)]

/-- Apart from the overflow, the quotient is in the signed range. -/
theorem divS_toInt {a b : Word} (h : b ≠ 0) (ho : ¬ (a = .intMin 64 ∧ b = .allOnes 64)) :
    (divS a b).toInt = a.toInt.tdiv b.toInt := by
  have hr : a ≠ .intMin 64 ∨ b ≠ -1#64 := (Decidable.not_and_iff_not_or_not.1 ho).imp_right fun hb => hb
  rw [divS, if_neg h, if_neg ho, BitVec.toInt_ofInt, ← BitVec.toInt_sdiv, BitVec.toInt_sdiv_of_ne_or_ne a b hr]

/-- The remainder is in the signed range, as that of the signed division of words. -/
theorem remS_toInt {a b : Word} (h : b ≠ 0) (ho : ¬ (a = .intMin 64 ∧ b = .allOnes 64)) :
    (remS a b).toInt = a.toInt - b.toInt * a.toInt.tdiv b.toInt := by
  rw [remS, if_neg h, if_neg ho, ← BitVec.toInt_srem, BitVec.ofInt_toInt, BitVec.toInt_srem, Int.tmod_def]

theorem divisionValues : Rules.DivisionValues := by
  intro a b
  refine ⟨?_, ?_, fun h => ⟨divU_toNat a h, remU_toNat a h⟩, fun h ho => ⟨divS_toInt h ho, remS_toInt h ho⟩⟩
  · exact fun h => ⟨if_pos h, if_pos h, if_pos h, if_pos h⟩
  · intro ha hb
    have hb0 : b ≠ 0 := by subst hb; decide
    exact ⟨(if_neg hb0).trans (if_pos ⟨ha, hb⟩), (if_neg hb0).trans (if_pos ⟨ha, hb⟩)⟩

/-! ## Joining the divider (R99) -/

/-- When a division that joins a core's divider at cycle `now` ends. -/
def divisionEnd (u : CoreUnit) (now : Nat) : Nat :=
  (match u.divider.getLast? with
    | none => now
    | some v => max now v.ends) + 16

theorem divisionEnd_of_empty {u : CoreUnit} (h : u.divider = []) (now : Nat) : divisionEnd u now = now + 16 := by
  rw [divisionEnd, h]
  rfl

theorem divisionEnd_of_last {u : CoreUnit} {v : Division} (h : u.divider.getLast? = some v) (now : Nat) :
    divisionEnd u now = max now v.ends + 16 := by
  rw [divisionEnd, h]

/-- The core's unit with a division of the thread that acts behind those already there. -/
def State.divisionQueued (s : State) (o : DivOp) (d a b : Reg) : CoreUnit :=
  { s.coreAt s.coreIdx with
    divider := (s.coreAt s.coreIdx).divider ++
      [⟨s.cur, o, d, s.g a, s.g b, divisionEnd (s.coreAt s.coreIdx) (s.cycles s.cluster)⟩] }

/-- A slot that is set takes the place of the one whose count changed. -/
theorem State.setSlot_counted (s : State) (x : Slot) : s.counted.setSlot x = s.setSlot x := by
  unfold State.counted
  split
  · exact State.setSlot_setSlot ..
  · rfl

/-- The units and the time that a division reads are those before its issue counts. -/
theorem startDivision_counted (s : State) (i : Instr) (o : DivOp) (d a b : Reg) :
    startDivision i o d a b s.counted =
      .stay ((s.counted.setCoreAt s.coreIdx (s.divisionQueued o d a b)).await i .divider) := by
  simp only [startDivision, State.g_counted]
  unfold State.counted
  split <;> rfl

/-- A slot that joins the divider waits, its issue counted, its core's unit with the division queued. -/
theorem settle_startDivision (s : State) (i : Instr) (o : DivOp) (d a b : Reg) :
    settle s.counted (startDivision i o d a b s.counted) =
      (s.parks i .divider none).setCoreAt s.coreIdx (s.divisionQueued o d a b) := by
  obtain ⟨k, hk, -, -⟩ := s.counted_eq
  rw [startDivision_counted, settle, State.await, State.slot_setCoreAt, State.parks, hk]
  exact congrArg (State.setCoreAt · _ _) (State.setSlot_counted ..)

theorem exec_of_divisionOf {i : Instr} {g : Guard} {o : DivOp} {d a b : Reg} (h : divisionOf i = some (g, o, d, a, b)) (s : State) :
    exec i s = issue i g 0 false (startDivision i o d a b) s := by
  unfold divisionOf at h
  split at h <;> cases h <;> rfl

theorem divisionStarts : Rules.DivisionStarts := by
  intro s i g o d a b hi hp
  refine ⟨divisionEnd (s.coreAt s.coreIdx) (s.cycles s.cluster), ?_, fun h => divisionEnd_of_empty h _,
    fun v h => divisionEnd_of_last h _⟩
  rw [exec_of_divisionOf hi, issue_performs hp, settle_startDivision, State.divisionQueued]

/-! ## A general register's write and the trail (R75, R102) -/

theorem trailPush_closed {s : State} (e : TrailEnt) (h : s.slot.points = []) : trailPush e s = .ok s :=
  if_pos (by rw [h]; rfl)

theorem State.putG_setSlot (s : State) (x : Slot) (n : Reg) (v : Word) :
    (s.setSlot x).putG n v = s.setSlot { x with ctx := { x.ctx with g := x.ctx.g.set n v } } := by
  simp [State.putG, State.setCtx]

/-- The trail after the write of a general register: as it was, or with the old value on top while a choice point is open. -/
def Slot.TrailAfter (x : Slot) (n : Reg) (l : List TrailEnt) : Prop :=
  l = x.trail ∨ x.points ≠ [] ∧ l = ⟨.greg n, x.ctx.g[n], x.frame n⟩ :: x.trail

/-- A general register's write where the hardware trail has room sets the register and the trail of the slot that acts. -/
theorem setG_slot {s : State} (n : Reg) (v : Word) (h : s.TrailRoom) : ∃ l, s.slot.TrailAfter n l ∧
    setG n v s = .ok (s.setSlot { s.slot with ctx := { s.slot.ctx with g := s.slot.ctx.g.set n v }, trail := l }) := by
  unfold setG
  split
  · by_cases hp : s.slot.points = []
    · exact ⟨_, .inl rfl, by rw [trailPush_closed _ hp]; rfl⟩
    · rcases trailPush_room ⟨.greg n, s.g n, s.slot.frame n⟩ h with e | e
      · exact ⟨_, .inl rfl, by rw [e]; rfl⟩
      · exact ⟨_, .inr ⟨hp, rfl⟩, by rw [e]; exact congrArg Except.ok (State.putG_setSlot ..)⟩
  · exact ⟨_, .inl rfl, rfl⟩

/-! ## The end of a division (R99) -/

/-- The state with division `v` taken off core `core`'s divider, `r` left there, and its thread, the one that acts, back in the
rotation. -/
def State.divisionTaken (s : State) (core : Nat) (v : Division) (r : List Division) : State :=
  (s.setCoreAt core { s.coreAt core with divider := r }).setSlot { s.slot with run := .runnable, ready := v.ends + 4 }

theorem exec_dividerDone_early {s : State} {core : Nat} {v : Division} {r : List Division}
    (h : (s.coreAt core).divider = v :: r) (he : s.cycles (core / 16) < v.ends) : exec (.dividerDone core) s = .next s := by
  change execDividerDone core s = _
  rw [execDividerDone]
  simp only [h]
  exact if_pos he

/-- A division that ends writes its result as the last step of its thread's word. -/
theorem exec_dividerDone_ends {s : State} {core : Nat} {v : Division} {r : List Division}
    (h : (s.coreAt core).divider = v :: r) (he : v.ends ≤ s.cycles (core / 16))
    (hw : (s.slotAt v.slot).run = .waiting .divider) :
    exec (.dividerDone core) s =
      let t := State.divisionTaken { s with cur := v.slot } core v r
      .next (settle t (.setG v.d (divide v.op v.a v.b) t)) := by
  change execDividerDone core s = _
  rw [execDividerDone]
  simp only [h]
  exact (if_neg (Nat.not_lt.2 he)).trans (if_pos hw)

theorem Ctx.endCheck_g (c : Ctx) (a : Word) : (c.endCheck a).g = c.g := by rw [Ctx.endCheck_eq]

/-- The write's own end: PC and loop stack by the end check, the trail by the write, no word in progress. -/
theorem settle_setG_divisionTaken {s : State} {core : Nat} {v : Division} {r : List Division} (x : Word) (h : s.TrailRoom) :
    ∃ l, s.slot.TrailAfter v.d l ∧
      settle (s.divisionTaken core v r) (.setG v.d x (s.divisionTaken core v r)) =
        (s.setCoreAt core { s.coreAt core with divider := r }).setSlot { s.slot with
          ctx := ({ s.slot.ctx with g := s.slot.ctx.g.set v.d x } : Ctx).endCheck s.ctx.pc
          run := .runnable, ready := v.ends + 4, trail := l, prog := {} } := by
  have hs : (s.divisionTaken core v r).slot = { s.slot with run := .runnable, ready := v.ends + 4 } := State.slot_setSlot ..
  obtain ⟨l, hl, hset⟩ := setG_slot (s := s.divisionTaken core v r) v.d x (by simpa only [State.TrailRoom, Slot.inh, hs] using h)
  refine ⟨l, by rw [hs] at hl; exact hl, ?_⟩
  rw [Out.setG, hset, Out.ofRes, settle]
  simp only [State.slot_setSlot, State.ctx_eq, State.divisionTaken, State.setSlot_setSlot]

theorem dividerDone : Rules.DividerDone := by
  intro s₀ s core v r hq
  refine ⟨exec_dividerDone_early hq, ?_⟩
  rintro he rfl hw hr
  obtain ⟨l, hl, ht⟩ := settle_setG_divisionTaken (core := core) (v := v) (r := r) (divide v.op v.a v.b) hr
  refine ⟨_, l, exec_dividerDone_ends hq he hw, ?_, hl, ht⟩
  rw [ht, State.g, State.ctx_eq, State.slot_setSlot]
  simp [Ctx.endCheck_g]

end Sys2Proof.Machine

/-- Settles O3, a part for each of its three rules: the words' own division, the queue, and the write at its end. -/
theorem divisions : Obligations.Divisions :=
  ⟨Sys2Proof.Machine.divisionValues, Sys2Proof.Machine.divisionStarts, Sys2Proof.Machine.dividerDone⟩
end

section
/-! SUPPORT for O5 to O7. How a word of the control class ends in the slot that acts, what it reads at the executing core (R15), and that
an issue's count hides nothing of this from it. -/

namespace Sys2Proof.Machine

/-! ## The end of a word (R76, R127) -/

theorem SlotOnly.settle_seq {s u : State} {x : Slot} (h : SlotOnly s u x) (s₀ : State) :
    SlotOnly s (settle s₀ (.seq u)) { x with ctx := x.ctx.endCheck s₀.ctx.pc, prog := {} } := by
  obtain rfl := h.slot
  exact h.set _

theorem SlotOnly.settle_jump {s u : State} {x : Slot} (h : SlotOnly s u x) (s₀ : State) (v : Word) :
    SlotOnly s (settle s₀ (.jump u v)) { x with ctx := { x.ctx with pc := v }, prog := {} } := by
  obtain rfl := h.slot
  exact h.set _

theorem SlotOnly.setCtx {s u : State} {x : Slot} (h : SlotOnly s u x) (c : Ctx) : SlotOnly s (u.setCtx c) { x with ctx := c } := by
  obtain rfl := h.slot
  exact h.set _

theorem SlotOnly.g {s t : State} {x : Slot} (h : SlotOnly s t x) (n : Reg) : t.g n = x.ctx.g[n] := by
  rw [State.g, State.ctx_eq, h.slot]

theorem SlotOnly.p {s t : State} {x : Slot} (h : SlotOnly s t x) (hx : x.ctx.p = s.slot.ctx.p) (n : Pred) : t.p n = s.p n := by
  rw [State.p, State.ctx_eq, h.slot, hx, State.p, State.ctx_eq]

theorem SlotOnly.sameMem {s t : State} {x : Slot} (h : SlotOnly s t x) : SameMem s t := fun _ => by rw [h.rest]

/-- A word whose effect raises traps, with its issue counted. -/
theorem issue_stop {i : Instr} {g : Guard} {min : Nat} {barred : Bool} {body : State → Out} {s : State} {c : Byte} {v : Word}
    (h : s.Performs g min barred) (hb : body s.counted = .stop (.trap c v)) : issue i g min barred body s = .next (s.counted.trap c v) := by
  rw [issue_performs h, hb, settle]

/-- What a word that writes no register does: its context ends as `c`, which holds another PC and loop stack at most, the trail stands,
and nothing else of R102's changes. -/
structure Flowed (s t : State) (c : Ctx) : Prop where
  ctx : t.ctx = c
  trail : t.slot.trail = s.slot.trail
  frame : RegFrame s t [] []

theorem SlotOnly.flowed {s t : State} {c : Ctx} {k : Nat} (h : SlotOnly s t { s.slot with ctx := c, hcount := k, prog := {} })
    (hc : c = { s.slot.ctx with pc := c.pc, loops := c.loops }) : Flowed s t c where
  ctx := by rw [State.ctx_eq, h.slot]
  trail := by rw [h.slot]
  frame := by
    have hs := h.slot
    rw [hc] at hs
    exact RegFrame.of hs h.others h.rest (fun _ _ => rfl) fun _ _ _ => rfl

/-- A transfer with no effect of its own (R116). -/
theorem issue_jump {i : Instr} {g : Guard} {min : Nat} {barred : Bool} {body : State → Out} {s : State} {v : Word}
    (h : s.Performs g min barred) (hb : body s.counted = .jump s.counted v) :
    ∃ t, issue i g min barred body s = .next t ∧ Flowed s t { s.ctx with pc := v } := by
  obtain ⟨k, hk⟩ := SlotOnly.counted s
  exact ⟨_, by rw [issue_performs h, hb], (hk.settle_jump s.counted v).flowed rfl⟩

/-- A word that changes the loop stack alone and is no transfer: its end check follows (R127). -/
theorem issue_seq {i : Instr} {g : Guard} {min : Nat} {barred : Bool} {body : State → Out} {s u : State} {k : Nat} (l : Loops)
    (h : s.Performs g min barred) (hb : body s.counted = .seq u)
    (hu : SlotOnly s u { s.slot with ctx := { s.ctx with loops := l }, hcount := k }) :
    ∃ t, issue i g min barred body s = .next t ∧ Flowed s t (({ s.ctx with loops := l } : Ctx).endCheck s.ctx.pc) := by
  have ht := hu.settle_seq s.counted
  rw [State.counted_pc] at ht
  exact ⟨_, by rw [issue_performs h, hb], ht.flowed (Ctx.endCheck_eq ..)⟩

/-- A word with no effect of its own that is no transfer. -/
theorem issue_idle {i : Instr} {g : Guard} {min : Nat} {barred : Bool} {body : State → Out} {s : State}
    (h : s.Performs g min barred) (hb : body s.counted = .seq s.counted) :
    ∃ t, issue i g min barred body s = .next t ∧ Flowed s t (s.ctx.endCheck s.ctx.pc) := by
  obtain ⟨k, hk⟩ := SlotOnly.counted s
  exact issue_seq s.ctx.loops h hb hk

/-- A transfer whose effect is another slot for the thread that acts, made of its own whatever count of issues that holds. -/
theorem issue_jump_slot {i : Instr} {g : Guard} {min : Nat} {barred : Bool} {body : State → Out} {s : State} {v : Word} (f : Slot → Slot)
    (hf : ∀ x k, f { x with hcount := k } = { f x with hcount := k }) (h : s.Performs g min barred)
    (hb : body s.counted = .jump (s.counted.setSlot (f s.counted.slot)) v) :
    ∃ t k, issue i g min barred body s = .next t ∧
      SlotOnly s t { f s.slot with ctx := { (f s.slot).ctx with pc := v }, hcount := k, prog := {} } := by
  obtain ⟨k, hk⟩ := SlotOnly.counted s
  have hs := (hk.set (f s.counted.slot)).settle_jump s.counted v
  refine ⟨_, k, by rw [issue_performs h, hb], ?_⟩
  have hx : f s.counted.slot = { f s.slot with hcount := k } := by rw [hk.slot, hf]
  rw [hx] at hs ⊢
  exact hs

/-! ## What a counted issue sees -/

theorem State.counted_ctx (s : State) : s.counted.ctx = s.ctx := by
  obtain ⟨k, hslot, -, -⟩ := s.counted_eq
  rw [State.ctx_eq, hslot]
  rfl

theorem State.counted_coreIdx (s : State) : s.counted.coreIdx = s.coreIdx := by
  obtain ⟨k, hk⟩ := SlotOnly.counted s
  rw [State.coreIdx, hk.cur, State.coreIdx]

theorem State.counted_mem (s : State) : s.counted.mem = s.mem := by
  obtain ⟨k, -, hrest, -⟩ := s.counted_eq
  rw [hrest]

theorem State.counted_badAt (s : State) (a : Nat) : s.counted.badAt a = s.badAt a := by
  obtain ⟨k, -, hrest, -⟩ := s.counted_eq
  rw [hrest]
  rfl

theorem State.counted_locate (s : State) : s.counted.locate = s.locate := by
  obtain ⟨k, -, hrest, -⟩ := s.counted_eq
  rw [hrest]
  rfl

theorem State.counted_readAt (s : State) : s.counted.readAt = s.readAt := by
  obtain ⟨k, -, hrest, -⟩ := s.counted_eq
  rw [hrest]
  rfl

/-- The checks of R73 ask for the segments and the partition of the slot, and for nothing else of it. -/
theorem State.counted_access (s : State) (va : Word) (n : Nat) (q : Need) : s.counted.access va n q = s.access va n q := by
  obtain ⟨k, hslot, -, -⟩ := s.counted_eq
  rw [State.access, State.counted_locate, State.counted_coreIdx, hslot]
  rfl

/-! ## Reads made at the executing core (R15, R74) -/

theorem State.readAt_of_good {s : State} {pl : Place} (h : s.badAt pl.phys = false) (va : Word) (n : Nat) :
    s.readAt va pl n = .ok (s.mem.read pl.phys n) := by
  rw [State.readAt, if_neg (by simp [h])]

theorem State.readAt_of_bad {s : State} {pl : Place} (h : s.badAt pl.phys = true) (va : Word) (n : Nat) :
    s.readAt va pl n = .error (.trap 0x17 va) := if_pos h

/-- A read whose home is the executing core is answered there at once, with the bytes. -/
theorem reach_read_here {s : State} {va : Word} {pl : Place} {n v : Nat} (i : Instr) (m : Bool) (reg : Option (Word → Req)) (f : Finish)
    (hh : pl.home = s.coreIdx) (hv : s.readAt va pl n = .ok v) :
    reach i m va (.here pl) (.read va · n .plain) reg f s = finish f (.ok (.ofNat 512 v)) s := by
  simp only [reach, access, if_pos hh, State.perform, hv]
  rfl

/-- One whose line fails its check is answered with what that raises (R73). -/
theorem reach_read_fails {s : State} {va : Word} {pl : Place} {n : Nat} {e : Stop} (i : Instr) (m : Bool) (reg : Option (Word → Req))
    (f : Finish) (hh : pl.home = s.coreIdx) (he : s.readAt va pl n = .error e) :
    reach i m va (.here pl) (.read va · n .plain) reg f s = finish f (.ofStop e) s := by
  simp only [reach, access, if_pos hh, State.perform, he]

/-! ## Several bytes read (R6) -/

theorem Mem.read_lt (m : Mem) (a n : Nat) : m.read a n < 256 ^ n := by
  induction n generalizing a with
  | zero => exact Nat.one_pos
  | succ n ih =>
    have hb := (m.byte a).isLt
    have hr := ih (a + 1)
    rw [Mem.read, Nat.pow_succ]
    omega

theorem Mem.toNat_ofNat_read (m : Mem) (a n : Nat) : (BitVec.ofNat (8 * n) (m.read a n)).toNat = m.read a n := by
  rw [BitVec.toNat_ofNat, Nat.pow_mul]
  exact Nat.mod_eq_of_lt (Mem.read_lt m a n)

/-- A read in two parts, the lower one first. -/
theorem Mem.read_add (m : Mem) (a j n : Nat) : m.read a (j + n) = m.read a j + 256 ^ j * m.read (a + j) n := by
  induction j generalizing a with
  | zero => simp [Mem.read]
  | succ j ih =>
    rw [Nat.succ_add, Mem.read, ih, Mem.read, Nat.add_right_comm a 1 j, Nat.pow_succ, Nat.add_assoc a, Nat.mul_add,
      ← Nat.mul_assoc, Nat.mul_comm 256 (256 ^ j), Nat.add_assoc]

end Sys2Proof.Machine
end

section
/-! O5. Branches, jumps and jump tables (R116 to R119). -/

namespace Sys2Proof.Machine

/-! ## Transfers (R116, R117) -/

theorem four_mul_signExtend {n : Nat} (x : BitVec n) : 4 * x.signExtend 64 = BitVec.ofInt 64 (4 * x.toInt) :=
  (BitVec.ofInt_mul 4 x.toInt).symm

/-- The target depends on registers and the PC alone, which counting an issue leaves. -/
theorem transferOf_counted (s : State) (i : Instr) : transferOf s.counted i = transferOf s i := by
  simp only [transferOf, State.g_counted, State.counted_pc]

/-- A transfer issues a body that does nothing but jump to its target. -/
theorem exec_of_transferOf {u : State} {i : Instr} {g : Guard} {v : Word} (h : transferOf u i = some (g, v)) :
    ∃ body, (∀ s, exec i s = issue i g 0 false body s) ∧ body u = .jump u v := by
  unfold transferOf at h
  split at h <;> cases h
  next o => exact ⟨_, fun s => Eq.refl (execBr g o s), congrArg (fun t => Out.jump u (u.ctx.pc + t)) (four_mul_signExtend o)⟩
  next a => exact ⟨_, fun s => Eq.refl (execJr g a s), rfl⟩
  next a k => exact ⟨_, fun s => Eq.refl (execJmp g a k s), congrArg (fun t => Out.jump u (u.g a + t)) (four_mul_signExtend k)⟩

theorem transfers : Rules.Transfers := by
  intro s i g v hv hp
  obtain ⟨body, he, hb⟩ := exec_of_transferOf ((transferOf_counted s i).trans hv)
  obtain ⟨t, ht, h⟩ := issue_jump hp hb
  exact ⟨t, (he s).trans ht, by rw [h.ctx], by rw [h.ctx], h.frame, h.trail⟩

/-! ## Jump tables (R118, R119) -/

/-- What a JTAB does once it issues. -/
def jtabBody (i : Instr) (a b : Reg) (l : BitVec 9) (s : State) : Out :=
  if l.toNat ≤ (s.g a).toNat then .seq s
  else .bind (s.access (s.g b + 4 * s.g a) 4 { r := true, n := true }) fun tg =>
    reach i false (s.g b + 4 * s.g a) tg (.read (s.g b + 4 * s.g a) · 4 .plain) (some (.w4read · 4)) .jtab s

theorem exec_jtab (g : Guard) (a b : Reg) (l : BitVec 9) (s : State) :
    exec (.jtab g a b l) s = issue (.jtab g a b l) g 0 false (jtabBody (.jtab g a b l) a b l) s := rfl

theorem jtabBody_default {s : State} {a : Reg} {l : BitVec 9} (i : Instr) (b : Reg) (h : l.toNat ≤ (s.g a).toNat) :
    jtabBody i a b l s = .seq s := if_pos h

/-- The entry read is the low word of the answer, and counts words (R118). -/
theorem finish_jtab (s : State) (v : Vec) :
    finish .jtab (.ok v) s = .jump s (s.ctx.pc + .ofInt 64 (4 * (v.setWidth 32).toInt)) :=
  congrArg (fun t => Out.jump s (s.ctx.pc + t)) (four_mul_signExtend _)

/-- With its entry at the executing core, a JTAB reads it there and jumps by it. -/
theorem jtabBody_taken {s : State} {a b : Reg} {l : BitVec 9} {pl : Place} {v : Nat} (i : Instr) (hl : (s.g a).toNat < l.toNat)
    (ha : s.access (s.g b + 4 * s.g a) 4 { r := true, n := true } = .ok (.here pl)) (hh : pl.home = s.coreIdx)
    (hv : s.readAt (s.g b + 4 * s.g a) pl 4 = .ok v) :
    jtabBody i a b l s = .jump s (s.ctx.pc + .ofInt 64 (4 * (BitVec.ofNat 32 v).toInt)) := by
  rw [jtabBody, if_neg (Nat.not_le.2 hl), ha, Out.bind, reach_read_here i false _ .jtab hh hv, finish_jtab,
    BitVec.setWidth_ofNat_of_le (by omega)]

theorem jumpTableDefault : Rules.JumpTableDefault := by
  intro s g a b l hp hl
  obtain ⟨t, ht, h⟩ := issue_idle hp (jtabBody_default (.jtab g a b l) b ((State.g_counted s a).symm ▸ hl))
  exact ⟨t, ht, by rw [h.ctx], h.frame, h.trail⟩

theorem jumpTableTaken : Rules.JumpTableTaken := by
  intro s g a b l pl v hp hl ha hh hv
  have hb := jtabBody_taken (s := s.counted) (a := a) (b := b) (l := l) (pl := pl) (v := v) (.jtab g a b l)
  simp only [State.g_counted, State.counted_access, State.counted_coreIdx, State.counted_readAt, State.counted_pc] at hb
  obtain ⟨t, ht, h⟩ := issue_jump hp (hb hl ha hh hv)
  exact ⟨t, ht, by rw [h.ctx], h.frame, by rw [h.ctx]⟩

end Sys2Proof.Machine

/-- Settles O5, a part for each of its three rules: a transfer's body is a jump alone, and so is that of a JTAB, once its entry is read. -/
theorem transfersOfControl : Obligations.TransfersOfControl :=
  ⟨Sys2Proof.Machine.transfers, Sys2Proof.Machine.jumpTableDefault, Sys2Proof.Machine.jumpTableTaken⟩
end

section
/-! O7. LOOP and LOOPI, the end check, LEXIT and NOP (R125 to R130). -/

namespace Sys2Proof.Machine

/-! ## Opening a loop (R126, R128) -/

/-- The loop stack with a loop of `n` trips opened by the word at `pc`, whose body ends `e` words after it (R126). -/
def loopOpened (l : Loops) (pc : Word) (n : Nat) (e : BitVec 9) : Loops :=
  loopsOf (loopsUsed l ++ [loopEntry (n - 1) e.toNat ((pc + 4 * e.setWidth 64).toNat / 4 % 2 ^ 11)])

theorem openLoop_many {w : Word} (h : 4095 < w.toNat) (e : BitVec 9) (s : State) : openLoop w e s = .stop (.trap 0x0B w) := if_pos h

theorem openLoop_zero (e : BitVec 9) (s : State) : openLoop 0 e s = .jump s (s.ctx.pc + 4 * (e.setWidth 64 + 1)) :=
  congrArg (Out.jump s) (by rw [BitVec.mul_add, BitVec.add_assoc]; rfl)

theorem openLoop_full {w : Word} {s : State} (h0 : 0 < w.toNat) (h : w.toNat ≤ 4095) (hl : 4 ≤ (loopsUsed s.ctx.loops).length)
    (e : BitVec 9) : openLoop w e s = .stop (.trap 0x0B 0) := by
  have hw : w ≠ 0 := fun hw => by simp [hw] at h0
  rw [openLoop, if_neg (Nat.not_lt.2 h), if_neg hw, if_pos hl]
  rfl

theorem openLoop_opens {w : Word} {s : State} (h0 : 0 < w.toNat) (h : w.toNat ≤ 4095) (hl : (loopsUsed s.ctx.loops).length < 4)
    (e : BitVec 9) : openLoop w e s = .seq (s.setCtx { s.ctx with loops := loopOpened s.ctx.loops s.ctx.pc w.toNat e }) := by
  have hw : w ≠ 0 := fun hw => by simp [hw] at h0
  rw [openLoop, if_neg (Nat.not_lt.2 h), if_neg hw, if_neg (Nat.not_le.2 hl)]
  rfl

/-- LOOP and LOOPI issue the opening of a loop of as many trips as their operand gives. -/
theorem exec_of_loopOf {s : State} {i : Instr} {g : Guard} {n : Nat} {e : BitVec 9} (h : loopOf s i = some (g, n, e)) :
    ∃ (body : State → Out) (w : Word),
      w.toNat = n ∧ exec i s = issue i g 0 false body s ∧ body s.counted = openLoop w e s.counted := by
  unfold loopOf at h
  split at h <;> cases h
  next c => exact ⟨_, s.g c, rfl, Eq.refl (execLoop g c e s), congrArg (openLoop · e s.counted) (State.g_counted s c)⟩
  next k => exact ⟨_, k.setWidth 64, BitVec.toNat_setWidth_of_le (by omega), Eq.refl (execLoopi g k e s), rfl⟩

theorem loops : Rules.Loops := by
  intro s i g n e hv hp
  obtain ⟨body, w, rfl, he, hb⟩ := exec_of_loopOf hv
  obtain ⟨k, hk⟩ := SlotOnly.counted s
  have hc := s.counted_ctx
  rw [he]
  refine ⟨fun h => ?_, fun h => ?_, fun h0 h hl => ?_, fun h0 h hl => ?_⟩
  · rw [BitVec.ofNat_toNat, BitVec.setWidth_eq]
    exact issue_stop hp (hb.trans (openLoop_many h e _))
  · obtain rfl : w = 0 := BitVec.eq_of_toNat_eq h
    rw [openLoop_zero, hc] at hb
    obtain ⟨t, ht, hf⟩ := issue_jump hp hb
    exact ⟨t, ht, by rw [hf.ctx], by rw [hf.ctx], hf.frame⟩
  · exact issue_stop hp (hb.trans (openLoop_full h0 h (by rwa [hc]) e))
  · rw [openLoop_opens h0 h (by rwa [hc]) e, hc] at hb
    obtain ⟨t, ht, hf⟩ := issue_seq (loopOpened s.ctx.loops s.ctx.pc w.toNat e) hp hb (hk.setCtx _)
    exact ⟨t, ht, hf.frame, by rw [hf.ctx]; rfl⟩

/-! ## The end check (R127) -/

/-- An entry gives back fields that fit. -/
theorem loopC_loopEntry {c l e : Nat} (hc : c < 2 ^ 12) (hl : l < 2 ^ 9) (he : e < 2 ^ 11) : loopC (loopEntry c l e) = c := by
  simp only [loopC, loopEntry, BitVec.toNat_ofNat]
  omega

theorem loopL_loopEntry (c : Nat) {l e : Nat} (hl : l < 2 ^ 9) (he : e < 2 ^ 11) : loopL (loopEntry c l e) = l := by
  simp only [loopL, loopEntry, BitVec.toNat_ofNat]
  omega

theorem loopE_loopEntry (c l : Nat) {e : Nat} (he : e < 2 ^ 11) : loopE (loopEntry c l e) = e := by
  simp only [loopE, loopEntry, BitVec.toNat_ofNat]
  omega

theorem loopC_lt (e : Half) : loopC e < 2 ^ 12 := Nat.div_lt_of_lt_mul e.isLt

theorem loopL_lt (e : Half) : loopL e < 2 ^ 9 := Nat.mod_lt _ (by decide)

theorem loopE_lt (e : Half) : loopE e < 2 ^ 11 := Nat.mod_lt _ (by decide)

/-- The loop's first word is L − 1 words before its last. -/
theorem four_mul_pred {l : Nat} (h : l ≠ 0) : 4 * (BitVec.ofNat 64 l - 1) = BitVec.ofNat 64 (4 * (l - 1)) := by
  obtain ⟨l, rfl⟩ := Nat.exists_eq_succ_of_ne_zero h
  rw [Nat.succ_sub_one, BitVec.ofNat_mul, Nat.succ_eq_add_one, BitVec.ofNat_add]
  exact congrArg (4 * ·) (BitVec.add_sub_cancel _ 1)

theorem endCheck : Rules.EndCheck := by
  intro a e r hL
  have hlt := loopC_lt e
  refine ⟨rfl, fun h => if_neg h, fun h hc => ?_, fun h hc => ⟨loopEntry (loopC e - 1) (loopL e) (loopE e), ?_, ?_, ?_, ?_⟩⟩
  · rw [endCheckFrom, if_pos h, if_neg (by omega)]
  · rw [endCheckFrom, if_pos h, if_pos hc, four_mul_pred hL]
  · rw [loopC_loopEntry (by omega) (loopL_lt e) (loopE_lt e)]
    omega
  · exact loopL_loopEntry _ (loopL_lt e) (loopE_lt e)
  · exact loopE_loopEntry _ _ (loopE_lt e)

/-! ## LEXIT and NOP (R129, R130) -/

theorem loopExitAndNop : Rules.LoopExitAndNop := by
  intro s g hp
  obtain ⟨k, hk⟩ := SlotOnly.counted s
  constructor
  · obtain ⟨t, ht, h⟩ := issue_idle (i := .nop g) hp (Eq.refl (Out.seq s.counted))
    exact ⟨t, ht, h.ctx, h.frame⟩
  · obtain ⟨t, ht, h⟩ := issue_seq (i := .lexit g) (loopsOf (loopsUsed s.ctx.loops).dropLast)
      (body := fun s => .seq (s.setCtx { s.ctx with loops := loopsOf (loopsUsed s.ctx.loops).dropLast }))
      hp rfl (by rw [s.counted_ctx]; exact hk.setCtx _)
    exact ⟨t, ht, h.frame, h.ctx⟩

theorem loopWords : Rules.LoopWords := fun g => ⟨congrArg some (by omega), congrArg some (by omega)⟩

end Sys2Proof.Machine

/-- Settles O7, a part for each of its four rules: each word's effect on the loop stack with the end check behind it, and the fields that
an entry gives back. -/
theorem hardwareLoops : Obligations.HardwareLoops :=
  ⟨Sys2Proof.Machine.loops, Sys2Proof.Machine.endCheck, Sys2Proof.Machine.loopExitAndNop, Sys2Proof.Machine.loopWords⟩
end

section
/-! SUPPORT for O6. The end of a thread (R230, R231, R235): what its task and its launch are told leaves every slot, and a thread that has
nothing to wait for frees its own. -/

namespace Sys2Proof.Machine

/-! ## What its task and its launch are told -/

theorem State.addFault_slots {s t : State} {c : Nat} {p : Fin 8} {va : Word} {kind : Nat} {w : Waiter}
    (h : s.addFault c p va kind w = some t) : t.slots = s.slots := by
  obtain ⟨q, -, rfl⟩ := Option.map_eq_some_iff.1 h
  rfl

/-- A write that no slot makes counts for none (R170). -/
theorem State.nowWrite_slots (s : State) (p : Fin 8) (a n x : Nat) (r : Option Nat) : (s.nowWrite p a n x none r).slots = s.slots := rfl

theorem State.record_slots (s : State) (p : Fin 8) (m : Vec) : (s.record p m).slots = s.slots := by
  unfold State.record
  dsimp only
  split
  · rfl
  · split
    · rw [State.signal_slots, State.setPartAt_slots, State.nowWrite_slots]
    · rfl

/-- A completion on its way leaves every slot. -/
theorem State.complete_slots (s : State) (p : Fin 8) (cdst : Word) (src core : Nat) (host : Bool) (m : Vec) :
    (s.complete p cdst src core host m).slots = s.slots := by
  have hf : (if host then s.record p m else s.post p src core false m).slots = s.slots := by
    split
    · exact s.record_slots p m
    · rfl
  have hq (va : Word) : ((s.addFault (core / 16) p va 6 (.unit s.stamp)).getD s).slots = s.slots := by
    cases h : s.addFault (core / 16) p va 6 (.unit s.stamp) with
    | none => rfl
    | some t => exact State.addFault_slots h
  unfold State.complete
  dsimp only
  split
  · exact hf
  · split
    · rfl
    · rfl
    · exact hq _
    · exact hf

theorem State.endLaunch_slots (s : State) (p : Fin 8) (l : Launch) (at_ : Nat) : (s.endLaunch p l at_).slots = s.slots := by
  unfold State.endLaunch
  dsimp only
  split
  · rfl
  · exact State.complete_slots ..

theorem State.retire_slots (s : State) (p : Fin 8) (id task at_ : Nat) : (s.retire p id task at_).slots = s.slots := by
  unfold State.retire
  split
  · rfl
  · rw [State.endLaunch_slots]
    split
    · exact State.complete_slots ..
    · rfl

theorem State.onTask_slots (s : State) (p : Fin 8) (task : Option (Nat × Nat)) (f : TaskRec → TaskRec) :
    (s.onTask p task f).slots = s.slots := by
  unfold State.onTask
  split
  · rfl
  · split <;> rfl

/-- What the end of a thread tells its task and its launch leaves every slot (R230, R231). -/
theorem State.threadGone_slots (s : State) (p : Fin 8) (task : Option (Nat × Nat)) (at_ : Nat) :
    (s.threadGone p task at_).slots = s.slots := by
  unfold State.threadGone
  dsimp only
  split
  · exact State.onTask_slots ..
  · split
    · exact State.onTask_slots ..
    · split
      · rw [State.retire_slots, State.onTask_slots]
      · exact State.onTask_slots ..

theorem State.slotAt_threadGone (s : State) (p : Fin 8) (task : Option (Nat × Nat)) (at_ m : Nat) :
    (s.threadGone p task at_).slotAt m = s.slotAt m := by
  rw [State.slotAt, State.threadGone_slots, State.slotAt]

/-! ## A thread with nothing to wait for -/

theorem State.unbind_of_free {s : State} {n : Nat} (h : (s.slotAt n).bind = none) : s.unbind n = s := by
  rw [State.unbind, h]

theorem State.dropProv_none {s : State} {n : Nat} (h : s.provOf n = []) : s.dropProv (n / 16) (fun e => e.slot == n) = s := by
  refine if_neg fun ha => ?_
  obtain ⟨e, he, hn⟩ := List.any_eq_true.1 ha
  exact List.filter_eq_nil_iff.1 h e he hn

/-- A thread of no handler that has nothing left to drop frees its slot, and then its task hears of it. -/
theorem State.endThread_free {s : State} {n : Nat} (hb : (s.slotAt n).bind = none) (hp : s.provOf n = [])
    (hh : (s.slotAt n).handler = false) : s.endThread n false =
      (s.setSlotAt n { part := (s.slotAt n).part, ready := (s.slotAt n).ready, gen := (s.slotAt n).gen }).threadGone
        (s.slotAt n).part (s.slotAt n).task (n / 16) := by
  simp [State.endThread, State.unbind_of_free hb, State.dropProv_none hp, hh, State.vacate]

/-- A thread that may end does (R235). -/
theorem exitThread_ends {s : State} (h : s.MayEnd) (i : Instr) : exitThread i false s = .stay (s.endThread s.cur false) := by
  obtain ⟨hpoints, hbind, hprov, hunacked, hrsvn, hlost, hscope, -⟩ := h
  rw [State.ctx_eq] at hrsvn
  simp [exitThread, hlost, hpoints, hbind, hprov, hunacked, hrsvn, hscope]

end Sys2Proof.Machine
end

section
/-! O6. Calls, returns and the register windows (R120 to R123, R131). -/

namespace Sys2Proof.Machine

/-! ## Windows (R120) -/

theorem Ctx.setWindow_low (c : Ctx) (w : Window) {n : Reg} (h : n.val < 8) : (c.setWindow w).g[n] = c.g[n] := by
  simp [Ctx.setWindow, h]

theorem Ctx.setWindow_high (c : Ctx) (w : Window) {n : Reg} (h : 8 ≤ n.val) : (c.setWindow w).g[n] = w[n.val - 8] := by
  simp [Ctx.setWindow, Nat.not_lt.2 h]

/-- The current window of a context whose general registers are those of one with its window set. -/
theorem Ctx.window_setWindow {c d : Ctx} {w : Window} (h : d.g = (c.setWindow w).g) : d.window = w := by
  refine Vector.ext fun i hi => ?_
  have hi8 : w[8 + i - 8] = w[i] := by simp only [Nat.add_sub_cancel_left]
  rw [Ctx.window, Vector.getElem_ofFn, h]
  exact (Ctx.setWindow_high c w (n := ⟨8 + i, by omega⟩) (Nat.le_add_right 8 i)).trans hi8

/-- The doublewords of the 64 bytes read are the window's registers, g8 first. -/
theorem windowOf_read (m : Mem) (a : Nat) :
    windowOf (BitVec.ofNat 512 (m.read a 64)).toNat = Vector.ofFn fun i => .ofNat 64 (m.read (a + 8 * i.val) 8) := by
  rw [Mem.toNat_ofNat_read m a 64, windowOf]
  congr 1
  funext i
  obtain ⟨k, hk⟩ : ∃ k, 64 = 8 * i.val + (8 + k) := ⟨56 - 8 * i.val, by omega⟩
  have h256 : 2 ^ (64 * i.val) = 256 ^ (8 * i.val) := by
    rw [show (256 : Nat) = 2 ^ 8 from rfl, ← Nat.pow_mul]
    congr 1
    omega
  have hs : m.read a 64 / 2 ^ (64 * i.val) = m.read (a + 8 * i.val) 8 + 256 ^ 8 * m.read (a + 8 * i.val + 8) k := by
    rw [h256, hk, Mem.read_add m a, Nat.add_mul_div_left _ _ (Nat.pow_pos (by decide)), Nat.div_eq_of_lt (Mem.read_lt m a _), Nat.zero_add,
      Mem.read_add]
  rw [hs]
  exact BitVec.eq_of_toNat_eq (Nat.add_mul_mod_self_left _ _ _)

/-- The frame of a window lies 64 bytes below that of the next older one. -/
theorem wf_deeper (wsp : Word) (n : Nat) :
    wsp - 64 * (BitVec.ofNat 64 (n + 1) + 1) = wsp - 64 * (BitVec.ofNat 64 n + 1) - 64 := by
  rw [BitVec.ofNat_add]
  bv_omega

/-! ## Calls (R122) -/

/-- The window that a call enters: 0, but for the caller's g14 and the return address. -/
def Ctx.callee (c : Ctx) : Window := #v[0, 0, 0, 0, 0, 0, c.g[14], c.pc + 4]

/-- The slot that a call leaves while the cache has room: the caller's window there, the new one current. -/
def Slot.called (x : Slot) : Slot := { x with windows := x.ctx.window :: x.windows, ctx := x.ctx.setWindow x.ctx.callee }

theorem callTo_cached {s : State} (h : s.slot.windows.length < 4) (i : Instr) (v : Word) :
    callTo i v s = .jump (s.setSlot s.slot.called) v := if_neg (Nat.not_le.2 h)

/-- The target depends on registers and the PC alone, which counting an issue leaves. -/
theorem callOf_counted (s : State) (i : Instr) : callOf s.counted i = callOf s i := by
  simp only [callOf, State.g_counted, State.counted_pc]

/-- CALL and CALLR issue a call to their target. -/
theorem exec_of_callOf {u : State} {i : Instr} {g : Guard} {v : Word} (h : callOf u i = some (g, v)) :
    ∃ body, (∀ s, exec i s = issue i g 0 false body s) ∧ body u = callTo i v u := by
  unfold callOf at h
  split at h <;> cases h
  next o =>
    exact ⟨_, fun s => Eq.refl (execCall g o s), congrArg (fun t => callTo (.call g o) (u.ctx.pc + t) u) (four_mul_signExtend o)⟩
  next a => exact ⟨_, fun s => Eq.refl (execCallr g a s), rfl⟩

theorem Ctx.callee_zero (c : Ctx) {j : Nat} (h : j < 6) : c.callee[j] = 0 := by
  match j, h with
  | 0, _ | 1, _ | 2, _ | 3, _ | 4, _ | 5, _ => rfl

theorem calls : Rules.Calls := by
  intro s i g v hv hp hl
  obtain ⟨body, he, hb⟩ := exec_of_callOf ((callOf_counted s i).trans hv)
  have hw : s.counted.slot.windows.length < 4 := by
    obtain ⟨k, hk⟩ := SlotOnly.counted s
    rwa [hk.slot]
  rw [callTo_cached hw] at hb
  obtain ⟨t, k, ht, h⟩ := issue_jump_slot Slot.called (fun _ _ => rfl) hp hb
  have hctx : t.ctx = { s.ctx.setWindow s.ctx.callee with pc := v } := congrArg Slot.ctx h.slot
  have hg (n : Reg) : t.g n = (s.ctx.setWindow s.ctx.callee).g[n] := by rw [State.g, hctx]
  refine ⟨t, (he s).trans ht, by rw [hctx], by rw [h.slot]; rfl, fun n hn => ?_, fun n h8 h14 => ?_, ?_, ?_, by rw [hctx]; rfl, ?_,
    by rw [h.slot]; rfl, h.p rfl, h.sameMem, h.others, h.rest⟩
  · rw [hg, Ctx.setWindow_low _ _ hn]
    rfl
  · rw [hg, Ctx.setWindow_high _ _ h8]
    exact Ctx.callee_zero _ (by omega)
  · rw [hg, Ctx.setWindow_high _ _ (by decide)]
    rfl
  · rw [hg, Ctx.setWindow_high _ _ (by decide)]
    rfl
  · rw [h.slot]
    exact wf_deeper _ _

/-! ## Returns (R123) -/

/-- What a return to a window makes of the slot: the window current, `r` the older ones, WSP at `wsp`, and the loop entries popped. -/
def Slot.returned (w : Window) (r : List Window) (wsp : Word) (x : Slot) : Slot :=
  { x with windows := r, ctx := { x.ctx.setWindow w with wsp := wsp, loops := retLoops x.ctx.loops x.ctx.g[15] } }

theorem exec_ret (g : Guard) (s : State) : exec (.ret g) s = issue (.ret g) g 0 false (retBody (.ret g)) s := rfl

/-- A RET that jumps to the return address with a window made current has returned. -/
theorem exec_ret_returns {s : State} {g : Guard} (w : Window) (r : List Window) (wsp : Word) (hp : s.Performs g 0 false)
    (hb : retBody (.ret g) s.counted = .jump (s.counted.setSlot (s.counted.slot.returned w r wsp)) (s.counted.g 15))
    (hf : wsp - 64 * (BitVec.ofNat 64 r.length + 1) = s.slot.wf + 64) :
    ∃ t, exec (.ret g) s = .next t ∧ Returned s t w r ∧ t.ctx.wsp = wsp := by
  rw [s.g_counted] at hb
  obtain ⟨t, k, ht, h⟩ := issue_jump_slot (Slot.returned w r wsp) (fun _ _ => rfl) hp hb
  have hctx : t.ctx = { s.ctx.setWindow w with pc := s.g 15, wsp := wsp, loops := retLoops s.ctx.loops (s.g 15) } :=
    congrArg Slot.ctx h.slot
  have hg : t.ctx.g = (s.ctx.setWindow w).g := by rw [hctx]
  have hr : Returned s t w r :=
    { pc := by rw [hctx]
      windows := by rw [h.slot]; rfl
      window := Ctx.window_setWindow hg
      low := fun n hn => by rw [State.g, hg, Ctx.setWindow_low _ _ hn]; rfl
      loops := by rw [hctx]
      frame := by rw [h.slot]; exact hf
      preds := h.p rfl
      mem := h.sameMem
      others := h.others
      rest := h.rest }
  exact ⟨t, ht, hr, by rw [hctx]⟩

/-- RET would leave the window of the newest choice point (R123). -/
def State.escapes (s : State) : Bool :=
  !s.slot.inh && match s.slot.points with
    | [] => false
    | q :: _ => s.slot.wf == q.wf

theorem State.escapes_of_closed {s : State} (h : s.slot.points = []) : s.escapes = false := by
  rw [State.escapes, h, Bool.and_false]

theorem State.escapes_of_frame {s : State} {q : Point} {r : List Point} (hi : s.slot.inh = false) (h : s.slot.points = q :: r)
    (hq : q.wf = s.slot.wf) : s.escapes = true := by
  rw [State.escapes, hi, h]
  exact beq_iff_eq.2 hq.symm

theorem retBody_escapes {s : State} (i : Instr) (h : s.escapes = true) : retBody i s = .stop (.trap 0x12 (s.g 15)) := if_pos h

/-- With lk 0, RET ends the task (R123). -/
theorem retBody_ends {s : State} (i : Instr) (h : s.escapes = false) (h15 : s.g 15 = 0) : retBody i s = exitThread i false s :=
  (if_neg (ne_true_of_eq_false h)).trans (if_pos h15)

/-- With lk not 0, RET makes the newest cached window current. -/
theorem retBody_cached {s : State} {w : Window} {r : List Window} (i : Instr) (h : s.escapes = false) (h15 : s.g 15 ≠ 0)
    (hw : s.slot.windows = w :: r) : retBody i s = .jump (s.setSlot (s.slot.returned w r s.ctx.wsp)) (s.g 15) := by
  refine (if_neg (ne_true_of_eq_false h)).trans ((if_neg h15).trans ?_)
  rw [hw]
  rfl

/-- With none cached, it reads the one at WSP, which must not lie in W0. -/
theorem retBody_uncached {s : State} (i : Instr) (h : s.escapes = false) (h15 : s.g 15 ≠ 0) (hw : s.slot.windows = []) :
    retBody i s = if winOf (localAddr s.ctx.wsp) = some .w0 then .stop (.trap 0x03 s.ctx.wsp)
      else .bind (s.access s.ctx.wsp 64 { r := true, n := true }) fun tg =>
        reach i true s.ctx.wsp tg (.read s.ctx.wsp · 64 .plain) none .reload s := by
  refine (if_neg (ne_true_of_eq_false h)).trans ((if_neg h15).trans ?_)
  rw [hw]
  rfl

/-- The window read becomes current, and WSP moves past it (R121). -/
theorem finish_reload (s : State) (v : Vec) :
    finish .reload (.ok v) s = .jump (s.setSlot (s.slot.returned (windowOf v.toNat) s.slot.windows (s.ctx.wsp + 64))) (s.g 15) := rfl

/-- RET with no window cached and the one at WSP in the executing core's own store, as its read there goes. -/
theorem retBody_reload {s : State} {pl : Place} (i : Instr) (h : s.escapes = false) (h15 : s.g 15 ≠ 0) (hw : s.slot.windows = [])
    (h0 : winOf (localAddr s.ctx.wsp) ≠ some .w0) (ha : s.access s.ctx.wsp 64 { r := true, n := true } = .ok (.here pl))
    (hh : pl.home = s.coreIdx) :
    (s.badAt pl.phys = true → retBody i s = .stop (.trap 0x17 s.ctx.wsp)) ∧
    (s.badAt pl.phys = false → retBody i s = .jump
      (s.setSlot (s.slot.returned (Vector.ofFn fun i => .ofNat 64 (s.mem.read (pl.phys + 8 * i.val) 8)) [] (s.ctx.wsp + 64))) (s.g 15)) := by
  rw [retBody_uncached i h h15 hw, if_neg h0, ha, Out.bind]
  constructor
  · intro hbad
    exact reach_read_fails i true none .reload hh (State.readAt_of_bad hbad s.ctx.wsp 64)
  · intro hgood
    rw [reach_read_here i true none .reload hh (State.readAt_of_good hgood s.ctx.wsp 64), finish_reload, windowOf_read, hw]

/-- RET with lk 0 of a thread that may end is the end of its thread, as EXIT is. -/
theorem exec_ret_ends {s : State} {g : Guard} (hp : s.Performs g 0 false) (h15 : s.g 15 = 0) (h : s.MayEnd) :
    exec (.ret g) s = .next (s.endThread s.cur false) ∧ exec (.exit g) s = .next (s.endThread s.cur false) := by
  have ⟨hpoints, _, _, _, _, _, _, hhandler⟩ := h
  have hb := (retBody_ends (.ret g) (State.escapes_of_closed hpoints) h15).trans (exitThread_ends h _)
  have he : exec (.exit g) s = issue (.exit g) g 0 false (exitThread (.exit g) false) s := rfl
  rw [exec_ret, he, issue_performs hp, issue_performs hp, State.counted_of_plain hhandler, hb, exitThread_ends h]
  exact ⟨rfl, rfl⟩

theorem returns : Rules.Returns := by
  intro s g hp hc
  obtain ⟨k, hk⟩ := SlotOnly.counted s
  have hctx := s.counted_ctx
  have hwin : s.counted.slot.windows = s.slot.windows := by rw [hk.slot]
  have hesc : s.counted.escapes = false := State.escapes_of_closed (by rw [hk.slot]; exact hc)
  refine ⟨fun h15 => ?_, fun h15 hend => ?_⟩
  · rw [← s.g_counted] at h15
    refine ⟨fun w r hw => ?_, fun hw => ⟨fun h0 => ?_, fun pl h0 ha hh => ?_⟩⟩
    · refine exec_ret_returns w r s.ctx.wsp hp ?_ ?_
      · rw [retBody_cached (.ret g) hesc h15 (hwin.trans hw), hctx]
      · rw [Slot.wf, hw, List.length_cons, wf_deeper, BitVec.sub_add_cancel]
        rfl
    · have hb := retBody_uncached (.ret g) hesc h15 (hwin.trans hw)
      rw [hctx] at hb
      exact issue_stop hp (hb.trans (if_pos h0))
    · have hb := retBody_reload (s := s.counted) (pl := pl) (.ret g) hesc h15 (hwin.trans hw)
      rw [hctx, s.counted_access, s.counted_coreIdx, s.counted_badAt, s.counted_mem] at hb
      obtain ⟨hfails, hreads⟩ := hb h0 ha hh
      refine ⟨fun hbad => issue_stop hp (hfails hbad), fun hgood => ?_⟩
      have hf : s.ctx.wsp + 64 - 64 * (BitVec.ofNat 64 ([] : List Window).length + 1) = s.slot.wf + 64 := by
        rw [Slot.wf, hw]
        exact BitVec.sub_add_comm.symm
      obtain ⟨t, ht, hr, hwsp⟩ := exec_ret_returns _ [] (s.ctx.wsp + 64) hp (hreads hgood) hf
      exact ⟨t, ht, hwsp, hr⟩
  · obtain ⟨hret, hexit⟩ := exec_ret_ends hp h15 hend
    obtain ⟨-, hbind, hprov, -, -, -, -, hhandler⟩ := hend
    rw [State.endThread_free hbind hprov hhandler] at hret hexit
    refine ⟨_, hret, hexit, ?_, fun m hm => ?_⟩
    · rw [State.slotAt_threadGone, State.slotAt_setSlotAt_same]
      rfl
    · rw [State.slotAt_threadGone, State.slotAt_setSlotAt_ne _ _ hm]

theorem returnEscapes : Rules.ReturnEscapes := by
  intro s g q r hp hi hq hwf
  obtain ⟨k, hk⟩ := SlotOnly.counted s
  have hesc : s.counted.escapes = true :=
    State.escapes_of_frame (by rw [hk.slot]; exact hi) (by rw [hk.slot]; exact hq) (by rw [hk.slot]; exact hwf)
  rw [← s.g_counted]
  exact issue_stop hp (retBody_escapes (.ret g) hesc)

/-! ## The loop entries that RET pops (R131) -/

/-- An entry's body holds a word: its index, from the first word of the body, is below L. -/
theorem inBody_iff (t : Word) (e : Half) :
    (t.toNat / 4 + 2 ^ 11 - (loopE e + 2 ^ 11 - loopL e + 1) % 2 ^ 11) % 2 ^ 11 < loopL e ↔
      ∃ k, k < loopL e ∧ t.toNat / 4 % 2 ^ 11 = (loopE e + 2 ^ 11 + 1 + k - loopL e) % 2 ^ 11 := by
  have hl := loopL_lt e
  have he := loopE_lt e
  constructor
  · exact fun h => ⟨_, h, by omega⟩
  · rintro ⟨k, hk, h⟩
    omega

theorem popFor_inside {t : Word} {e : Half} (r : List Half)
    (h : ∃ k, k < loopL e ∧ t.toNat / 4 % 2 ^ 11 = (loopE e + 2 ^ 11 + 1 + k - loopL e) % 2 ^ 11) : popFor t (e :: r) = e :: r :=
  if_pos ((inBody_iff t e).2 h)

theorem popFor_outside {t : Word} {e : Half} (r : List Half)
    (h : ∀ k, k < loopL e → t.toNat / 4 % 2 ^ 11 ≠ (loopE e + 2 ^ 11 + 1 + k - loopL e) % 2 ^ 11) :
    popFor t (e :: r) = popFor t r :=
  if_neg fun hb => by
    obtain ⟨k, hk, he⟩ := (inBody_iff t e).1 hb
    exact h k hk he

theorem popFor_suffix (t : Word) (l : List Half) : popFor t l <:+ l := by
  induction l with
  | nil => exact List.suffix_refl _
  | cons e r ih =>
    rw [popFor]
    split
    · exact List.suffix_refl _
    · exact List.IsSuffix.trans ih (List.suffix_cons e r)

theorem toList_loopsOf {l : List Half} (hn : l.length ≤ 4) : (loopsOf l).toList = l ++ List.replicate (4 - l.length) 0 := by
  match l, hn with
  | [], _ | [_], _ | [_, _], _ | [_, _, _], _ | [_, _, _, _], _ => rfl

/-- A stack made of at most four entries that are not empty holds those. -/
theorem loopsUsed_loopsOf {l : List Half} (hn : l.length ≤ 4) (hl : ∀ e ∈ l, loopL e ≠ 0) : loopsUsed (loopsOf l) = l := by
  have hz : loopL 0 = 0 := by decide
  have hf : l.filter (fun e => loopL e != 0) = l := List.filter_eq_self.2 fun e he => bne_iff_ne.2 (hl e he)
  rw [loopsUsed, toList_loopsOf hn, List.filter_append, hf, List.filter_replicate, hz]
  exact List.append_nil l

theorem length_loopsUsed_le (l : Loops) : (loopsUsed l).length ≤ 4 :=
  Nat.le_trans (List.length_filter_le _ _) (Nat.le_of_eq Vector.length_toList)

theorem loopL_of_mem_loopsUsed {l : Loops} {e : Half} (h : e ∈ loopsUsed l) : loopL e ≠ 0 := by
  simpa using (List.mem_filter.1 h).2

theorem loopsUsed_retLoops (t : Word) (l : Loops) : loopsUsed (retLoops l t) = (popFor t (loopsUsed l).reverse).reverse := by
  have hs := popFor_suffix t (loopsUsed l).reverse
  refine loopsUsed_loopsOf ?_ fun e he => ?_
  · have hlen := hs.length_le
    rw [List.length_reverse] at hlen ⊢
    exact Nat.le_trans hlen (length_loopsUsed_le l)
  · exact loopL_of_mem_loopsUsed (List.mem_reverse.1 (hs.subset (List.mem_reverse.1 he)))

theorem loopsPopped : Rules.LoopsPopped := fun t _ r l => ⟨rfl, popFor_inside r, popFor_outside r, loopsUsed_retLoops t l⟩

end Sys2Proof.Machine

/-- Settles O6, a part for each of its four rules: calls and returns by what each makes of the slot that acts, the end of the task by what
leaves every other slot, and the pops by what they leave of the stack. -/
theorem callsAndReturns : Obligations.CallsAndReturns :=
  ⟨Sys2Proof.Machine.calls, Sys2Proof.Machine.returns, Sys2Proof.Machine.returnEscapes, Sys2Proof.Machine.loopsPopped⟩
end

section
/-! O14. FENCE, STSYNC and the packets of a drain (R170 to R172, R175, R176). -/

namespace Sys2Proof.Machine

/-! ## Drains (R171, R172) -/

/-- The routers that a drain at a scope waits for: those that an invalidation is still on its way to. -/
def State.owedRouters (s : State) (c : Scope) : List Nat := (s.scopeRouters s.cluster c).filter s.owes

/-- The state with a token of the thread that acts in flight to each router of a list. -/
def State.sendTokens (s : State) (l : List Nat) : State :=
  { s with net := s.net ++ l.map fun r => ⟨s.slot.part, .token s.cur r⟩ }

/-- A drain of a thread with a write that is not acknowledged waits until it is settled. -/
theorem drain_of_unsettled {s : State} (hp : s.slot.prog.drained = false) (hu : s.slot.unacked ≠ 0) (i : Instr) (c : Scope)
    (k : State → Out) : drain i c k s = .stay (s.await i .settle) := by
  rw [drain, if_neg (Bool.eq_false_iff.1 hp), if_pos hu]

/-- A settled thread's drain waits for a token at each router that is owed an invalidation. -/
theorem drain_of_owed {s : State} {c : Scope} (hp : s.slot.prog.drained = false) (hu : s.slot.unacked = 0) (hl : s.owedRouters c ≠ [])
    (i : Instr) (k : State → Out) :
    drain i c k s = .stay ((s.sendTokens (s.owedRouters c)).await i (.drain (s.owedRouters c).length)) := by
  rw [drain, if_neg (Bool.eq_false_iff.1 hp), if_neg (not_not_intro hu)]
  exact if_neg (mt List.isEmpty_iff.1 hl)

/-! ## What a drain sees of a counted issue -/

theorem State.counted_drained (s : State) : s.counted.slot.prog.drained = s.slot.prog.drained := by
  obtain ⟨k, hk⟩ := SlotOnly.counted s
  rw [hk.slot]

theorem State.counted_unacked (s : State) : s.counted.slot.unacked = s.slot.unacked := by
  obtain ⟨k, hk⟩ := SlotOnly.counted s
  rw [hk.slot]

theorem State.counted_scopeRouters (s : State) (c : Scope) :
    s.counted.scopeRouters s.counted.cluster c = s.scopeRouters s.cluster c := by
  obtain ⟨k, -, hrest, -⟩ := s.counted_eq
  rw [hrest]
  rfl

theorem State.counted_owes (s : State) : s.counted.owes = s.owes := by
  obtain ⟨k, -, hrest, -⟩ := s.counted_eq
  rw [hrest]
  rfl

theorem State.counted_owedRouters (s : State) (c : Scope) : s.counted.owedRouters c = s.owedRouters c := by
  rw [State.owedRouters, s.counted_scopeRouters, s.counted_owes, State.owedRouters]

theorem State.Drained.counted {s : State} {c : Scope} (h : s.Drained c) : s.counted.Drained c := by
  rwa [State.Drained, s.counted_unacked, s.counted_scopeRouters, s.counted_owes]

theorem State.sendTokens_setSlot_hcount (s : State) (k : Nat) (l : List Nat) :
    (s.setSlot { s.slot with hcount := k }).sendTokens l = (s.sendTokens l).setSlot { s.slot with hcount := k } := by
  rw [State.sendTokens, State.slot_setSlot]
  rfl

theorem State.sendTokens_counted (s : State) (l : List Nat) : (s.sendTokens l).counted = s.counted.sendTokens l := by
  rw [State.counted, State.counted, apply_ite (State.sendTokens · l), State.sendTokens_setSlot_hcount]
  rfl

/-! ## How a word that drains ends -/

/-- A word that waits goes on with its issue counted. -/
theorem State.counted_await (s : State) (i : Instr) (w : Wait) : s.counted.await i w = s.parks i w none := by
  obtain ⟨k, hk, -, -⟩ := s.counted_eq
  rw [State.await, State.setSlot_counted, State.parks, hk]

/-- A word that changes nothing completes with its issue counted. -/
theorem settle_counted_seq (s : State) : settle s.counted (.seq s.counted) = s.completes s.slot := by
  obtain ⟨k, hk, -, -⟩ := s.counted_eq
  rw [settle, State.setSlot_counted, State.completes, s.counted_ctx, hk]
  rfl

/-- One that drops the words fetched ahead completes with that alone. -/
theorem settle_counted_dropAhead (s : State) :
    settle s.counted (forgetAhead s.counted) = s.completes { s.slot with ahead := [] } := by
  obtain ⟨k, hk, -, -⟩ := s.counted_eq
  rw [forgetAhead, settle, State.dropAhead, State.setSlot_counted, State.setSlot_setSlot, State.ctx_eq, State.slot_setSlot,
    State.completes, s.counted_pc, hk]

/-- A word that drains first, with nothing to wait for, ends as the rest of it does. -/
theorem issue_drain_drained {s : State} {g : Guard} {c : Scope} (hp : s.Performs g 0 false) (hd : s.Drained c) (i : Instr)
    (k : State → Out) : issue i g 0 false (drain i c k) s = .next (settle s.counted (k s.counted)) := by
  rw [issue_performs hp, drain_of_drained hd.counted]

/-- One whose thread is not settled waits for that. -/
theorem issue_drain_unsettled {s : State} {g : Guard} (hp : s.Performs g 0 false) (hn : s.slot.prog.drained = false)
    (hu : s.slot.unacked ≠ 0) (i : Instr) (c : Scope) (k : State → Out) :
    issue i g 0 false (drain i c k) s = .next (s.parks i .settle none) := by
  rw [issue_performs hp, drain_of_unsettled (s.counted_drained.trans hn) (by rwa [s.counted_unacked]), settle, s.counted_await]

/-- One whose thread is settled waits for the tokens it sends. -/
theorem issue_drain_owed {s : State} {g : Guard} {c : Scope} (hp : s.Performs g 0 false) (hn : s.slot.prog.drained = false)
    (hu : s.slot.unacked = 0) (hl : s.owedRouters c ≠ []) (i : Instr) (k : State → Out) :
    issue i g 0 false (drain i c k) s =
      .next ((s.sendTokens (s.owedRouters c)).parks i (.drain (s.owedRouters c).length) none) := by
  rw [issue_performs hp, drain_of_owed (s.counted_drained.trans hn) (s.counted_unacked.trans hu) (by rwa [s.counted_owedRouters]),
    settle, s.counted_owedRouters, ← s.sendTokens_counted, State.counted_await]

/-! ## FENCE (R175) -/

theorem exec_fenceFull (g : Guard) (c : Scope) (s : State) :
    exec (.fenceFull g c) s = issue (.fenceFull g c) g 0 false (drain (.fenceFull g c) c forgetAhead) s := rfl

theorem exec_fenceRel (g : Guard) (c : Scope) (s : State) :
    exec (.fenceRel g c) s = issue (.fenceRel g c) g 0 false (drain (.fenceRel g c) c forgetAhead) s := rfl

theorem exec_fenceAcq (g : Guard) (c : Scope) (s : State) :
    exec (.fenceAcq g c) s = issue (.fenceAcq g c) g 0 false forgetAhead s := rfl

theorem fences : Rules.Fences := by
  intro s g c hp _
  refine ⟨?_, fun hd => ⟨?_, ?_⟩⟩
  · rw [exec_fenceAcq, issue_performs hp, settle_counted_dropAhead]
  · rw [exec_fenceFull, issue_drain_drained hp hd, settle_counted_dropAhead]
  · rw [exec_fenceRel, issue_drain_drained hp hd, settle_counted_dropAhead]

theorem fenceWaits : Rules.FenceWaits := by
  intro s g c i hi hp hn
  have he : exec i s = issue i g 0 false (drain i c forgetAhead) s := by
    rcases hi with rfl | rfl
    · exact exec_fenceFull g c s
    · exact exec_fenceRel g c s
  rw [he]
  constructor
  · exact fun hu => issue_drain_unsettled hp hn hu i c forgetAhead
  · rintro hu _ rfl hl
    exact issue_drain_owed hp hn hu hl i forgetAhead

/-! ## Invalidations (R170, R171) -/

theorem State.takePacket_of_get {s : State} {k : Nat} {q : Packet} (h : s.net[k]? = some q) :
    s.takePacket k = some (q, { s with net := s.net.eraseIdx k }) := by
  rw [State.takePacket, h]
  rfl

/-- The entries left are those of other lines. -/
theorem State.dropLine_remote (s : State) (r line : Nat) :
    ((s.dropLine r line).portAt r).remote = (s.portAt r).remote.filter fun e => e.line != line := by
  unfold State.dropLine
  dsimp only
  split
  · rw [State.portAt_setPortAt]
  · next h => exact (List.filter_eq_self.2 fun e he => bne_iff_ne.2 fun hl => h (List.any_eq_true.2 ⟨e, he, beq_iff_eq.2 hl⟩)).symm

/-- The drop changes the ports alone. -/
theorem State.dropLine_eq (s : State) (r line : Nat) : s.dropLine r line = { s with ports := (s.dropLine r line).ports } := by
  unfold State.dropLine
  dsimp only
  split <;> rfl

theorem State.acknowledge_unacked (s : State) (n : Nat) : ((s.acknowledge n).slotAt n).unacked = (s.slotAt n).unacked - 1 := by
  rw [State.acknowledge, State.slotAt_setSlotAt_same]

/-- The last acknowledgement ends the wait of a thread to be settled. -/
theorem State.acknowledge_run_settled {s : State} {n : Nat} (hr : (s.slotAt n).run = .waiting .settle) (hu : (s.slotAt n).unacked ≤ 1) :
    ((s.acknowledge n).slotAt n).run = .runnable := by
  rw [State.acknowledge, State.slotAt_setSlotAt_same]
  exact if_pos ⟨Nat.sub_eq_zero_of_le hu, hr⟩

/-- The state when packet k, an invalidation of a line for router r, has left flight and been applied there. -/
def State.lineDropped (s : State) (k r line : Nat) : State := State.dropLine { s with net := s.net.eraseIdx k } r line

theorem State.lineDropped_eq (s : State) (k r line : Nat) :
    s.lineDropped k r line = { s with net := s.net.eraseIdx k, ports := (s.lineDropped k r line).ports } := State.dropLine_eq ..

theorem State.lineDropped_slotAt (s : State) (k r line n : Nat) : (s.lineDropped k r line).slotAt n = s.slotAt n := by
  rw [State.lineDropped_eq]
  rfl

/-- An invalidation that a slot's write caused. -/
theorem exec_invalidation_slot {s : State} {k line r n : Nat} {p : Fin 8} (h : s.net[k]? = some ⟨p, .inval line r (some n)⟩)
    (hn : n < 2 ^ 20) :
    exec (.invalidation k) s = .next ((s.lineDropped k r line).acknowledge n) := by
  change execInvalidation k s = _
  rw [execInvalidation, State.takePacket_of_get h]
  exact congrArg Host.Outcome.next (if_pos hn)

theorem invalidationArrives {s : State} {k n r line : Nat} {p : Fin 8} (h : s.net[k]? = some ⟨p, .inval line r (some n)⟩)
    (hn : n < 2 ^ 20) :
    ∃ t, exec (.invalidation k) s = .next t ∧ t.net = s.net.eraseIdx k ∧ SameMem s t ∧
      (∀ e ∈ (t.portAt r).remote, e.line ≠ line) ∧ (∀ e ∈ (s.portAt r).remote, e.line ≠ line → e ∈ (t.portAt r).remote) ∧
      (t.slotAt n).unacked = (s.slotAt n).unacked - 1 ∧
      ((s.slotAt n).run = .waiting .settle → (s.slotAt n).unacked ≤ 1 → (t.slotAt n).run = .runnable) := by
  have hrest := s.lineDropped_eq k r line
  have hslot := s.lineDropped_slotAt k r line n
  have hremote : (((s.lineDropped k r line).acknowledge n).portAt r).remote = (s.portAt r).remote.filter fun e => e.line != line :=
    State.dropLine_remote ..
  refine ⟨_, exec_invalidation_slot h hn, congrArg State.net hrest, fun a => congrArg (·.mem.byte a) hrest,
    fun e he => ?_, fun e he hl => ?_, ?_, fun hr hu => ?_⟩
  · rw [hremote] at he
    exact bne_iff_ne.1 (List.mem_filter.1 he).2
  · rw [hremote]
    exact List.mem_filter.2 ⟨he, bne_iff_ne.2 hl⟩
  · rw [State.acknowledge_unacked, hslot]
  · exact State.acknowledge_run_settled (by rwa [hslot]) (by rwa [hslot])

/-! ## Tokens (R172) -/

/-- The slot that a token has come to while it waited for m. -/
def Slot.tokenTaken (x : Slot) (m : Nat) : Slot :=
  if m ≤ 1 then { x with run := .runnable, prog := { x.prog with drained := true } } else { x with run := .waiting (.drain (m - 1)) }

theorem Slot.tokenTaken_last {m : Nat} (x : Slot) (h : m ≤ 1) :
    x.tokenTaken m = { x with run := .runnable, prog := { x.prog with drained := true } } := if_pos h

theorem Slot.tokenTaken_more {m : Nat} (x : Slot) (h : 1 < m) : x.tokenTaken m = { x with run := .waiting (.drain (m - 1)) } :=
  if_neg (Nat.not_le.2 h)

theorem Slot.tokenTaken_ctx (x : Slot) (m : Nat) : (x.tokenTaken m).ctx = x.ctx := by
  unfold Slot.tokenTaken
  split <;> rfl

/-- A token of a slot that waits for m of them. -/
theorem exec_drainToken_waiting {s : State} {k n r m : Nat} {p : Fin 8} (h : s.net[k]? = some ⟨p, .token n r⟩)
    (hr : (s.slotAt n).run = .waiting (.drain m)) :
    exec (.drainToken k) s =
      .next (State.setSlotAt { s with net := s.net.eraseIdx k } n ((s.slotAt n).tokenTaken m)) := by
  have hr' : (State.slotAt { s with net := s.net.eraseIdx k } n).run = .waiting (.drain m) := hr
  change execDrainToken k s = _
  rw [execDrainToken, State.takePacket_of_get h]
  simp only [hr']
  rfl

theorem tokenArrives {s : State} {k n r m : Nat} {p : Fin 8} (h : s.net[k]? = some ⟨p, .token n r⟩)
    (hr : (s.slotAt n).run = .waiting (.drain m)) :
    ∃ t, exec (.drainToken k) s = .next t ∧ t.net = s.net.eraseIdx k ∧ SameMem s t ∧ (t.slotAt n).ctx = (s.slotAt n).ctx ∧
      (1 < m → (t.slotAt n).run = .waiting (.drain (m - 1))) ∧
      (m ≤ 1 → (t.slotAt n).run = .runnable ∧ (t.slotAt n).prog.drained = true) := by
  refine ⟨_, exec_drainToken_waiting h hr, rfl, fun _ => rfl, ?_, fun hm => ?_, fun hm => ?_⟩ <;> rw [State.slotAt_setSlotAt_same]
  · exact Slot.tokenTaken_ctx ..
  · rw [Slot.tokenTaken_more _ hm]
  · rw [Slot.tokenTaken_last _ hm]
    exact ⟨rfl, rfl⟩

theorem drainPackets : Rules.DrainPackets := fun _ _ _ _ _ _ _ => ⟨invalidationArrives, tokenArrives⟩

/-! ## STSYNC (R176) -/

/-- A command of the thread that acts has an Instant-domain piece that is not accepted, slipped or discarded. -/
def State.cmdOpen (s : State) : Bool := s.commands.any fun e => s.slot.cmds.contains e.stamp && !e.instDone

theorem State.cmdOpen_iff {s : State} : s.cmdOpen = true ↔ ∃ e ∈ s.commands, e.stamp ∈ s.slot.cmds ∧ e.instDone = false := by
  simp [State.cmdOpen]

theorem State.counted_cmdOpen (s : State) : s.counted.cmdOpen = s.cmdOpen := by
  obtain ⟨k, hslot, hrest, -⟩ := s.counted_eq
  rw [State.cmdOpen, hslot, hrest]
  rfl

theorem exec_stsync (g : Guard) (c : Scope) (s : State) : exec (.stsync g c) s = issue (.stsync g c) g 0 false
    (fun s => if s.cmdOpen then .stay (s.await (.stsync g c) .stsync) else drain (.stsync g c) c .seq s) s := rfl

theorem storeSync : Rules.StoreSync := by
  intro s g c hp
  rw [exec_stsync, issue_performs hp, s.counted_cmdOpen]
  constructor
  · intro hopen
    rw [if_pos (State.cmdOpen_iff.2 hopen), settle, s.counted_await]
  · intro hdone hd _
    have hclosed : ¬ s.cmdOpen = true := fun h => by
      obtain ⟨e, he, hmine, hopen⟩ := State.cmdOpen_iff.1 h
      exact Bool.false_ne_true (hopen.symm.trans (hdone e he hmine))
    rw [if_neg hclosed, drain_of_drained hd.counted, settle_counted_seq]

end Sys2Proof.Machine

/-- Settles O14, a part for each of its four rules: the words that drain by the three ways a drain can go, the packets by what each makes
of its router and of the slot it counts for. -/
theorem fencesAndDrains : Obligations.FencesAndDrains :=
  ⟨Sys2Proof.Machine.fences, Sys2Proof.Machine.fenceWaits, Sys2Proof.Machine.drainPackets, Sys2Proof.Machine.storeSync⟩
end
